-- ==== Sys2Proof/Word.lean ====
section
/-! DEFINITION. The plain word types of the block: bytes and register words are bit vectors, everything else the block
counts is a Nat. -/

namespace Sys2Proof

/-- One byte of a store (R6: bytes, little-endian multi-byte values). -/
abbrev Byte := BitVec 8

/-- A register of BAR0 is 32 or 64 bits wide (R7); it is held in 64 bits, the upper half of a narrow one reading 0. -/
abbrev Word64 := BitVec 64

/-- A vector register lane, a mask row or an accumulator word. -/
abbrev Word32 := BitVec 32

/-- Seconds and shorter times are counted in FT ticks of one nanosecond (R269). -/
abbrev Ticks := Nat

end Sys2Proof
end

