-- ==== Sys2Proof/Syntax.lean ====
section
/-! DEFINITION. The commands of the block: one constructor for each row of the table of operations and events, with the
unit the event happens at and what comes from outside the module; everything else an event needs stands in the state. -/

namespace Sys2Proof

/-- Partition P0 to P7 (R12). -/
abbrev PartId := Fin 8
/-- Global core number `g = 576 p + n` (R15). -/
abbrev CoreId := Fin 4608
/-- Logical cluster C00 to C35 of a partition (R12). -/
abbrev CluId := Fin 36
/-- Engine gang number (R88). -/
abbrev GangId := Fin 32
/-- Fabric port X00 to X63 (R12). -/
abbrev PortId := Fin 64
/-- Lamp bay L0 to L7 (R12). -/
abbrev BayId := Fin 8
/-- Bench of the active layout (R245). -/
abbrev BenchId := Fin 256
/-- Mark of a partition (R227). -/
abbrev MarkId := Fin 4096
/-- Booking entry (R342). -/
abbrev BookId := Fin 4096
/-- Engine kind: 0 matrix, 1 vector, 2 update, 3 mover (Table 8-5). -/
abbrev EngId := Fin 4

/-- The function a host access comes through (R394). -/
inductive Func where
  | pf0
  | vf (k : Fin 8)
  deriving DecidableEq, Repr

/-- A command queue (Table 8-5). -/
inductive QId where
  | core (g : CoreId) (e : EngId)
  | coll (p : PartId)
  | bench (b : BenchId) (e : EngId)
  deriving DecidableEq, Repr

/-- What a witness's comparison of results ends with (R459): equal, different from a byte on in some number of bytes, or an
error of the witness (Table 17-2). -/
inductive AssayOut where
  | same
  | differs (first n : Nat)
  | witnessError
  deriving DecidableEq, Repr

/-- The body of a HELLO (Table 12-5); the nonces and key_id are numbers of 16 bytes. -/
structure Hello where
  serial : Nat
  id : Nat
  idValid : Bool
  port : Nat
  nonce : Nat
  peerNonce : Nat
  keyId : Nat
  sig : List Nat
  deriving DecidableEq, Repr

/-- A record of a link-state advertisement (R339). -/
structure LsaRec where
  port : Nat
  state : Nat
  peerPort : Nat
  peerSerial : Nat
  delay : Nat
  deriving DecidableEq, Repr

/-- A link-state advertisement (R339). -/
structure Lsa where
  origin : Nat
  id : Nat
  idValid : Bool
  seq : Nat
  recs : List LsaRec
  deriving DecidableEq, Repr

/-- How a message that names its destination by serial comes: the port it comes in by, and the dst_serial of its packet (R332, R333). -/
structure Via where
  port : PortId
  dst : Nat
  deriving DecidableEq, Repr

/-- The body of a Class T ANNOUNCE (Table 12-6). -/
structure Announce where
  r : Nat
  prio : Nat
  serial : Nat
  id : Nat
  hops : Nat
  epoch : Nat
  deriving DecidableEq, Repr

/-- What a Lamp's secure element holds (Table 14-1): the part number as two words, the signed certificate and its two signatures. -/
structure LampElem where
  serial : Nat
  part0 : Nat
  part1 : Nat
  year : Nat
  week : Nat
  cert : List Nat
  ecdsa : List Nat
  lms : List Nat
  biasInit : List Nat
  hours : List Nat
  failed : Nat
  deriving DecidableEq, Repr

/-- What the boot memory test found (R486): failing rows mapped out of core memory, shared memory and HBM, and rows left in use for want of a
spare, each by its row of the device physical address space; and how long it took, in ms. -/
structure TestResult where
  cm : List Nat
  sm : List Nat
  hbm : List Nat
  left : List Nat
  ms : Nat
  deriving DecidableEq, Repr

/-- What the power manager measures and estimates in one loop (R436, R444): mean powers in W of the input and the three classes, the input in mV and
0.1 A, energies in µJ since the last loop (input, B8, B0 to B7), currents in 0.1 A and powers of the banks, currents of the 48 zones, the lowest sensor
readings of the 288 clusters in mV; the demand D of each class, the power of links and memory at their floors, the compute demand of each partition, the
power of each cluster at each operating point (index 8 c + op), and the part of each zone's current that is no cluster's. -/
structure PowerMeas where
  input : Nat
  cls : List Nat
  vin : Nat
  iin : Nat
  uj : List Nat
  bankCur : List Nat
  bankW : List Nat
  zoneCur : List Nat
  vout : List Nat
  demand : List Nat
  floors : List Nat
  part : List Nat
  est : List Nat
  zoneBase : List Nat
  deriving DecidableEq, Repr

/-- A member's message of a broker period (R441). -/
structure Contrib where
  serial : Nat
  group : Nat
  c : Nat
  u : Nat
  slack : Option Int
  deriving DecidableEq, Repr

/-- A temperature reading in 0.25 °C: sensor kind 1 cluster (its index among 288), 2 Headframe or transit domain, 3 HBM stack (Table 16-6). -/
structure Sensor where
  kind : Nat
  index : Nat
  temp : Int
  deriving DecidableEq, Repr

/-- A write to HF_MBOX_CMD that sets go (R417): the function, use_host and in_len, the host buffer's bytes if the payload is there and the read
does not fail, and whether the host accepts the output. -/
structure MboxCall where
  f : Func
  useHost : Bool
  inLen : Nat
  host : Option (List Byte)
  outOk : Bool
  deriving DecidableEq, Repr

/-- What a register write that starts a mailbox command brings beside its fields (R417): what the host's memory answers, and the first wrong
commands of a canary run and of its repetition. -/
structure MboxGo where
  host : Option (List Byte) := none
  outOk : Bool := true
  a : Option Nat := none
  b : Option Nat := none
  deriving DecidableEq, Repr

/-- What a register write brings: its data, and what goes with a mailbox command that it starts (R8, R417). -/
structure RegData where
  v : Word64
  m : MboxGo := {}
  deriving DecidableEq, Repr

/-- What a laser's bias check compares with and records: the output setpoint in µW, and the Lamp's case temperature in 0.25 °C (R386, Table 14-3). -/
structure LaserSet where
  power : Nat
  temp : Int
  deriving DecidableEq, Repr

/-- What a CXL.mem read asks for (R407): no coherent state, shared, or exclusive. -/
inductive Coherence where
  | none
  | shared
  | exclusive
  deriving DecidableEq, Repr

/-- The commands: one for each row of the table, in its order. Log: 13 (DEDUCED). -/
inductive Instr where
  /-- Command NOP does nothing except what its header asks for (R210). -/
  | nop (q : QId)
  /-- The fetch unit consumes a JUMP and installs a new command list, taking TAIL from a pending tail write with a matching tag (R214). -/
  | jump (q : QId)
  /-- Command SYNC adds radd to a mark of partition rpart if remote_en is set, and writes a user-event tally if user_event is nonzero (R211). -/
  | sync (q : QId)
  /-- Matrix command MM issues instruction steps over an mt by nt by kt tile region, in rounds and pass order (R73). -/
  | mm (g : CoreId)
  /-- MM_LOAD writes accumulator tiles from core-memory rows in RAW32, BF16 or BIAS32 form (R74). -/
  | mmLoad (g : CoreId)
  /-- MM_STORE converts accumulator tiles to dst_fmt and writes them to core-memory rows or to one ring slot (R75). -/
  | mmStore (g : CoreId)
  /-- VLAUNCH starts a kernel on the lowest free gangs, with the initial gang state of Table 4-1 (R111). -/
  | vlaunch (g : CoreId)
  /-- VPREFETCH fetches code lines into the instruction cache and skips lines that fail translation (R113). -/
  | vprefetch (g : CoreId)
  /-- Update command UPD checks the step number and then applies the recurrence of its live table row to count groups of 128 elements (R151). -/
  | upd (g : CoreId)
  /-- Mover command MOVE moves rows between address kinds, with optional conversion or MX quantisation and bench strides (R183). -/
  | move (g : CoreId)
  /-- Collective command COLL reads its descriptor once and starts a reduction, gather, broadcast or exchange (R354). -/
  | coll (p : PartId)
  /-- A queue fetches a 512-byte row of command entries while HEAD differs from TAIL, and advances HEAD (R213). -/
  | commandFetch (q : QId)
  /-- A waiting command starts once its mark wait, FT gate and header fence all hold and its engine accepts it; Assay sampling is decided here (R219). -/
  | commandStart (q : QId)
  /-- A command that has not started when local FT reaches deadline_ft completes LATE and performs no operation (R221). -/
  | late (q : QId)
  /-- A command completes when its writes are complete, and signals its mark with release semantics and writes any tally (R229). -/
  | commandComplete (q : QId)
  /-- A write of run = 1 moves a STOPPED or HALTED queue to RUNNING, or is refused with cfg_err set (R216). -/
  | queueRun (f : Func) (q : QId) (v : Word64)
  /-- A write of run = 0 stops the queue, discards unstarted fetched commands and returns HEAD under R540 (R216). -/
  | queueStop (f : Func) (q : QId) (v : Word64)
  /-- A TAIL write takes effect at once when its tag matches the current list, and is otherwise held as the pending tail write (R215). -/
  | tailWrite (f : Func) (q : QId) (v : Word64)
  /-- A bench queue broadcasts a fetched command over the Bell network once every member holds a free entry (R223). -/
  | benchBroadcast (b : BenchId) (e : Fin 4)
  /-- A host write to PART_MARK sets the value of a mark (R227). -/
  | markWrite (f : Func) (p : PartId) (m : MarkId) (v : Word64)
  /-- A host write to PART_MARK_ADD adds a value to a mark, with release for the host's earlier writes (R227). -/
  | markAdd (f : Func) (p : PartId) (m : MarkId) (v : Word64)
  /-- A mark add from a signal or a remote SYNC reaches its mark and is applied modulo 2^64 (R230). -/
  | markAddArrive (k : Nat)
  /-- A tally record reaches its ring and is written before wr advances, or is dropped and counted in lost (R233). -/
  | tallyWrite (k : Nat)
  /-- A write to PART_TALLY_RD updates rd and raises the ring interrupt again if wr minus rd is still at least level (R415). -/
  | tallyRdWrite (f : Func) (p : PartId) (r : Fin 8) (v : Word64)
  /-- Vector instruction nop does nothing (R134). -/
  | vNop (g : CoreId) (n : GangId)
  /-- Vector instruction jmp sets the PC to its target (R134). -/
  | vJmp (g : CoreId) (n : GangId)
  /-- Vector instruction br.div is a divergent branch that pushes reconvergence and branch entries (R103). -/
  | vBrDiv (g : CoreId) (n : GangId)
  /-- Vector instruction join pops the reconvergence stack and sets the execution mask and the PC (R103). -/
  | vJoin (g : CoreId) (n : GangId)
  /-- Vector instruction br.any branches uniformly when any active lane is set in the mask (R134). -/
  | vBrAny (g : CoreId) (n : GangId)
  /-- Vector instruction br.all branches uniformly when every active lane is set in the mask (R134). -/
  | vBrAll (g : CoreId) (n : GangId)
  /-- Vector instruction bz branches when a scalar register is zero (R134). -/
  | vBz (g : CoreId) (n : GangId)
  /-- Vector instruction bnz branches when a scalar register is nonzero (R134). -/
  | vBnz (g : CoreId) (n : GangId)
  /-- Vector instruction end ends the gang, and the launch completes when all of its gangs have ended (R104). -/
  | vEnd (g : CoreId) (n : GangId)
  /-- Vector instruction iadd adds integers with wraparound (R135). -/
  | vIadd (g : CoreId) (n : GangId)
  /-- Vector instruction isub subtracts integers with wraparound (R135). -/
  | vIsub (g : CoreId) (n : GangId)
  /-- Vector instruction imul writes the low 32 bits of an integer product (R135). -/
  | vImul (g : CoreId) (n : GangId)
  /-- Vector instruction imulhi writes the high 32 bits of an integer product (R135). -/
  | vImulhi (g : CoreId) (n : GangId)
  /-- Vector instruction imin writes the integer minimum, signed or unsigned by type (R135). -/
  | vImin (g : CoreId) (n : GangId)
  /-- Vector instruction imax writes the integer maximum, signed or unsigned by type (R135). -/
  | vImax (g : CoreId) (n : GangId)
  /-- Vector instruction and writes the bitwise AND (R135). -/
  | vAnd (g : CoreId) (n : GangId)
  /-- Vector instruction or writes the bitwise OR (R135). -/
  | vOr (g : CoreId) (n : GangId)
  /-- Vector instruction xor writes the bitwise XOR (R135). -/
  | vXor (g : CoreId) (n : GangId)
  /-- Vector instruction shl shifts left (R135). -/
  | vShl (g : CoreId) (n : GangId)
  /-- Vector instruction shr shifts right logically (R135). -/
  | vShr (g : CoreId) (n : GangId)
  /-- Vector instruction sar shifts right arithmetically (R135). -/
  | vSar (g : CoreId) (n : GangId)
  /-- Vector instruction clz counts leading zeros (R135). -/
  | vClz (g : CoreId) (n : GangId)
  /-- Vector instruction popc counts set bits (R135). -/
  | vPopc (g : CoreId) (n : GangId)
  /-- Vector instruction icmp writes a mask from an integer comparison (R135). -/
  | vIcmp (g : CoreId) (n : GangId)
  /-- Vector instruction sel selects a or b by a lane bit of a mask (R135). -/
  | vSel (g : CoreId) (n : GangId)
  /-- Vector instruction fadd performs IEEE floating-point addition (R136). -/
  | vFadd (g : CoreId) (n : GangId)
  /-- Vector instruction fsub performs IEEE floating-point subtraction (R136). -/
  | vFsub (g : CoreId) (n : GangId)
  /-- Vector instruction fmul performs IEEE floating-point multiplication (R136). -/
  | vFmul (g : CoreId) (n : GangId)
  /-- Vector instruction ffma performs a fused multiply-add with one rounding (R136). -/
  | vFfma (g : CoreId) (n : GangId)
  /-- Vector instruction fmin writes the floating-point minimum, with the stated NaN and zero handling (R136). -/
  | vFmin (g : CoreId) (n : GangId)
  /-- Vector instruction fmax writes the floating-point maximum, with the stated NaN and zero handling (R136). -/
  | vFmax (g : CoreId) (n : GangId)
  /-- Vector instruction fcmp writes a mask from a floating-point comparison (R136). -/
  | vFcmp (g : CoreId) (n : GangId)
  /-- Vector instruction frnd rounds to an integral value in the selected direction (R136). -/
  | vFrnd (g : CoreId) (n : GangId)
  /-- Vector instruction cvt converts one element per lane between formats under R41 to R44 (R137). -/
  | vCvt (g : CoreId) (n : GangId)
  /-- Vector instruction mxpack quantises one 32-element MX block per gang, with optional residual capture (R139). -/
  | vMxpack (g : CoreId) (n : GangId)
  /-- Vector instruction mxunpack dequantises one MX block to FP32 (R141). -/
  | vMxunpack (g : CoreId) (n : GangId)
  /-- Vector instruction shfl exchanges register values between lanes (R142). -/
  | vShfl (g : CoreId) (n : GangId)
  /-- Vector instruction mov copies a register or writes the lane index (R142). -/
  | vMov (g : CoreId) (n : GangId)
  /-- Vector instruction vtos copies one lane's register to a scalar (R142). -/
  | vVtos (g : CoreId) (n : GangId)
  /-- Vector instruction movi writes a 32-bit immediate to a register (R142). -/
  | vMovi (g : CoreId) (n : GangId)
  /-- Special function exp2 computes 2 to the power a (R143). -/
  | vExp2 (g : CoreId) (n : GangId)
  /-- Special function log2 computes the base-2 logarithm (R143). -/
  | vLog2 (g : CoreId) (n : GangId)
  /-- Special function rcp computes the reciprocal (R143). -/
  | vRcp (g : CoreId) (n : GangId)
  /-- Special function rsq computes the reciprocal square root (R143). -/
  | vRsq (g : CoreId) (n : GangId)
  /-- Special function sin computes the sine over minus pi to pi (R143). -/
  | vSin (g : CoreId) (n : GangId)
  /-- Special function cos computes the cosine over minus pi to pi (R143). -/
  | vCos (g : CoreId) (n : GangId)
  /-- Vector instruction ld loads row-stage elements for each active lane (R144). -/
  | vLd (g : CoreId) (n : GangId)
  /-- Vector instruction st stores row-stage elements for each active lane (R144). -/
  | vSt (g : CoreId) (n : GangId)
  /-- Vector instruction rowld moves whole rows from core memory to the row stage (R145). -/
  | vRowld (g : CoreId) (n : GangId)
  /-- Vector instruction rowst moves whole rows from the row stage to core memory (R145). -/
  | vRowst (g : CoreId) (n : GangId)
  /-- Vector instruction ringrd takes the next FULL ring slot into the row stage and sets it EMPTY (R146). -/
  | vRingrd (g : CoreId) (n : GangId)
  /-- Vector instruction ringwr fills the next EMPTY ring slot from the row stage and sets it FULL (R146). -/
  | vRingwr (g : CoreId) (n : GangId)
  /-- Vector instruction atom applies an atomic operation to the row stage and returns the old value (R147). -/
  | vAtom (g : CoreId) (n : GangId)
  /-- Vector instruction atomcas performs an atomic compare-exchange on the row stage (R147). -/
  | vAtomcas (g : CoreId) (n : GangId)
  /-- Vector instruction salu performs a scalar arithmetic or logic operation (R148). -/
  | vSalu (g : CoreId) (n : GangId)
  /-- Vector instruction scmp writes a scalar comparison result (R148). -/
  | vScmp (g : CoreId) (n : GangId)
  /-- Vector instruction malu performs a mask logic operation (R148). -/
  | vMalu (g : CoreId) (n : GangId)
  /-- Vector instruction mtos writes mask information to a scalar (R148). -/
  | vMtos (g : CoreId) (n : GangId)
  /-- Vector instruction stom writes a scalar's low bits to a mask (R148). -/
  | vStom (g : CoreId) (n : GangId)
  /-- Vector instruction bar makes the gang wait at the launch barrier (R101). -/
  | vBar (g : CoreId) (n : GangId)
  /-- The barrier releases when every gang of the launch has reached it or ended, and makes earlier accesses visible (R101). -/
  | barrierRelease (g : CoreId) (id : Nat)
  /-- Vector instruction mwait makes the gang wait on a mark value with acquire semantics (R149). -/
  | vMwait (g : CoreId) (n : GangId)
  /-- A gang's mark wait ends when the mark reaches the awaited value (R228). -/
  | mwaitSatisfied (g : CoreId) (n : GangId)
  /-- Vector instruction msig adds to a mark with release semantics once the gang's earlier writes are complete (R149). -/
  | vMsig (g : CoreId) (n : GangId)
  /-- Vector instruction fence orders the gang's accesses at a scope and invalidates the remote-data cache at DEVICE or FABRIC scope (R235). -/
  | vFence (g : CoreId) (n : GangId)
  /-- Vector instruction post sends 64 row-stage bytes as a command to the core's mover queue (R150). -/
  | vPost (g : CoreId) (n : GangId)
  /-- A stalled post completes when the mover queue accepts the command (R124). -/
  | postAccepted (g : CoreId) (n : GangId)
  /-- Vector instruction rdft reads local FT into a scalar pair (R149). -/
  | vRdft (g : CoreId) (n : GangId)
  /-- A missing instruction-cache line arrives and the gangs that waited on it may issue (R115). -/
  | icacheFill (g : CoreId) (k : Nat)
  /-- A launch not complete at its watchdog tick faults with VEC_WATCHDOG (R112). -/
  | vecWatchdog (g : CoreId) (id : Nat)
  /-- A write of go to PART_UPD_COMMIT validates the staged rows, computes the bias factors, and sets pending or records a failure (R156). -/
  | updCommitGo (f : Func) (p : PartId) (v : Word64)
  /-- A pending commit takes effect at commit_ft, and the live rows are broadcast over the Bell network (R157). -/
  | updCommitFt (p : PartId)
  /-- A core adopts the new live rows at its first update-command boundary after their arrival, or on arrival when idle (R157). -/
  | rowAdopt (g : CoreId)
  /-- When every core waited for has adopted the rows, pending and go clear and the commit mark is signalled if enabled (R157). -/
  | updCommitComplete (p : PartId)
  /-- A waiting ring access claims its slot when the slot reaches the needed state, and the pointer advances (R178). -/
  | ringSlotClaim (k : Nat)
  /-- A ring access still waiting at f plus timeout faults with RING_UNDERRUN or RING_OVERRUN (R179). -/
  | ringTimeout (k : Nat)
  /-- A write of go to PART_RING_RESET returns a ring's slots to EMPTY and its pointers to slot 0 (R181). -/
  | ringReset (f : Func) (p : PartId) (v : Word64)
  /-- The patrol scrub reads a row, writes corrected data back, and records uncorrectable errors (R196). -/
  | patrolScrub (row : Nat) (n : Nat)
  /-- PART_XLT_REQ op CTX_ALLOC allocates the lowest free address context with the given root (R207). -/
  | ctxAlloc (f : Func) (p : PartId) (v : Word64)
  /-- PART_XLT_REQ op CTX_FREE frees a context, or refuses with BUSY while a queue uses it (R207). -/
  | ctxFree (f : Func) (p : PartId) (v : Word64)
  /-- PART_XLT_REQ op SEQ_ALLOC allocates the lowest free sequence slot with its page list (R207). -/
  | seqAlloc (f : Func) (p : PartId) (v : Word64)
  /-- PART_XLT_REQ op SEQ_FREE frees a sequence slot at once (R207). -/
  | seqFree (f : Func) (p : PartId) (v : Word64)
  /-- PART_XLT_REQ op SEQ_SET_LEN sets a slot's length and its append point (R206). -/
  | seqSetLen (f : Func) (p : PartId) (v : Word64)
  /-- A PART_XLT_REQ go with op 0, 6 or 7 completes with BAD_ARG and changes nothing (R207). -/
  | xltReqBadOp (f : Func) (p : PartId) (v : Word64)
  /-- A write of go to PART_XLT_INV starts the dropping of cached translations for one context or all of them (R202). -/
  | xltInv (f : Func) (p : PartId) (v : Word64)
  /-- go of PART_XLT_INV clears once every core waited for has dropped the translations (R202). -/
  | xltInvComplete (p : PartId)
  /-- A sequence's length advances over a reserved append range once it and every earlier range are completely written (R206). -/
  | seqLengthAdvance (p : PartId) (k : Nat)
  /-- A remote-data cache fill returns from the home and installs a line unless an invalidation started meanwhile (R190). -/
  | rdcFillReturn (k : Nat)
  /-- A write of load to HF_LAYOUT_CMD starts reading and validating a layout image, or is refused with SLOT_BUSY (R257). -/
  | layoutLoad (f : Func) (v : Word64)
  /-- Validation of a layout image ends, either rejecting it with a code or starting its broadcast to standby stores (R256). -/
  | layoutValidationDone
  /-- The broadcast of a validated image completes, standby becomes READY and LAYOUT_LOADED is written (R258). -/
  | layoutBroadcastDone
  /-- A write of swap to HF_LAYOUT_CMD accepts a swap at swap_ft or refuses it with a swap code (R261). -/
  | swapRequest (f : Func) (v : Word64)
  /-- A write of cancel withdraws a pending swap if it arrives no later than swap_ft minus 1,000 (R261). -/
  | swapCancel (f : Func) (v : Word64)
  /-- At swap instant S the old shift closes and no queue starts a command (R262). -/
  | swapInstant
  /-- At Q, when the last started command completes, every queue stops and units begin adopting the standby layout (R262). -/
  | swapQuiesce
  /-- The new layout becomes active, absorbs retirements and writes LAYOUT_ACTIVE (R262). -/
  | layoutActive
  /-- A unit receives a 64-bit time-line frame and loads its value at the frame boundary if its CRC checks (R272). -/
  | ftFrame (u : Fin 296) (w : Word64)
  /-- A PPS_IN edge is accepted and brings FT to its value, or is rejected and counted (R275). -/
  | ppsEdge
  /-- Two seconds without a PPS_IN edge make the reference lost (R275). -/
  | ppsTimeout
  /-- Every 1 ms each end of an UP link sends a Class T SYNC stamped in hardware (R341). -/
  | classTSyncSend (x : PortId)
  /-- A received SYNC is stamped and answered with SYNC_RESP (R341). -/
  | classTSync (x : PortId) (t1 : Nat) (fr : Fin 16)
  /-- A received SYNC_RESP gives the link delay and offset, which the module uses to correct FT (R341). -/
  | syncResp (x : PortId) (t1 : Nat) (t2 : Nat) (t3 : Nat) (fr : Fin 16) (hops : Nat)
  /-- A received Class T ANNOUNCE takes part in the district time-master election (R276), if its destination serial is the module's (R333). -/
  | announce (x : Via) (a : Announce)
  /-- No sync from the master for 4 ms starts a new time-master election (R276). -/
  | masterTimeout
  /-- aligned clears 50 ms after the last good sync (R276). -/
  | alignedTimeout
  /-- A shift of the active layout opens at origin plus k times shift_len (R279). -/
  | shiftOpen
  /-- A phase starts at its offset in the shift, and the cluster operating points are selected again: at the shift sequencer, and at every
  Deputy whose own FT has reached the start (R279). -/
  | phaseStart
  /-- At phase start minus lead the Deputy starts moving its clusters to the phase's operating points and notifies the regulators (R282). -/
  | opMoveStart (p : PartId)
  /-- The ageing monitors are read and the cluster trim is raised if needed (R285). -/
  | trimRead (p : PartId) (c : CluId) (mv : List Nat)
  /-- A supply droop lengthens the cluster clock period from the next cycle (R286); with no cluster, that of the transit clock (R299). -/
  | droopDetect (p : PartId) (c : Option CluId) (below : Nat) (need : Nat) (n : Nat)
  /-- A droop hold ends after 64 consecutive ticks at or below the nominal period (R287). -/
  | droopHoldEnd (p : PartId) (c : Option CluId)
  /-- After 64 consecutive stretched periods the Deputy demotes the cluster by one operating point (R288). -/
  | demote (p : PartId) (c : CluId)
  /-- The regulator reaches the new voltage of a raising frequency change (R292). -/
  | voltageRampDone (p : PartId) (c : CluId)
  /-- A cluster group's clock stops for a frequency change in its stagger slot (R293). -/
  | fchgStop (p : PartId) (row : Fin 6)
  /-- In-flight pipeline stages and crossings of the stopped cluster have settled (R292). -/
  | fchgDrainDone (p : PartId) (c : CluId)
  /-- The oscillator has relocked to the new target (R292). -/
  | fchgRelockDone (p : PartId) (c : CluId)
  /-- The cluster restarts at the new frequency once the rail is settled, and any voltage fall begins (R295). -/
  | fchgRestart (p : PartId) (c : CluId)
  /-- A stop that has lasted 20,000 ticks under droop abandons the change and relocks to the lower point (R295). -/
  | fchgAbort (p : PartId) (c : CluId)
  /-- A lane error in service starts retraining of a die-to-die link (R310). -/
  | d2dLaneError (p : PartId) (d : Fin 18) (n : Nat)
  /-- Link training ends, with failed lanes mapped onto spares (R310). -/
  | d2dTrainDone (p : PartId) (d : Fin 18) (bad : List Nat)
  /-- A bulk row reaches its receiver and is accepted, discarded as a duplicate, or answered with a NACK (R309). -/
  | bulkRowDeliver (k : Nat)
  /-- An end-to-end acknowledgement of a Class S or Class C row arrives and releases the source's copy (R309). -/
  | rowAck (k : Nat)
  /-- A router fails by self-check or by silence, and its position is fenced and its slices taken out of service (R315). -/
  | routerFail (p : PartId) (c : CluId) (silent : Bool)
  /-- New paths are installed around a failed router or a dark partition, and unacknowledged rows are resent (R316). -/
  | rerouteInstall (ms : List Nat)
  /-- A Bell link beat with a detected error is retried (R319). -/
  | bellBeatError (p : PartId) (level : Fin 3) (node : CluId) (fails : Nat)
  /-- A received flit is checked, held or passed on in seq order, or nacked, and its credits and acknowledgements are processed (R328).
  errs are the symbols in error of the codewords that end with it, was the slot of its arrival, pos its place in the stripe, due and len the FT at which a booked flit leaves and its length (R325, R343). -/
  | flitReceive (x : PortId) (b : List Byte) (errs : List Nat) (was : Nat) (pos : Nat) (due : Nat) (len : Nat)
  /-- A VX lane loses lock and the port link is declared down (R329). -/
  | laneLockLoss (x : PortId) (lanes : Fin 256)
  /-- No good flit for 1,000 ticks declares a VX link down (R329). -/
  | flitSilenceTimeout (x : PortId)
  /-- After 1 ms in DOWN_WAIT the port trains again (R329). -/
  | downWaitExpiry (x : PortId)
  /-- Port lanes lock and deskew, and the port enters HELLO (R337). -/
  | portTrained (x : PortId)
  /-- Every 1 ms in HELLO the port sends a signed HELLO with a fresh nonce (R337). -/
  | helloSend (x : PortId)
  /-- A received HELLO is checked for serial, nonce echo and signature (R338), if its destination serial is the module's (R333). -/
  | hello (x : Via) (h : Hello)
  /-- A received CERT message delivers the peer's certificate chain for verification (R338). -/
  | cert (x : PortId) (chain : List Nat)
  /-- Verification of the peer ends, and the port goes UP or UNTRUSTED (R338). -/
  | peerVerdict (x : PortId)
  /-- A received link-state advertisement is stored if newer and forwarded (R339), if its destination serial is the module's (R333). -/
  | lsa (x : Via) (l : Lsa)
  /-- Every 30 s the module floods its link-state advertisement (R339). -/
  | lsaRefresh
  /-- A database entry not refreshed for 120 s is removed (R339). -/
  | lsaExpiry (k : Nat)
  /-- A packet not addressed to the module is looked up, its hop count lowered, and sent or dropped (R334). -/
  | packetForward (x : PortId)
  /-- A write to HF_VX_ID sets the module ID, or is refused while a booking is CONFIRMING or ACTIVE (R340). -/
  | vxIdWrite (f : Func) (v : Word64)
  /-- Writing activate to a FREE SOURCE booking entry starts a confirmation (R344). -/
  | bookActivate (f : Func) (b : BookId) (v : Word64)
  /-- A CONFIRM message is checked at a transit or destination entry and forwarded or answered (R344). -/
  | confirm (x : PortId) (b : BookId) (prev : Nat) (lat : Nat) (links : Nat) (slots : List Nat)
  /-- A CONFIRMED message makes each entry ACTIVE, and at the source sets path_lat and hops (R344). -/
  | confirmed (x : PortId) (b : BookId) (lat : Nat) (links : Nat)
  /-- A REFUSED message frees each entry it passes and writes BOOK_REFUSED at the source (R344). -/
  | refused (x : PortId) (b : BookId) (hop : Nat) (reason : Nat)
  /-- A confirmation not finished 1 ms after activate is refused with reason TIMEOUT (R344). -/
  | bookConfirmTimeout (b : BookId)
  /-- Writing revoke to a booking entry revokes it with cause 2 (R349). -/
  | bookRevoke (f : Func) (b : BookId) (v : Word64)
  /-- A REVOKE message revokes an entry and passes on along prev_index (R349). -/
  | revoke (x : PortId) (b : BookId) (cause : Nat)
  /-- A write to the fields of a FREE or REVOKED booking entry takes effect and sets a REVOKED entry FREE (R343). -/
  | bookEntryWrite (f : Func) (b : BookId) (v : Word64)
  /-- A write to a calendar slot takes effect unless the slot names a CONFIRMING or ACTIVE entry (R343). -/
  | calWrite (f : Func) (x : PortId) (k : MarkId) (v : Word64)
  /-- The collective engine offers a Class S transfer, and the port accepts it into booked slots or refuses it with a status (R346). -/
  | transferOffer (p : PartId)
  /-- An ACK reaching the source completes the transfer OK (R348). -/
  | transferAck (x : PortId) (b : BookId) (n : Nat)
  /-- A transfer without an ACK at deadline minus 1 completes REVOKED with subcode 3 (R348). -/
  | transferDeadline (id : Nat)
  /-- The collective engine combines the awaited child message, in increasing j, and sends its partial when all are combined (R360). -/
  | childMessageConsume (p : PartId)
  /-- A child message missing at b plus child_wait ends the command with CE_MISSING, or drops the child under SIGN_MAJ (R370). -/
  | childWaitExpiry (p : PartId)
  /-- The result arrives on down_in, and the node writes its copies and offers each child its message (R361). -/
  | downResult (p : PartId)
  /-- A COLL completes OK when every copy is written and every offer has completed OK (R373). -/
  | collComplete (p : PartId)
  /-- A write to a landing entry takes effect only while its booking is FREE or REVOKED (R377). -/
  | ceLandWrite (f : Func) (p : PartId) (j : Fin 64) (w : Fin 2) (v : Word64)
  /-- A laser that stays below output at full bias, or that fails to reach its setpoint, is marked FAILED (R379). -/
  | laserFail (l : BayId) (n : Fin 16)
  /-- Every 10 minutes of lit time the laser hours are written to the secure element (R385). -/
  | lampHoursWrite (l : BayId)
  /-- Writing eject writes the hours, turns every laser off and sets the bay EJECTED (R387). -/
  | lampEject (f : Func) (l : BayId) (v : Word64)
  /-- The presence contact opens, the interlock darkens the lasers, and the ports go down (R387). -/
  | lampSurpriseRemoval (l : BayId)
  /-- A Lamp seated for 1 ms is read, lit, its standby lasers tested, and verification started (R388). -/
  | lampSeated (l : BayId) (e : Option LampElem)
  /-- The Lamp verification verdict is given, and the Lamp runs or is REJECTED (R383). -/
  | lampVerdict (l : BayId) (sig : List Nat)
  /-- A write of allow_unverified takes effect at once, darkening or lighting an unverified Lamp (R384). -/
  | allowUnverifiedWrite (f : Func) (l : BayId) (v : Word64)
  /-- A BAR0 access that breaks R7 reads all ones or is dropped, and is counted and logged (R399). -/
  | bar0BadAccess (f : Func) (off : Nat) (w : Nat) (wr : Bool)
  /-- A VF access outside its view reads 0 or is ignored, and is counted in denied (R398). -/
  | vfDenied (f : Func) (off : Nat) (w : Nat) (wr : Bool)
  /-- A BAR2 read is split at row boundaries and served from shared or core memory, or completes with an error (R402). -/
  | bar2Read (f : Func) (off : Nat) (len : Nat) (sec : Bool)
  /-- A BAR2 write is split at row boundaries and merged into the rows, or dropped (R402). -/
  | bar2Write (f : Func) (off : Nat) (data : List (Option Byte)) (sec : Bool)
  /-- A CXL.mem read returns an HBM line, poisoned on an uncorrectable error, and may be tracked for back-invalidate (R409). -/
  | cxlMemRead (hpa : Nat) (want : Coherence) (sec : Bool)
  /-- A CXL.mem write reaches HBM through the HDM decoder (R405). -/
  | cxlMemWrite (hpa : Nat) (data : List (Option Byte)) (sec : Bool)
  /-- The host answers a back-invalidate, and the waiting engine access proceeds (R407). -/
  | bisnpResponse (line : Nat) (data : Option (List Byte)) (shared : Bool)
  /-- A back-invalidate unanswered for 100 µs ends the engine access as an uncorrectable error (R408). -/
  | bisnpTimeout (line : Nat)
  /-- Committing the HDM decoder lets the device serve CXL.mem requests (R405). -/
  | hdmDecoderCommit (base : Nat)
  /-- A Function Level Reset of VF k resets every partition of tenancy k in parallel (R396). -/
  | vfFlr (k : Fin 8)
  /-- A Function Level Reset of PF0 performs a device compute reset and resets every VF's configuration (R396). -/
  | pf0Flr
  /-- IDE_KM or CXL_IDE_KM in a secured session sets the keys of an IDE stream (R411). -/
  | ideKm (session : Nat) (stream : Fin 10) (key : List Nat)
  /-- An IDE integrity failure moves its stream to insecure and drops the failing TLP or flit (R413). -/
  | ideFailure (stream : Fin 10)
  /-- A write to HF_INT_MAP binds an interrupt source to a vector, or is refused with map_err (R416). -/
  | intMapWrite (f : Func) (src : Fin 96) (v : Word64)
  /-- Mailbox command LSDB_READ returns link-state origin records from an index (R419). -/
  | lsdbRead (c : MboxCall)
  /-- A mailbox go with a reserved or undefined opcode completes with BAD_OPCODE (R418). -/
  | mboxBadOpcode (c : MboxCall) (op : Fin 65536)
  /-- Mailbox command FW_INFO returns the manifest versions, the active set and the component versions and svns (R504). -/
  | fwInfo (c : MboxCall)
  /-- Mailbox command FW_STAGE writes part of a component image into the staged set (R505). -/
  | fwStage (c : MboxCall)
  /-- Mailbox command FW_VERIFY checks that the staged set is consistent (R505). -/
  | fwVerify (c : MboxCall)
  /-- Mailbox command FW_ACTIVATE schedules an activation of the staged set at act_ft (R506). -/
  | fwActivate (c : MboxCall)
  /-- Mailbox command FW_COMMIT_SVN blows the svn fuses up to the set in force (R501). -/
  | fwCommitSvn (c : MboxCall)
  /-- Mailbox command MCODE_ROLL starts or resumes a rolling microcode update (R510). -/
  | mcodeRoll (c : MboxCall)
  /-- Mailbox command ENERGY_TOTALS returns the lifetime energy totals and power-on counts (R445). -/
  | energyTotals (c : MboxCall)
  /-- Mailbox command FAULT_READ returns CPER records from the fault log (R471). -/
  | faultRead (c : MboxCall)
  /-- Mailbox command CANARY_RUN runs the canary set on a given core (R471). -/
  | canaryRun (c : MboxCall) (a : Option Nat) (b : Option Nat)
  /-- Mailbox command CAPSULE builds and signs the failure capsule (R477). -/
  | capsule (c : MboxCall)
  /-- Mailbox command RETIRE retires a given core with cause HOST (R471). -/
  | retire (c : MboxCall)
  /-- Mailbox command BOOT_TEST_SET selects the full or quick memory test for the next power-on (R487). -/
  | bootTestSet (c : MboxCall)
  /-- Mailbox command MEM_TEST_REPORT returns the result of the last memory test (R487). -/
  | memTestReport (c : MboxCall)
  /-- SPDM GET_VERSION returns the supported SPDM version (R517). -/
  | getVersion (via : Fin 2)
  /-- SPDM GET_CAPABILITIES returns the responder's capabilities (R517). -/
  | getCapabilities (via : Fin 2)
  /-- SPDM NEGOTIATE_ALGORITHMS fixes P-384, SHA-384, secp384r1 and AES-256-GCM (R517). -/
  | negotiateAlgorithms (via : Fin 2) (offered : Bool)
  /-- SPDM GET_DIGESTS returns the certificate chain digest of slot 0 (R517). -/
  | getDigests (via : Fin 2)
  /-- SPDM GET_CERTIFICATE returns the chain from the Dexantek root to the alias certificate (R517). -/
  | getCertificate (via : Fin 2) (slot : Nat) (off : Nat) (len : Nat)
  /-- SPDM CHALLENGE returns CHALLENGE_AUTH signed with ECDSA and with an HSS signature (R519). -/
  | challenge (via : Fin 2) (slot : Nat) (nonce : Nat) (flashOk : Bool)
  /-- SPDM GET_MEASUREMENTS reports the measurement blocks of Table 19-6 (R518). -/
  | getMeasurements (via : Fin 2) (idx : Fin 256) (signed : Bool) (nonce : Nat) (flashOk : Bool)
  /-- SPDM KEY_EXCHANGE starts a secured session (R517). -/
  | keyExchange (via : Fin 2) (slot : Nat) (random : Nat)
  /-- SPDM FINISH completes the establishment of a secured session (R517). -/
  | finish (via : Fin 2) (session : Nat)
  /-- SPDM END_SESSION ends a secured session (R517). -/
  | endSession (via : Fin 2) (session : Nat)
  /-- SPDM HEARTBEAT keeps a secured session alive (R517). -/
  | heartbeat (via : Fin 2) (session : Nat)
  /-- PLDM QueryDeviceIdentifiers returns the device identifiers (R513). -/
  | queryDeviceIdentifiers
  /-- PLDM GetFirmwareParameters returns the component table and versions (R513). -/
  | getFirmwareParameters
  /-- PLDM RequestUpdate starts an update, or is refused while a mailbox staging runs (R514). -/
  | requestUpdate
  /-- PLDM PassComponentTable passes the components to be updated (R513). -/
  | passComponentTable (comps : List Nat)
  /-- PLDM UpdateComponent starts the transfer of one component into the staged set (R513). -/
  | updateComponent (comp : Nat) (size : Nat)
  /-- Firmware data requested through RequestFirmwareData arrives and is written into the staged set as FW_STAGE does (R513). -/
  | requestFirmwareData (data : List Byte)
  /-- PLDM ActivateFirmware runs an activation, or in recovery mode writes the boot pointer and requests a module reset (R514). -/
  | activateFirmware
  /-- PLDM CancelUpdate cancels a running update (R513). -/
  | cancelUpdate
  /-- Input current above 450 A for 5 µs lowers every cluster cap by two operating points (R423). -/
  | inputLimit (vin : Nat) (iin : Nat)
  /-- An input below 38.0 V for 100 µs shuts every bank down and deasserts PGOOD (R423). -/
  | inputUndervoltage (vin : Nat)
  /-- An input above 62.0 V shuts every bank down and deasserts PGOOD (R423). -/
  | inputOvervoltage (vin : Nat)
  /-- A bank's electronic fuse opens on overcurrent or on a zone undervoltage, and the partition goes dark (R424). -/
  | bankFuseOpen (p : PartId)
  /-- A lost converter phase lowers its zone's rating, and a zone with fewer than 3 phases shuts its bank down (R424). -/
  | converterPhaseLoss (p : PartId) (z : Fin 6)
  /-- A cluster regulator phase loss caps the cluster at OP5, and a second loss switches its rail off (R425). -/
  | vrPhaseLoss (p : PartId) (c : CluId) (i : Fin 8)
  /-- A short on a cluster rail switches the rail off, and the cluster goes dark (R425). -/
  | clusterRailShort (p : PartId) (c : CluId)
  /-- A short on a transit rail opens its fuse and switches the partition's other rails off (R425). -/
  | transitRailShort (p : PartId)
  /-- A short on an SM rail opens its fuse and switches the partition's transit and cluster rails off (R425). -/
  | smRailShort (p : PartId)
  /-- A fault in bank B8 shuts every bank down and deasserts PGOOD (R425). -/
  | b8Fault
  /-- With gate_en set, a cluster with no work and idle queues for idle_us is switched off (R431). -/
  | clusterSwitchOff (p : PartId) (c : CluId)
  /-- Writing gate_en to 0 makes the Deputy switch on the clusters that are off (R432). -/
  | gateEnWrite (f : Func) (p : PartId) (v : Word64)
  /-- At a notice-slot boundary the Deputy starts a pending switch-on or defers it, and forces caps after 16 deferrals (R433). -/
  | switchOnSlot (p : PartId) (z : Fin 6) (cur : Nat)
  /-- The soft-start ends, the rail is in regulation, the clock starts at OP0, and the stores are zeroed (R433). -/
  | softStartDone (p : PartId) (c : CluId)
  /-- A write of cap_w sets the module cap, or is refused with cap_err (R434). -/
  | capWrite (f : Func) (v : Word64)
  /-- Every 100 µs the power manager estimates demand, grants class budgets and adjusts cluster caps (R436). -/
  | powerLoop (m : PowerMeas)
  /-- A write to HF_PWR_CONTRACT changes power-contract mode, or is refused with contract_err (R438). -/
  | contractWrite (f : Func) (v : Word64)
  /-- Every 10 ms the power manager sets the contract cap from the energy of the window (R438). -/
  | contractUpdate
  /-- The Deputy computes a phase's slack when its commands complete, or at R plus shift_len (R439). -/
  | slackReport (p : PartId)
  /-- Broker election messages over Class C elect one broker for the district (R440), if their destination serial is the module's (R333). -/
  | brokerElect (x : Via) (prio : Nat) (serial : Nat)
  /-- At a period boundary each member sends its contribution, ceiling and least slack to the broker (R441). -/
  | brokerPeriod
  /-- The broker computes each group's grants from late and waiting members and sends them (R442). -/
  | grantCompute (ms : List Contrib)
  /-- A grant takes effect at T when it falls and at T plus 100 µs when it rises (R441). -/
  | grantApply (w : Nat)
  /-- No grant for 3 periods runs the member at its contribution and starts a new election (R440). -/
  | noGrant
  /-- Every 10 minutes of power-on time the lifetime energy totals are written to flash (R445). -/
  | energyFlashWrite
  /-- Every 10 µs the die sensors are sampled, and throttle limits are applied or released (R448). -/
  | thermalSample (t : List Sensor) (inlet : Int) (outlet : Int)
  /-- PWR_EN asserted with the input in range brings the banks into regulation and asserts PGOOD (R526). -/
  | pwrEnAssert
  /-- PWR_EN deasserted stops the engines, darkens the Lamps and completes the pending flash writes (R527). -/
  | pwrEnDeassert
  /-- The banks turn off and PGOOD is deasserted at the end of power-down (R527). -/
  | powerDownDone
  /-- The capture of a sampled command reaches the witness, and the original and the witness start (R457). -/
  | captureCopyDone (g : CoreId) (e : Fin 4) (id : Nat) (err : Bool)
  /-- The witness finishes comparing the original's results with its own and gives PASS or a mismatch (R459). -/
  | assayCompareDone (g : CoreId) (e : Fin 4) (id : Nat) (out : AssayOut)
  /-- With the repeats in, the device gives TRANSIENT, PERMANENT, WITNESS or UNRESOLVED (R463). -/
  | assayVerdict (g : CoreId) (e : Fin 4) (id : Nat) (o2 : Fin 3) (t : Fin 3)
  /-- No verdict within assay_wait abandons the duplicate, or makes the verdict UNRESOLVED (R461). -/
  | assayTimeout (g : CoreId) (e : Fin 4) (id : Nat)
  /-- The retired core is written to the retirement record in flash (R466). -/
  | retirementFlashWrite (k : Nat) (ok : Bool)
  /-- The device starts a canary run on the next available core in each 60-minute cycle (R468). -/
  | canarySchedule
  /-- A canary run ends, and a wrong answer triggers a rerun or confirms a failure (R469). -/
  | canaryResult (g : CoreId) (bad : Option Nat)
  /-- PART_RST kind 0 starts a core reset with drain and absorb (R488). -/
  | coreReset (f : Func) (p : PartId) (v : Word64)
  /-- PART_RST kind 1 starts a cluster reset (R488). -/
  | clusterReset (f : Func) (p : PartId) (v : Word64)
  /-- PART_RST kind 2 starts a partition compute reset and revokes the DESTINATION bookings of the partition (R488). -/
  | partitionReset (f : Func) (p : PartId) (v : Word64)
  /-- HF_RST kind 1 resets the compute parts of all partitions and the layout state (R488). -/
  | deviceComputeReset (f : Func) (v : Word64)
  /-- HF_RST kind 2 resets everything except the fuses and flash and reruns the boot steps (R488). -/
  | moduleReset (f : Func) (v : Word64)
  /-- A reset go with a reserved kind starts nothing and sets refused (R496). -/
  | resetReservedKind (f : Func) (p : Option PartId) (v : Word64)
  /-- The drain of a unit in reset ends when its outbound traffic is delivered, or after 50 µs, discarding the rest (R490). -/
  | drainEnd (k : Nat) (n : Nat)
  /-- The reset work finishes, busy clears, and the unit stops absorbing (R488). -/
  | resetComplete (k : Nat)
  /-- PERST_N asserted while PGOOD stays high is a module reset without drain (R524). -/
  | perstAssert
  /-- The release of PERST_N starts the power-on or module-reset sequence and samples the straps (R482). -/
  | perstRelease (straps : Fin 16) (recoveryN : Bool)
  /-- The boot memory test ends, mapping out failing rows and zeroing every store (R486). -/
  | memoryTestDone (t : TestResult)
  /-- At act_ft no queue starts a command, and the activation waits for started commands (R506). -/
  | activationInstant
  /-- At C the pause begins and the staged components are loaded (R506). -/
  | activationPause
  /-- The component self-checks end, and the boot pointer is written or the old set reloads (R506). -/
  | selfCheckDone (bad : Option (Fin 7))
  /-- The queues resume and FW_ACTIVATE completes (R506). -/
  | activationResume
  /-- With C not reached within 100 ms, or a swap in the way, the activation is abandoned with BUSY (R507). -/
  | activationAbandon
  /-- During a roll a core changes to the new microcode when none of its engines is executing (R510). -/
  | mcodeCoreChange (g : CoreId)
  /-- A management processor that has not serviced its watchdog for 100 ms is restarted by the other (R503). -/
  | mpWatchdogExpiry (m : Fin 2)
  /-- A write to a register that has no row of its own acts under its access code (R8). -/
  | registerWrite (f : Func) (off : Nat) (w : Nat) (v : RegData)
  /-- A read of an RC field returns its value and clears it, without losing an event in the same cycle (R9). -/
  | registerRcRead (f : Func) (off : Nat) (w : Nat)
  /-- At each flit position of a port's 32-tick slot the port sends the highest-priority flit that may use it: a booked Class S flit, a resend, Class C, T or B, or IDLE (R330). -/
  | flitPosition (x : PortId)
  /-- The collective engine finishes reading its sources and forming the local value, then combines children or, with none, makes its offer to the parent (R358). -/
  | localValueFormed (p : PartId)
  /-- PPS_OUT rises at every FT that is a multiple of 10^9 and falls 100,000 ticks later (R278). -/
  | ppsOut
  /-- The power-on sequence reaches management ready: configuration requests are answered normally, every BAR0 block responds and the mailbox accepts commands (R482);
  flashOk says whether flash takes the index of the boot's signing tree (R520). -/
  | managementReady (flashOk : Bool)
  /-- HBM PHY training of all 16 stacks ends; the memory test starts, READY is reached after a module reset, or a failed stack stops the sequence (R484). -/
  | hbmTrainingDone (ok : Bool)
  /-- CXL link training ends at a rate, width and flit mode that HF_HOST_LINK reports, or stays in training below 32 GT/s or x4 (R393). -/
  | cxlLinkTrainingDone (rate : Fin 4) (width : Fin 4) (lopt : Bool)
  /-- A configuration write of NumVFs enables virtual functions, and VF k exists when NumVFs exceeds k (R394). -/
  | numvfsWrite (n : Fin 9)
  /-- A PCIe AtomicOp request to BAR2 completes with Unsupported Request (R403). -/
  | atomicopRequest (f : Func) (off : Nat)
  /-- A CDAT read through PF0's DOE mailbox returns the DSMAS range and the DSLBIS latency and bandwidth (R410). -/
  | cdatRequest
  /-- A DOE Discovery request returns the protocols that PF0's DOE mailbox supports (R410). -/
  | doeDiscovery
  /-- Unmasking an MSI-X vector whose pending bit is set sends one message for the events collected while masked (R414). -/
  | vectorUnmask (f : Func) (v : Nat)
  /-- The busbar input comes into 40 V to 60 V, and a PWR_EN already asserted starts power-up within 10 ms (R526). -/
  | inputInRange
  /-- The 100 ms off interval after a power-down or shutdown ends, and a waiting PWR_EN assertion starts power-up (R528). -/
  | powerOffIntervalEnd
  /-- A laser's bias reaches 1.25 times bias_init with its output within 2 % of setpoint, raising the bias end-of-life warning (R386). -/
  | laserBiasLimit (l : BayId) (n : Fin 16) (bias : Nat) (power : Nat) (set : LaserSet)
  /-- A fault report is written to the fault log in flash, overwriting or dropping a record when the log is full (R475). -/
  | faultLogFlashWrite (k : Nat) (ok : Bool)
  /-- The I3C controller assigns the Headframe a dynamic address in place of its static address (R513). -/
  | i3cDynamicAddress (a : Nat)
  deriving DecidableEq, Repr

end Sys2Proof
end

