-- ==== Sys2Proof/Decode.lean ====
section
/-! DEFINITION. Decoding of table words: the table of operations and events gives its rows no bits. -/

namespace Sys2Proof

/-- The command a word spells by the table's bits: none, since no row of the table has bits. Log: 3 (DESIGN CHOICE). -/
def decodeTableWord (_nbits _w : Nat) : Option Instr := none

end Sys2Proof
end

