-- ==== Sys2Proof/Config.lean ====
section
/-! DEFINITION. What an implementation fixes and the free values: constants without a body, so that no proof can use a
value of them. A fresh free value is `Config.free` applied to the counter `State.freeCtr`. -/

namespace Sys2Proof.Config

/-- A fresh value for anything the spec leaves open at one instant; the argument is the state's counter. Log: 9 (DESIGN CHOICE). -/
opaque free : Nat → Nat

/-- Content of a byte the spec does not define (R263, R406): `id` names the event that left it undefined. Log: 8 (DEDUCED). -/
opaque residue (id addr : Nat) : BitVec 8

/-- The module serial number in fuses (R20, R340). Log: 121 (DEDUCED). -/
opaque serial : BitVec 64

/-- SHA-384 of the header of a firmware component as delivered (R497, R499). Log: 10 (DESIGN CHOICE). -/
opaque factoryHash (comp : Nat) : List Nat

/-- Result of a special function within its bound, where Table 2-4 gives no special result; `f` is the opcode. Log: 24 (DESIGN CHOICE). -/
opaque sfu (f : Nat) (x : BitVec 32) : BitVec 32

/-- Whether a signature over a message verifies under a key (ECDSA P-384, LMS or HSS; chapter 19). Log: 10 (DESIGN CHOICE). -/
opaque verify (scheme : Nat) (key msg sig : List Nat) : Bool

/-- The value after a value of the Assay units' generator (R453). Log: 111 (DESIGN CHOICE). -/
opaque draw (x : BitVec 32) : BitVec 32

/-- The value a seed gives the generator of core `g` (R453). Log: 111 (DESIGN CHOICE). -/
opaque drawSeed (seed g : Nat) : BitVec 32

/-- The SHA-384 hash of the image ECDSA key, in fuses (R515). Log: 10 (DESIGN CHOICE). -/
opaque ecdsaKeyHash : List (BitVec 8)

/-- The SHA-256 hash of the image LMS key, in fuses (R515). Log: 10 (DESIGN CHOICE). -/
opaque lmsKeyHash : List (BitVec 8)

/-- A signature made by the module with one of its keys; `n` counts the signatures made. Log: 10 (DESIGN CHOICE). -/
opaque sign (scheme : Nat) (key : Nat) (msg : List Nat) (n : Nat) : List Nat

/-- Random numbers of the module (nonces); the argument is the state's counter. Log: 10 (DESIGN CHOICE). -/
opaque random : Nat → Nat

/-- The 8 bytes of source, destination and P1 that Class B route hashing takes the CRC-32C of (R335): the three do not fit, so their packing
is open. Log: 72 (DESIGN CHOICE). -/
opaque routeKey (src dst p1 : Nat) : BitVec 64

/-- Kind code of a Class C message in its packet header (Table 12-3); the spec gives those of Class T only. `tag` is the model's number of the
message. Log: 145 (DESIGN CHOICE). -/
opaque vxKind (tag : Nat) : BitVec 16

/-- Bytes of a message body whose length the spec does not state. Log: 145 (DESIGN CHOICE). -/
opaque vxLen (tag : Nat) : Nat

/-- Byte `i` of a message body, or of a header word, whose layout the spec does not give, from what the message says. Log: 145 (DESIGN CHOICE). -/
opaque vxByte (tag : Nat) (what : List Nat) (i : Nat) : BitVec 8

/-- The signing certificate of a chain (R338). Log: 74 (DEDUCED). -/
opaque signingCert (chain : List Nat) : List Nat

/-- The module's certificate chain, whose last certificate depends on the firmware in force (R516). Log: 10 (DESIGN CHOICE). -/
opaque chain (key : Nat) : List Nat

/-- Vendor's unit code of a fault report (Table 17-7), by its number. Log: 98 (PRESUMED). -/
opaque hwCode (number : Nat) : Nat

/-- Digest of the ROM (Table 19-6). Log: 10 (DESIGN CHOICE). -/
opaque romDigest : List Nat

/-- Parts of the failure capsule whose encoding the spec does not give (R477): `part` 0 the header, 1 the maps and records in fuses and
flash, 2 the trims, 3 the Lamps; the argument is what the part holds. Log: 99 (DESIGN CHOICE). -/
opaque capsulePart (part : Nat) (what : List Nat) : List (BitVec 8)

/-- Memory rows that fuses map out on this module, as rows of the host's address space (R20, R199). Log: 142 (DESIGN CHOICE). -/
opaque fusedRows : List Nat

/-- A certificate chain, or part of a message, as bytes; the digest of a chain (R517). Log: 10 (DESIGN CHOICE). -/
opaque digest (data : List Nat) : List Nat

end Sys2Proof.Config
end

