-- ==== Sys2Proof/Machine/Bits.lean ====
section
/-! DEFINITION. Bit fields of numbers, little-endian bytes (R6), signed readings and saturating counters. -/

namespace Sys2Proof.Machine

/-- Bits `lo+len-1 : lo` of a number. -/
def bits (w lo len : Nat) : Nat := (w >>> lo) % 2 ^ len

/-- Bit `i` of a number. -/
def bitAt (w i : Nat) : Bool := w.testBit i

/-- A number with bits `lo+len-1 : lo` replaced by the low bits of `v`. -/
def putBits (w lo len v : Nat) : Nat :=
  (w - bits w lo len * 2 ^ lo) + (v % 2 ^ len) * 2 ^ lo

/-- 1 for true and 0 for false. -/
def ofBool (b : Bool) : Nat := if b then 1 else 0

/-- Two's complement reading of the low `n` bits. -/
def signedOf (n w : Nat) : Int :=
  if bitAt w (n - 1) then (w % 2 ^ n : Nat) - (2 ^ n : Nat) else (w % 2 ^ n : Nat)

/-- Two's complement encoding in `n` bits. -/
def ofSigned (n : Nat) (v : Int) : Nat := (v % (2 ^ n : Nat)).toNat

/-- Little-endian number of a list of bytes (R6). -/
def leNat : List Byte → Nat
  | [] => 0
  | b :: r => b.toNat + 256 * leNat r

/-- The `n` low bytes of a number, least significant first (R6). -/
def leBytes : Nat → Nat → List Byte
  | 0, _ => []
  | n + 1, v => BitVec.ofNat 8 v :: leBytes n (v / 256)

/-- A counter of `len` bits that saturates and never wraps (R61). -/
def satAdd (len v d : Nat) : Nat := min (v + d) (2 ^ len - 1)

/-- Rounded-up division. -/
def ceilDiv (a b : Nat) : Nat := (a + b - 1) / b

/-- Position of an element in a list, counted from 0. -/
def indexWhere {α : Type} (p : α → Bool) : List α → Option Nat
  | [] => none
  | x :: r => if p x then some 0 else (indexWhere p r).map (· + 1)

/-- The lowest number below `n` that meets `p`. -/
def lowest (n : Nat) (p : Nat → Bool) : Option Nat := (List.range n).find? p

/-- How many numbers below `n` meet `p`. -/
def countBelow (n : Nat) (p : Nat → Bool) : Nat := ((List.range n).filter p).length

/-- Replace element `i` of a list; outside the list nothing changes. -/
def setNth {α : Type} : List α → Nat → α → List α
  | [], _, _ => []
  | _ :: r, 0, v => v :: r
  | x :: r, i + 1, v => x :: setNth r i v

/-- Replace element `i` of a list by a function of it. -/
def modNth {α : Type} : List α → Nat → (α → α) → List α
  | [], _, _ => []
  | x :: r, 0, f => f x :: r
  | x :: r, i + 1, f => x :: modNth r i f

/-- Drop element `i` of a list. -/
def dropNth {α : Type} : List α → Nat → List α
  | [], _ => []
  | _ :: r, 0 => r
  | x :: r, i + 1 => x :: dropNth r i

/-- A list cut into pieces of `n`; `fuel` bounds the number of pieces. -/
def chunks {α : Type} (n : Nat) : Nat → List α → List (List α)
  | 0, _ => []
  | f + 1, l => if l.isEmpty then [] else l.take n :: chunks n f (l.drop n)

/-- A number put into a rising list. -/
def insertNat : List Nat → Nat → List Nat
  | [], a => [a]
  | x :: r, a => if a ≤ x then a :: x :: r else x :: insertNat r a

/-- A list of numbers in rising order. -/
def sortNat (l : List Nat) : List Nat := l.foldl insertNat []

/-- Fold a function over the numbers below `n`, in rising order. -/
def loop {σ : Type} (n : Nat) (f : Nat → σ → σ) (s : σ) : σ := (List.range n).foldl (fun s i => f i s) s

end Sys2Proof.Machine
end

