-- ==== Sys2Proof/Machine/Regs.lean ====
section
/-! DEFINITION. The register map (chapter 21): every register of BAR0 by name, its place, width, reset domain and reach,
and every field with its bits, access code and reset value, as the field tables of the spec give them (R8, R11, R535, R536). -/

namespace Sys2Proof.Machine

/-- Access codes of Table 0-3 (R8). -/
inductive Acc where
  | ro | rw | wo | w1c | w1s | rc
  deriving DecidableEq, Repr

/-- What resets a register (R11 and the register sections of the chapters): `sticky` keeps its value through every
reset short of power loss, `queue` is decided by the kind of queue (Table 8-5). -/
inductive Dom where
  | core | clu | partC | queue | mod | sticky
  deriving DecidableEq, Repr

/-- The Reach column of chapter 21 (R536). -/
inductive Reach where
  | pf0 | vf | vfRead
  deriving DecidableEq, Repr

/-- The block of Table 21-1 a register lies in; `queue` is a window of Table 8-5. -/
inductive Place where
  | headframe | part | clu | core | hbm | lamp | port | queue
  deriving DecidableEq, Repr

/-- The registers of chapter 21, one constructor for each register word; a register that exists many times is told
apart by an index (see `RegInfo`). Queue registers are indexed by the unit code of Table 8-10. Log: 15 (DESIGN CHOICE). -/
inductive RegName where
  | coreId | coreMcode | coreErrSticky | coreErrFirst | coreErrFirstInfo | coreErrCount
  | qBase | qCtrl | qHead | qTail | qState | qHalt
  | qCerr | qBench | qMember | coreMmErr | coreVecErr | coreVecFault
  | coreVecFaultAddr | coreUpdErr | coreUpdSticky | coreUpdStep | coreMovErr | coreMovFaultAddr
  | coreMmAct | coreMmStall | coreVecAct | coreVecStall | coreUpdAct | coreUpdStall
  | coreArithFtz | coreArithQuant | coreArithConv | coreArithSticky | coreAssayCnt | coreAssayCnt2
  | coreAssayLast | cluOp | cluClkStat | cluFchg | cluClkSticky | partUpdS0
  | partUpdS1 | partUpdS2 | partUpdS3 | partUpdS4 | partUpdS5 | partUpdS6
  | partUpdS7 | partUpdL0 | partUpdL1 | partUpdL2 | partUpdL3 | partUpdL4
  | partUpdL5 | partUpdL6 | partUpdL7 | partUpdCommit | partUpdCommitFt | partXltReq
  | partXltArg0 | partXltArg1 | partXltInv | partSeqLen | partMemCorr | partMemUncorr
  | partMemRepair | partRingReset | partTallyBase | partTallyWr | partTallyRd | partTallyCtrl
  | partCeLand0 | partCeLand1 | partCeStat | partCeErr | partMark | partMarkAdd
  | partNetRouter | partNetErr | partNetSticky | partD2dLink | partNetFence | partPwrBank
  | partPwrEnergy | partPwrSlack | partPwrGate | partPwrZone | partPwrSticky | partPwrClu
  | partAssayCtrl | partAssayStat | partErrSticky | partErrFirst | partErrFirstInfo | partRst
  | partRstStat | hbmEcc | lampState | lampCtrl | lampSerial | lampPart
  | lampDate | lampSticky | lampLaser0 | lampLaser1 | vxPortState | vxPortCtrl
  | vxPortPeer | vxPortPeerId | vxPortDelay | vxPortErr | vxPortCal | hfLayoutSrc
  | hfLayoutLen | hfLayoutCmd | hfLayoutSwapFt | hfLayoutStatus | hfLayoutIdActive | hfLayoutIdStandby
  | hfLayoutOrigin | hfLayoutHashActive | hfLayoutHashStandby | hfLayoutSwapTime | hfBenchState | hfFt
  | hfFtCtrl | hfFtStatus | hfFtMaster | hfFtPps | hfShift | hfSchedTally
  | hfVxId | hfVxSerial | hfVxCtrl | hfVxStat | hfVxMemberRt | hfVxDistrictRt
  | hfVxBook0 | hfVxBook1 | hfVxBook2 | hfVxBook3 | hfHostLink | hfHostErr
  | hfHostErrlog | hfHostIde | hfHdmSf | hfIntMap | hfMboxCmd | hfMboxStatus
  | hfMboxBuf | hfPwrCap | hfPwrContract | hfPwrMeas | hfPwrInput | hfPwrEnergy
  | hfPwrEnergyCommon | hfPwrEnergyLife | hfPwrBroker | hfPwrBrokerGuard | hfPwrBrokerStat | hfPwrBrokerId
  | hfPwrTherm | hfPwrSticky | hfPwrPart | hfErrSticky | hfErrFirst | hfErrFirstInfo
  | hfFaultLog | hfBootStatus | hfBootTest | hfRst | hfFwStatus | hfFwRoll
  | hfFwSvn | hfSecState | hfBoard
  deriving DecidableEq, Repr

/-- One field of a register: its register, lowest bit, width, access code and reset value. -/
structure Fld where
  reg : RegName
  lo : Nat
  len : Nat
  acc : Acc
  rst : Nat
  deriving DecidableEq, Repr

-- CORE_ID, Table 17-9
def F.coreId_logical : Fld := ⟨.coreId, 0, 10, .ro, 0⟩
def F.coreId_global : Fld := ⟨.coreId, 10, 13, .ro, 0⟩
def F.coreId_retired : Fld := ⟨.coreId, 23, 1, .ro, 0⟩
def F.coreId_retireCause : Fld := ⟨.coreId, 24, 3, .ro, 0⟩
def F.coreId_fenced : Fld := ⟨.coreId, 27, 1, .ro, 0⟩
def F.coreId_witness : Fld := ⟨.coreId, 28, 1, .ro, 0⟩
def F.coreId_canary : Fld := ⟨.coreId, 29, 1, .ro, 0⟩
-- CORE_MCODE, Table 19-7
def F.coreMcode_version : Fld := ⟨.coreMcode, 0, 32, .ro, 0⟩
-- CORE_ERR_STICKY, Table 17-10
def F.coreErrSticky_cmUnc : Fld := ⟨.coreErrSticky, 0, 1, .w1c, 0⟩
def F.coreErrSticky_bufUnc : Fld := ⟨.coreErrSticky, 1, 1, .w1c, 0⟩
def F.coreErrSticky_rdUnc : Fld := ⟨.coreErrSticky, 2, 1, .w1c, 0⟩
def F.coreErrSticky_cmSpareOut : Fld := ⟨.coreErrSticky, 3, 1, .w1c, 0⟩
def F.coreErrSticky_assayMismatch : Fld := ⟨.coreErrSticky, 4, 1, .w1c, 0⟩
def F.coreErrSticky_assayTransient : Fld := ⟨.coreErrSticky, 5, 1, .w1c, 0⟩
def F.coreErrSticky_assayPermanent : Fld := ⟨.coreErrSticky, 6, 1, .w1c, 0⟩
def F.coreErrSticky_witnessFault : Fld := ⟨.coreErrSticky, 7, 1, .w1c, 0⟩
def F.coreErrSticky_canaryFail : Fld := ⟨.coreErrSticky, 8, 1, .w1c, 0⟩
def F.coreErrSticky_retired : Fld := ⟨.coreErrSticky, 9, 1, .w1c, 0⟩
-- CORE_ERR_FIRST, Table 17-10
def F.coreErrFirst_ft : Fld := ⟨.coreErrFirst, 0, 64, .ro, 0⟩
-- CORE_ERR_FIRST_INFO, Table 17-10
def F.coreErrFirstInfo_bit : Fld := ⟨.coreErrFirstInfo, 0, 5, .ro, 0⟩
def F.coreErrFirstInfo_valid : Fld := ⟨.coreErrFirstInfo, 5, 1, .w1c, 0⟩
def F.coreErrFirstInfo_engine : Fld := ⟨.coreErrFirstInfo, 6, 2, .ro, 0⟩
def F.coreErrFirstInfo_opcode : Fld := ⟨.coreErrFirstInfo, 8, 8, .ro, 0⟩
-- CORE_ERR_COUNT, Table 17-10
def F.coreErrCount_unc : Fld := ⟨.coreErrCount, 0, 16, .rc, 0⟩
def F.coreErrCount_mismatches : Fld := ⟨.coreErrCount, 16, 16, .rc, 0⟩
def F.coreErrCount_transients : Fld := ⟨.coreErrCount, 32, 16, .rc, 0⟩
def F.coreErrCount_canaryFails : Fld := ⟨.coreErrCount, 48, 16, .rc, 0⟩
-- *Q_BASE, Table 8-6
def F.qBase_base : Fld := ⟨.qBase, 9, 48, .rw, 0⟩
-- *Q_CTRL, Table 8-6
def F.qCtrl_ctx : Fld := ⟨.qCtrl, 0, 6, .rw, 0⟩
def F.qCtrl_sizeLog2 : Fld := ⟨.qCtrl, 6, 5, .rw, 0⟩
def F.qCtrl_mode : Fld := ⟨.qCtrl, 11, 1, .rw, 0⟩
def F.qCtrl_run : Fld := ⟨.qCtrl, 12, 1, .rw, 0⟩
def F.qCtrl_ctxPart : Fld := ⟨.qCtrl, 13, 3, .rw, 0⟩
def F.qCtrl_tag : Fld := ⟨.qCtrl, 32, 16, .rw, 0⟩
-- *Q_HEAD, Table 8-6
def F.qHead_head : Fld := ⟨.qHead, 0, 16, .rw, 0⟩
-- *Q_TAIL, Table 8-6
def F.qTail_tail : Fld := ⟨.qTail, 0, 16, .rw, 0⟩
def F.qTail_tailTag : Fld := ⟨.qTail, 16, 16, .rw, 0⟩
def F.qTail_pendTail : Fld := ⟨.qTail, 32, 16, .ro, 0⟩
def F.qTail_pendTag : Fld := ⟨.qTail, 48, 16, .ro, 0⟩
-- *Q_STATE, Table 8-6
def F.qState_state : Fld := ⟨.qState, 0, 2, .ro, 0⟩
def F.qState_idle : Fld := ⟨.qState, 2, 1, .ro, 1⟩
def F.qState_markWait : Fld := ⟨.qState, 3, 1, .ro, 0⟩
def F.qState_gateWait : Fld := ⟨.qState, 4, 1, .ro, 0⟩
def F.qState_fenceWait : Fld := ⟨.qState, 5, 1, .ro, 0⟩
def F.qState_creditWait : Fld := ⟨.qState, 6, 1, .ro, 0⟩
def F.qState_pendValid : Fld := ⟨.qState, 7, 1, .ro, 0⟩
def F.qState_cfgErr : Fld := ⟨.qState, 8, 1, .ro, 0⟩
-- *Q_HALT, Table 8-6
def F.qHalt_status : Fld := ⟨.qHalt, 0, 8, .ro, 0⟩
def F.qHalt_opcode : Fld := ⟨.qHalt, 8, 8, .ro, 0⟩
def F.qHalt_subcode : Fld := ⟨.qHalt, 16, 8, .ro, 0⟩
def F.qHalt_index : Fld := ⟨.qHalt, 32, 16, .ro, 0⟩
def F.qHalt_htag : Fld := ⟨.qHalt, 48, 16, .ro, 0⟩
-- *Q_CERR, Table 8-6
def F.qCerr_lastCode : Fld := ⟨.qCerr, 0, 8, .ro, 0⟩
def F.qCerr_lateCount : Fld := ⟨.qCerr, 16, 16, .rc, 0⟩
def F.qCerr_errCount : Fld := ⟨.qCerr, 32, 32, .rc, 0⟩
-- *Q_BENCH, Table 8-6
def F.qBench_bench : Fld := ⟨.qBench, 0, 8, .ro, 0⟩
def F.qBench_index : Fld := ⟨.qBench, 8, 13, .ro, 0⟩
def F.qBench_member : Fld := ⟨.qBench, 21, 1, .ro, 0⟩
-- *Q_MEMBER, Table 8-6
def F.qMember_hcore : Fld := ⟨.qMember, 0, 13, .ro, 0⟩
def F.qMember_hvalid : Fld := ⟨.qMember, 13, 1, .ro, 0⟩
-- CORE_MM_ERR, Table 3-13
def F.coreMmErr_lastCode : Fld := ⟨.coreMmErr, 0, 8, .ro, 0⟩
def F.coreMmErr_lastOpcode : Fld := ⟨.coreMmErr, 8, 8, .ro, 0⟩
def F.coreMmErr_errCount : Fld := ⟨.coreMmErr, 32, 32, .rc, 0⟩
-- CORE_VEC_ERR, Table 4-6
def F.coreVecErr_lastCode : Fld := ⟨.coreVecErr, 0, 8, .ro, 0⟩
def F.coreVecErr_lastOpcode : Fld := ⟨.coreVecErr, 8, 8, .ro, 0⟩
def F.coreVecErr_errCount : Fld := ⟨.coreVecErr, 32, 32, .rc, 0⟩
-- CORE_VEC_FAULT, Table 4-7
def F.coreVecFault_code : Fld := ⟨.coreVecFault, 0, 8, .ro, 0⟩
def F.coreVecFault_gang : Fld := ⟨.coreVecFault, 8, 5, .ro, 0⟩
def F.coreVecFault_valid : Fld := ⟨.coreVecFault, 15, 1, .w1c, 0⟩
def F.coreVecFault_lanes : Fld := ⟨.coreVecFault, 16, 16, .ro, 0⟩
def F.coreVecFault_pc : Fld := ⟨.coreVecFault, 32, 17, .ro, 0⟩
def F.coreVecFault_subcode : Fld := ⟨.coreVecFault, 56, 8, .ro, 0⟩
-- CORE_VEC_FAULT_ADDR, Table 4-8
def F.coreVecFaultAddr_addr : Fld := ⟨.coreVecFaultAddr, 0, 57, .ro, 0⟩
-- CORE_UPD_ERR, Table 6-9
def F.coreUpdErr_lastCode : Fld := ⟨.coreUpdErr, 0, 8, .ro, 0⟩
def F.coreUpdErr_lastOpcode : Fld := ⟨.coreUpdErr, 8, 8, .ro, 0⟩
def F.coreUpdErr_faultGroup : Fld := ⟨.coreUpdErr, 16, 10, .ro, 0⟩
def F.coreUpdErr_errCount : Fld := ⟨.coreUpdErr, 32, 32, .rc, 0⟩
-- CORE_UPD_STICKY, Table 6-10
def F.coreUpdSticky_stepMismatch : Fld := ⟨.coreUpdSticky, 0, 1, .w1c, 0⟩
def F.coreUpdSticky_pNonfinite : Fld := ⟨.coreUpdSticky, 1, 1, .w1c, 0⟩
def F.coreUpdSticky_sNonfinite : Fld := ⟨.coreUpdSticky, 2, 1, .w1c, 0⟩
-- CORE_UPD_STEP, Table 6-11
def F.coreUpdStep_tableT : Fld := ⟨.coreUpdStep, 0, 32, .ro, 0⟩
def F.coreUpdStep_cmdStep : Fld := ⟨.coreUpdStep, 32, 32, .ro, 0⟩
-- CORE_MOV_ERR, Table 7-8
def F.coreMovErr_lastCode : Fld := ⟨.coreMovErr, 0, 8, .ro, 0⟩
def F.coreMovErr_lastOpcode : Fld := ⟨.coreMovErr, 8, 8, .ro, 0⟩
def F.coreMovErr_subcode : Fld := ⟨.coreMovErr, 16, 8, .ro, 0⟩
def F.coreMovErr_errCount : Fld := ⟨.coreMovErr, 32, 32, .rc, 0⟩
-- CORE_MOV_FAULT_ADDR, Table 7-9
def F.coreMovFaultAddr_addr : Fld := ⟨.coreMovFaultAddr, 0, 57, .ro, 0⟩
-- CORE_MM_ACT, Table 3-14
def F.coreMmAct_stepsK : Fld := ⟨.coreMmAct, 0, 32, .rc, 0⟩
def F.coreMmAct_depWait : Fld := ⟨.coreMmAct, 32, 32, .rc, 0⟩
-- CORE_MM_STALL, Table 3-15
def F.coreMmStall_lockWait : Fld := ⟨.coreMmStall, 0, 32, .rc, 0⟩
def F.coreMmStall_noticeWait : Fld := ⟨.coreMmStall, 32, 32, .rc, 0⟩
-- CORE_VEC_ACT, Table 4-9
def F.coreVecAct_instrK : Fld := ⟨.coreVecAct, 0, 32, .rc, 0⟩
def F.coreVecAct_launches : Fld := ⟨.coreVecAct, 32, 32, .rc, 0⟩
-- CORE_VEC_STALL, Table 4-10
def F.coreVecStall_bankPass : Fld := ⟨.coreVecStall, 0, 16, .rc, 0⟩
def F.coreVecStall_icacheMiss : Fld := ⟨.coreVecStall, 16, 16, .rc, 0⟩
def F.coreVecStall_noticeWait : Fld := ⟨.coreVecStall, 32, 32, .rc, 0⟩
-- CORE_UPD_ACT, Table 6-12
def F.coreUpdAct_elemK : Fld := ⟨.coreUpdAct, 0, 32, .rc, 0⟩
def F.coreUpdAct_frozenK : Fld := ⟨.coreUpdAct, 32, 32, .rc, 0⟩
-- CORE_UPD_STALL, Table 6-13
def F.coreUpdStall_bankWait : Fld := ⟨.coreUpdStall, 0, 32, .rc, 0⟩
def F.coreUpdStall_noticeWait : Fld := ⟨.coreUpdStall, 32, 32, .rc, 0⟩
-- CORE_ARITH_FTZ, Table 2-7
def F.coreArithFtz_mmFtz : Fld := ⟨.coreArithFtz, 0, 32, .rc, 0⟩
def F.coreArithFtz_updFtz : Fld := ⟨.coreArithFtz, 32, 32, .rc, 0⟩
-- CORE_ARITH_QUANT, Table 2-8
def F.coreArithQuant_zeroBlocks : Fld := ⟨.coreArithQuant, 0, 32, .rc, 0⟩
def F.coreArithQuant_vanishedElems : Fld := ⟨.coreArithQuant, 32, 32, .rc, 0⟩
-- CORE_ARITH_CONV, Table 2-9
def F.coreArithConv_convSat : Fld := ⟨.coreArithConv, 0, 32, .rc, 0⟩
def F.coreArithConv_nanLost : Fld := ⟨.coreArithConv, 32, 32, .rc, 0⟩
-- CORE_ARITH_STICKY, Table 2-10
def F.coreArithSticky_intOvf : Fld := ⟨.coreArithSticky, 0, 1, .w1c, 0⟩
def F.coreArithSticky_mmNanOut : Fld := ⟨.coreArithSticky, 1, 1, .w1c, 0⟩
def F.coreArithSticky_mmInfOut : Fld := ⟨.coreArithSticky, 2, 1, .w1c, 0⟩
def F.coreArithSticky_ftzAny : Fld := ⟨.coreArithSticky, 3, 1, .w1c, 0⟩
def F.coreArithSticky_updFtzAny : Fld := ⟨.coreArithSticky, 4, 1, .w1c, 0⟩
def F.coreArithSticky_convSatAny : Fld := ⟨.coreArithSticky, 5, 1, .w1c, 0⟩
def F.coreArithSticky_nanLostAny : Fld := ⟨.coreArithSticky, 6, 1, .w1c, 0⟩
def F.coreArithSticky_zeroBlockAny : Fld := ⟨.coreArithSticky, 7, 1, .w1c, 0⟩
def F.coreArithSticky_vanishedAny : Fld := ⟨.coreArithSticky, 8, 1, .w1c, 0⟩
def F.coreArithSticky_nanScaleIn : Fld := ⟨.coreArithSticky, 9, 1, .w1c, 0⟩
-- CORE_ASSAY_CNT, Table 17-11
def F.coreAssayCnt_sampled : Fld := ⟨.coreAssayCnt, 0, 32, .rc, 0⟩
def F.coreAssayCnt_passed : Fld := ⟨.coreAssayCnt, 32, 32, .rc, 0⟩
-- CORE_ASSAY_CNT2, Table 17-11
def F.coreAssayCnt2_skipped : Fld := ⟨.coreAssayCnt2, 0, 16, .rc, 0⟩
def F.coreAssayCnt2_abandoned : Fld := ⟨.coreAssayCnt2, 16, 16, .rc, 0⟩
def F.coreAssayCnt2_served : Fld := ⟨.coreAssayCnt2, 32, 16, .rc, 0⟩
def F.coreAssayCnt2_mismatches : Fld := ⟨.coreAssayCnt2, 48, 16, .rc, 0⟩
-- CORE_ASSAY_LAST, Table 17-11
def F.coreAssayLast_verdict : Fld := ⟨.coreAssayLast, 0, 4, .ro, 0⟩
def F.coreAssayLast_kind : Fld := ⟨.coreAssayLast, 4, 2, .ro, 0⟩
def F.coreAssayLast_abandon : Fld := ⟨.coreAssayLast, 6, 4, .ro, 0⟩
def F.coreAssayLast_witness : Fld := ⟨.coreAssayLast, 10, 13, .ro, 0⟩
def F.coreAssayLast_third : Fld := ⟨.coreAssayLast, 23, 13, .ro, 0⟩
-- CLU_OP, Table 10-9
def F.cluOp_curOp : Fld := ⟨.cluOp, 0, 3, .ro, 3⟩
def F.cluOp_targetOp : Fld := ⟨.cluOp, 3, 3, .ro, 3⟩
def F.cluOp_capOp : Fld := ⟨.cluOp, 6, 3, .ro, 7⟩
def F.cluOp_cause : Fld := ⟨.cluOp, 9, 3, .ro, 0⟩
def F.cluOp_trim : Fld := ⟨.cluOp, 12, 4, .ro, 0⟩
def F.cluOp_fchgBusy : Fld := ⟨.cluOp, 16, 1, .ro, 0⟩
-- CLU_CLK_STAT, Table 10-10
def F.cluClkStat_stretchedK : Fld := ⟨.cluClkStat, 0, 32, .rc, 0⟩
def F.cluClkStat_demotions : Fld := ⟨.cluClkStat, 32, 16, .rc, 0⟩
def F.cluClkStat_droopHolds : Fld := ⟨.cluClkStat, 48, 16, .rc, 0⟩
-- CLU_FCHG, Table 10-11
def F.cluFchg_changes : Fld := ⟨.cluFchg, 0, 16, .rc, 0⟩
def F.cluFchg_lastStop : Fld := ⟨.cluFchg, 16, 16, .ro, 0⟩
def F.cluFchg_maxStop : Fld := ⟨.cluFchg, 32, 16, .rc, 0⟩
def F.cluFchg_aborts : Fld := ⟨.cluFchg, 48, 8, .rc, 0⟩
-- CLU_CLK_STICKY, Table 10-12
def F.cluClkSticky_ftUnsync : Fld := ⟨.cluClkSticky, 0, 1, .w1c, 0⟩
def F.cluClkSticky_droopHold : Fld := ⟨.cluClkSticky, 1, 1, .w1c, 0⟩
def F.cluClkSticky_fchgAbort : Fld := ⟨.cluClkSticky, 2, 1, .w1c, 0⟩
def F.cluClkSticky_ageingCap : Fld := ⟨.cluClkSticky, 3, 1, .w1c, 0⟩
-- PART_UPD_ROW staged W0, Table 6-3
def F.partUpdS0_a1 : Fld := ⟨.partUpdS0, 0, 32, .rw, 0⟩
def F.partUpdS0_b1 : Fld := ⟨.partUpdS0, 32, 32, .rw, 0⟩
-- PART_UPD_ROW staged W1, Table 6-3
def F.partUpdS1_a2 : Fld := ⟨.partUpdS1, 0, 32, .rw, 0⟩
def F.partUpdS1_b2 : Fld := ⟨.partUpdS1, 32, 32, .rw, 0⟩
-- PART_UPD_ROW staged W2, Table 6-3
def F.partUpdS2_c1 : Fld := ⟨.partUpdS2, 0, 32, .rw, 0⟩
def F.partUpdS2_c2 : Fld := ⟨.partUpdS2, 32, 32, .rw, 0⟩
-- PART_UPD_ROW staged W3, Table 6-3
def F.partUpdS3_eps : Fld := ⟨.partUpdS3, 0, 32, .rw, 0⟩
def F.partUpdS3_lam : Fld := ⟨.partUpdS3, 32, 32, .rw, 0⟩
-- PART_UPD_ROW staged W4, Table 6-3
def F.partUpdS4_k1 : Fld := ⟨.partUpdS4, 0, 32, .rw, 0⟩
def F.partUpdS4_eta : Fld := ⟨.partUpdS4, 32, 32, .rw, 0⟩
-- PART_UPD_ROW staged W5, Table 6-3
def F.partUpdS5_t : Fld := ⟨.partUpdS5, 0, 32, .rw, 0⟩
def F.partUpdS5_form1 : Fld := ⟨.partUpdS5, 32, 2, .rw, 0⟩
def F.partUpdS5_form2 : Fld := ⟨.partUpdS5, 34, 2, .rw, 0⟩
def F.partUpdS5_phi : Fld := ⟨.partUpdS5, 36, 2, .rw, 0⟩
def F.partUpdS5_useOld : Fld := ⟨.partUpdS5, 38, 1, .rw, 0⟩
def F.partUpdS5_bias1 : Fld := ⟨.partUpdS5, 39, 1, .rw, 0⟩
def F.partUpdS5_bias2 : Fld := ⟨.partUpdS5, 40, 1, .rw, 0⟩
-- PART_UPD_ROW staged W6, Table 6-3
-- PART_UPD_ROW staged W7, Table 6-3
-- PART_UPD_ROW live W0, Table 6-3
def F.partUpdL0_a1 : Fld := ⟨.partUpdL0, 0, 32, .ro, 0⟩
def F.partUpdL0_b1 : Fld := ⟨.partUpdL0, 32, 32, .ro, 0⟩
-- PART_UPD_ROW live W1, Table 6-3
def F.partUpdL1_a2 : Fld := ⟨.partUpdL1, 0, 32, .ro, 0⟩
def F.partUpdL1_b2 : Fld := ⟨.partUpdL1, 32, 32, .ro, 0⟩
-- PART_UPD_ROW live W2, Table 6-3
def F.partUpdL2_c1 : Fld := ⟨.partUpdL2, 0, 32, .ro, 0⟩
def F.partUpdL2_c2 : Fld := ⟨.partUpdL2, 32, 32, .ro, 0⟩
-- PART_UPD_ROW live W3, Table 6-3
def F.partUpdL3_eps : Fld := ⟨.partUpdL3, 0, 32, .ro, 0⟩
def F.partUpdL3_lam : Fld := ⟨.partUpdL3, 32, 32, .ro, 0⟩
-- PART_UPD_ROW live W4, Table 6-3
def F.partUpdL4_k1 : Fld := ⟨.partUpdL4, 0, 32, .ro, 0⟩
def F.partUpdL4_eta : Fld := ⟨.partUpdL4, 32, 32, .ro, 0⟩
-- PART_UPD_ROW live W5, Table 6-3
def F.partUpdL5_t : Fld := ⟨.partUpdL5, 0, 32, .ro, 0⟩
def F.partUpdL5_form1 : Fld := ⟨.partUpdL5, 32, 2, .ro, 0⟩
def F.partUpdL5_form2 : Fld := ⟨.partUpdL5, 34, 2, .ro, 0⟩
def F.partUpdL5_phi : Fld := ⟨.partUpdL5, 36, 2, .ro, 0⟩
def F.partUpdL5_useOld : Fld := ⟨.partUpdL5, 38, 1, .ro, 0⟩
def F.partUpdL5_bias1 : Fld := ⟨.partUpdL5, 39, 1, .ro, 0⟩
def F.partUpdL5_bias2 : Fld := ⟨.partUpdL5, 40, 1, .ro, 0⟩
-- PART_UPD_ROW live W6, Table 6-3
def F.partUpdL6_c1b : Fld := ⟨.partUpdL6, 0, 32, .ro, 0⟩
def F.partUpdL6_c2b : Fld := ⟨.partUpdL6, 32, 32, .ro, 0⟩
-- PART_UPD_ROW live W7, Table 6-3
def F.partUpdL7_valid : Fld := ⟨.partUpdL7, 0, 1, .ro, 0⟩
-- PART_UPD_COMMIT, Table 6-4
def F.partUpdCommit_rows : Fld := ⟨.partUpdCommit, 0, 16, .rw, 0⟩
def F.partUpdCommit_go : Fld := ⟨.partUpdCommit, 16, 1, .w1s, 0⟩
def F.partUpdCommit_markEn : Fld := ⟨.partUpdCommit, 17, 1, .rw, 0⟩
def F.partUpdCommit_mark : Fld := ⟨.partUpdCommit, 20, 12, .rw, 0⟩
def F.partUpdCommit_status : Fld := ⟨.partUpdCommit, 32, 3, .ro, 0⟩
def F.partUpdCommit_badRow : Fld := ⟨.partUpdCommit, 36, 4, .ro, 0⟩
def F.partUpdCommit_pending : Fld := ⟨.partUpdCommit, 40, 1, .ro, 0⟩
-- PART_UPD_COMMIT_FT, Table 6-5
def F.partUpdCommitFt_commitFt : Fld := ⟨.partUpdCommitFt, 0, 64, .rw, 0⟩
-- PART_XLT_REQ (copy 0 PF0, 1 VF), Table 7-10
def F.partXltReq_op : Fld := ⟨.partXltReq, 0, 3, .rw, 0⟩
def F.partXltReq_go : Fld := ⟨.partXltReq, 3, 1, .w1s, 0⟩
def F.partXltReq_status : Fld := ⟨.partXltReq, 4, 4, .ro, 0⟩
def F.partXltReq_number : Fld := ⟨.partXltReq, 8, 6, .rw, 0⟩
-- PART_XLT_ARG word 0 (copy 0 PF0, 1 VF), Table 7-11
def F.partXltArg0_root : Fld := ⟨.partXltArg0, 0, 52, .rw, 0⟩
-- PART_XLT_ARG word 1 (copy 0 PF0, 1 VF), Table 7-11
def F.partXltArg1_capacity : Fld := ⟨.partXltArg1, 0, 21, .rw, 0⟩
def F.partXltArg1_pageShift : Fld := ⟨.partXltArg1, 21, 5, .rw, 0⟩
def F.partXltArg1_tokenRowsM1 : Fld := ⟨.partXltArg1, 26, 7, .rw, 0⟩
def F.partXltArg1_length : Fld := ⟨.partXltArg1, 33, 31, .rw, 0⟩
-- PART_XLT_INV, Table 7-12
def F.partXltInv_ctx : Fld := ⟨.partXltInv, 0, 6, .rw, 0⟩
def F.partXltInv_all : Fld := ⟨.partXltInv, 6, 1, .rw, 0⟩
def F.partXltInv_go : Fld := ⟨.partXltInv, 7, 1, .w1s, 0⟩
-- PART_SEQ_LEN, Table 7-13
def F.partSeqLen_length : Fld := ⟨.partSeqLen, 0, 32, .ro, 0⟩
def F.partSeqLen_allocated : Fld := ⟨.partSeqLen, 32, 1, .ro, 0⟩
-- PART_MEM_CORR, Table 7-14
def F.partMemCorr_cmCorr : Fld := ⟨.partMemCorr, 0, 32, .rc, 0⟩
def F.partMemCorr_smCorr : Fld := ⟨.partMemCorr, 32, 32, .rc, 0⟩
-- PART_MEM_UNCORR, Table 7-14
def F.partMemUncorr_cmUnc : Fld := ⟨.partMemUncorr, 0, 16, .rc, 0⟩
def F.partMemUncorr_smUnc : Fld := ⟨.partMemUncorr, 16, 16, .rc, 0⟩
def F.partMemUncorr_rdcRefetch : Fld := ⟨.partMemUncorr, 32, 16, .rc, 0⟩
-- PART_MEM_REPAIR, Table 7-15
def F.partMemRepair_smSpareMin : Fld := ⟨.partMemRepair, 0, 13, .ro, 0⟩
def F.partMemRepair_smWorstSlice : Fld := ⟨.partMemRepair, 13, 8, .ro, 0⟩
def F.partMemRepair_cmSpareMin : Fld := ⟨.partMemRepair, 21, 7, .ro, 0⟩
def F.partMemRepair_cmWorstCore : Fld := ⟨.partMemRepair, 28, 10, .ro, 0⟩
def F.partMemRepair_pending : Fld := ⟨.partMemRepair, 38, 1, .ro, 0⟩
-- PART_RING_RESET, Table 7-15
def F.partRingReset_ring : Fld := ⟨.partRingReset, 0, 12, .rw, 0⟩
def F.partRingReset_go : Fld := ⟨.partRingReset, 31, 1, .w1s, 0⟩
-- PART_TALLY_BASE, Table 8-12
def F.partTallyBase_dpa : Fld := ⟨.partTallyBase, 9, 43, .rw, 0⟩
def F.partTallyBase_sizeLog2 : Fld := ⟨.partTallyBase, 52, 5, .rw, 0⟩
-- PART_TALLY_WR, Table 8-12
def F.partTallyWr_wr : Fld := ⟨.partTallyWr, 0, 32, .ro, 0⟩
def F.partTallyWr_lost : Fld := ⟨.partTallyWr, 32, 32, .rc, 0⟩
-- PART_TALLY_RD, Table 8-12
def F.partTallyRd_rd : Fld := ⟨.partTallyRd, 0, 32, .rw, 0⟩
def F.partTallyRd_level : Fld := ⟨.partTallyRd, 32, 32, .rw, 0⟩
-- PART_TALLY_CTRL, Table 8-12
def F.partTallyCtrl_faultRing : Fld := ⟨.partTallyCtrl, 0, 3, .rw, 0⟩
-- PART_CE_LAND W0, Table 13-8
def F.partCeLand0_booking : Fld := ⟨.partCeLand0, 0, 12, .rw, 0⟩
def F.partCeLand0_valid : Fld := ⟨.partCeLand0, 12, 1, .rw, 0⟩
def F.partCeLand0_slots : Fld := ⟨.partCeLand0, 13, 4, .rw, 0⟩
def F.partCeLand0_slotRows : Fld := ⟨.partCeLand0, 17, 16, .rw, 0⟩
def F.partCeLand0_full : Fld := ⟨.partCeLand0, 33, 5, .ro, 0⟩
-- PART_CE_LAND W1, Table 13-8
def F.partCeLand1_dpa : Fld := ⟨.partCeLand1, 9, 43, .rw, 0⟩
-- PART_CE_STAT, Table 13-9
def F.partCeStat_late : Fld := ⟨.partCeStat, 0, 16, .rc, 0⟩
def F.partCeStat_dropped : Fld := ⟨.partCeStat, 16, 16, .rc, 0⟩
def F.partCeStat_discards : Fld := ⟨.partCeStat, 32, 16, .rc, 0⟩
def F.partCeStat_nanVotes : Fld := ⟨.partCeStat, 48, 8, .rc, 0⟩
def F.partCeStat_convSat : Fld := ⟨.partCeStat, 56, 8, .rc, 0⟩
-- PART_CE_ERR, Table 13-10
def F.partCeErr_lastCode : Fld := ⟨.partCeErr, 0, 8, .ro, 0⟩
def F.partCeErr_subcode : Fld := ⟨.partCeErr, 8, 8, .ro, 0⟩
def F.partCeErr_child : Fld := ⟨.partCeErr, 16, 4, .ro, 0⟩
def F.partCeErr_errCount : Fld := ⟨.partCeErr, 32, 32, .rc, 0⟩
-- PART_MARK, Table 8-8
def F.partMark_value : Fld := ⟨.partMark, 0, 64, .rw, 0⟩
-- PART_MARK_ADD, Table 8-8
def F.partMarkAdd_add : Fld := ⟨.partMarkAdd, 0, 64, .wo, 0⟩
-- PART_NET_ROUTER, Table 11-7
def F.partNetRouter_failed : Fld := ⟨.partNetRouter, 0, 36, .ro, 0⟩
-- PART_NET_ERR, Table 11-9
def F.partNetErr_nacks : Fld := ⟨.partNetErr, 0, 16, .rc, 0⟩
def F.partNetErr_resent : Fld := ⟨.partNetErr, 16, 16, .rc, 0⟩
def F.partNetErr_bellCorr : Fld := ⟨.partNetErr, 32, 16, .rc, 0⟩
def F.partNetErr_bellRetry : Fld := ⟨.partNetErr, 48, 16, .rc, 0⟩
-- PART_NET_STICKY, Table 11-10
def F.partNetSticky_routerFail : Fld := ⟨.partNetSticky, 0, 1, .w1c, 0⟩
def F.partNetSticky_d2dHalf : Fld := ⟨.partNetSticky, 1, 1, .w1c, 0⟩
def F.partNetSticky_d2dDown : Fld := ⟨.partNetSticky, 2, 1, .w1c, 0⟩
def F.partNetSticky_routeDegraded : Fld := ⟨.partNetSticky, 3, 1, .w1c, 0⟩
def F.partNetSticky_bellFail : Fld := ⟨.partNetSticky, 4, 1, .w1c, 0⟩
def F.partNetSticky_transitHold : Fld := ⟨.partNetSticky, 5, 1, .w1c, 0⟩
-- PART_D2D_LINK, Table 11-8
def F.partD2dLink_state : Fld := ⟨.partD2dLink, 0, 2, .ro, 0⟩
def F.partD2dLink_spared : Fld := ⟨.partD2dLink, 2, 6, .ro, 0⟩
def F.partD2dLink_failed : Fld := ⟨.partD2dLink, 8, 8, .ro, 0⟩
def F.partD2dLink_retrains : Fld := ⟨.partD2dLink, 16, 16, .rc, 0⟩
def F.partD2dLink_crcErr : Fld := ⟨.partD2dLink, 32, 32, .rc, 0⟩
-- PART_NET_FENCE, Table 11-7
def F.partNetFence_fenced : Fld := ⟨.partNetFence, 0, 64, .ro, 0⟩
-- PART_PWR_BANK, Table 16-10
def F.partPwrBank_phasesOk : Fld := ⟨.partPwrBank, 0, 5, .ro, 24⟩
def F.partPwrBank_current : Fld := ⟨.partPwrBank, 16, 16, .ro, 0⟩
def F.partPwrBank_powerW : Fld := ⟨.partPwrBank, 32, 16, .ro, 0⟩
-- PART_PWR_ENERGY, Table 16-10
def F.partPwrEnergy_bankUj : Fld := ⟨.partPwrEnergy, 0, 64, .ro, 0⟩
-- PART_PWR_SLACK, Table 16-10
def F.partPwrSlack_slack : Fld := ⟨.partPwrSlack, 0, 32, .ro, 0⟩
def F.partPwrSlack_phase : Fld := ⟨.partPwrSlack, 32, 6, .ro, 0⟩
-- PART_PWR_GATE, Table 16-10
def F.partPwrGate_gateEn : Fld := ⟨.partPwrGate, 0, 1, .rw, 0⟩
def F.partPwrGate_idleUs : Fld := ⟨.partPwrGate, 16, 16, .rw, 0x64⟩
def F.partPwrGate_switchOns : Fld := ⟨.partPwrGate, 32, 32, .rc, 0⟩
-- PART_PWR_ZONE, Table 16-11
def F.partPwrZone_current : Fld := ⟨.partPwrZone, 0, 16, .ro, 0⟩
def F.partPwrZone_phases : Fld := ⟨.partPwrZone, 16, 3, .ro, 4⟩
def F.partPwrZone_deferrals : Fld := ⟨.partPwrZone, 32, 16, .rc, 0⟩
def F.partPwrZone_forced : Fld := ⟨.partPwrZone, 48, 16, .rc, 0⟩
-- PART_PWR_STICKY, Table 16-11
def F.partPwrSticky_vrPhaseLoss : Fld := ⟨.partPwrSticky, 0, 1, .w1c, 0⟩
def F.partPwrSticky_clusterDark : Fld := ⟨.partPwrSticky, 1, 1, .w1c, 0⟩
def F.partPwrSticky_convPhaseLoss : Fld := ⟨.partPwrSticky, 2, 1, .w1c, 0⟩
def F.partPwrSticky_forcedCap : Fld := ⟨.partPwrSticky, 3, 1, .w1c, 0⟩
def F.partPwrSticky_thermalThrottle : Fld := ⟨.partPwrSticky, 4, 1, .w1c, 0⟩
-- PART_PWR_CLU, Table 16-11
def F.partPwrClu_phasesOk : Fld := ⟨.partPwrClu, 0, 8, .ro, 255⟩
def F.partPwrClu_state : Fld := ⟨.partPwrClu, 8, 2, .ro, 2⟩
def F.partPwrClu_op5Cap : Fld := ⟨.partPwrClu, 10, 1, .ro, 0⟩
def F.partPwrClu_vout : Fld := ⟨.partPwrClu, 16, 16, .ro, 0⟩
def F.partPwrClu_droops : Fld := ⟨.partPwrClu, 32, 16, .rc, 0⟩
def F.partPwrClu_temp : Fld := ⟨.partPwrClu, 48, 16, .ro, 0⟩
-- PART_ASSAY_CTRL, Table 17-12
def F.partAssayCtrl_assayWait : Fld := ⟨.partAssayCtrl, 0, 32, .rw, 0x989680⟩
-- PART_ASSAY_STAT, Table 17-12
def F.partAssayStat_transient : Fld := ⟨.partAssayStat, 0, 16, .rc, 0⟩
def F.partAssayStat_permanent : Fld := ⟨.partAssayStat, 16, 16, .rc, 0⟩
def F.partAssayStat_witness : Fld := ⟨.partAssayStat, 32, 16, .rc, 0⟩
def F.partAssayStat_unresolved : Fld := ⟨.partAssayStat, 48, 16, .rc, 0⟩
-- PART_ERR_STICKY, Table 17-12
def F.partErrSticky_coreErr : Fld := ⟨.partErrSticky, 0, 1, .w1c, 0⟩
def F.partErrSticky_smUnc : Fld := ⟨.partErrSticky, 1, 1, .w1c, 0⟩
def F.partErrSticky_smSpareOut : Fld := ⟨.partErrSticky, 2, 1, .w1c, 0⟩
def F.partErrSticky_ceUnc : Fld := ⟨.partErrSticky, 3, 1, .w1c, 0⟩
def F.partErrSticky_xltUnc : Fld := ⟨.partErrSticky, 4, 1, .w1c, 0⟩
def F.partErrSticky_retired : Fld := ⟨.partErrSticky, 5, 1, .w1c, 0⟩
-- PART_ERR_FIRST, Table 17-12
def F.partErrFirst_ft : Fld := ⟨.partErrFirst, 0, 64, .ro, 0⟩
-- PART_ERR_FIRST_INFO, Table 17-12
def F.partErrFirstInfo_bit : Fld := ⟨.partErrFirstInfo, 0, 5, .ro, 0⟩
def F.partErrFirstInfo_valid : Fld := ⟨.partErrFirstInfo, 5, 1, .w1c, 0⟩
def F.partErrFirstInfo_core : Fld := ⟨.partErrFirstInfo, 6, 10, .ro, 0⟩
-- PART_RST, Table 18-10
def F.partRst_kind : Fld := ⟨.partRst, 0, 2, .rw, 0⟩
def F.partRst_target : Fld := ⟨.partRst, 2, 10, .rw, 0⟩
def F.partRst_go : Fld := ⟨.partRst, 12, 1, .w1s, 0⟩
def F.partRst_busy : Fld := ⟨.partRst, 13, 1, .ro, 0⟩
def F.partRst_refused : Fld := ⟨.partRst, 14, 1, .ro, 0⟩
def F.partRst_lastUs : Fld := ⟨.partRst, 32, 16, .ro, 0⟩
-- PART_RST_STAT, Table 18-10
def F.partRstStat_discarded : Fld := ⟨.partRstStat, 0, 16, .rc, 0⟩
def F.partRstStat_absorbed : Fld := ⟨.partRstStat, 16, 16, .rc, 0⟩
def F.partRstStat_resets : Fld := ⟨.partRstStat, 32, 16, .rc, 0⟩
-- HBM_ECC, Table 7-16
def F.hbmEcc_corr : Fld := ⟨.hbmEcc, 0, 32, .rc, 0⟩
def F.hbmEcc_unc : Fld := ⟨.hbmEcc, 32, 16, .rc, 0⟩
def F.hbmEcc_pprFree : Fld := ⟨.hbmEcc, 48, 8, .ro, 0⟩
-- LAMP_STATE, Table 14-3
def F.lampState_present : Fld := ⟨.lampState, 0, 1, .ro, 0⟩
def F.lampState_state : Fld := ⟨.lampState, 1, 3, .ro, 0⟩
def F.lampState_verified : Fld := ⟨.lampState, 4, 1, .ro, 0⟩
def F.lampState_unverifiedRun : Fld := ⟨.lampState, 5, 1, .ro, 0⟩
def F.lampState_cause : Fld := ⟨.lampState, 8, 8, .ro, 0⟩
def F.lampState_caseTemp : Fld := ⟨.lampState, 16, 16, .ro, 0⟩
def F.lampState_inserts : Fld := ⟨.lampState, 32, 16, .rc, 0⟩
-- LAMP_CTRL, Table 14-4
def F.lampCtrl_allowUnverified : Fld := ⟨.lampCtrl, 0, 1, .rw, 0⟩
def F.lampCtrl_eject : Fld := ⟨.lampCtrl, 1, 1, .w1s, 0⟩
-- LAMP_ID serial, Table 14-5
def F.lampSerial_serial : Fld := ⟨.lampSerial, 0, 64, .ro, 0⟩
-- LAMP_ID part_number, Table 14-5
def F.lampPart_partNumber : Fld := ⟨.lampPart, 0, 64, .ro, 0⟩
-- LAMP_ID date, Table 14-5
def F.lampDate_year : Fld := ⟨.lampDate, 0, 16, .ro, 0⟩
def F.lampDate_week : Fld := ⟨.lampDate, 16, 8, .ro, 0⟩
-- LAMP_STICKY, Table 14-5
def F.lampSticky_verifyFail : Fld := ⟨.lampSticky, 0, 1, .w1c, 0⟩
def F.lampSticky_switch : Fld := ⟨.lampSticky, 1, 1, .w1c, 0⟩
def F.lampSticky_eol : Fld := ⟨.lampSticky, 2, 1, .w1c, 0⟩
def F.lampSticky_wlDark : Fld := ⟨.lampSticky, 3, 1, .w1c, 0⟩
def F.lampSticky_surprise : Fld := ⟨.lampSticky, 4, 1, .w1c, 0⟩
-- LAMP_LASER W0, Table 14-6
def F.lampLaser0_state : Fld := ⟨.lampLaser0, 0, 2, .ro, 0⟩
def F.lampLaser0_eolHours : Fld := ⟨.lampLaser0, 2, 1, .ro, 0⟩
def F.lampLaser0_eolBias : Fld := ⟨.lampLaser0, 3, 1, .ro, 0⟩
def F.lampLaser0_bias : Fld := ⟨.lampLaser0, 8, 16, .ro, 0⟩
def F.lampLaser0_power : Fld := ⟨.lampLaser0, 24, 16, .ro, 0⟩
-- LAMP_LASER W1, Table 14-6
def F.lampLaser1_hours : Fld := ⟨.lampLaser1, 0, 24, .ro, 0⟩
def F.lampLaser1_biasInit : Fld := ⟨.lampLaser1, 24, 16, .ro, 0⟩
-- VX_PORT_STATE, Table 12-14
def F.vxPortState_state : Fld := ⟨.vxPortState, 0, 3, .ro, 0⟩
def F.vxPortState_trusted : Fld := ⟨.vxPortState, 3, 1, .ro, 0⟩
def F.vxPortState_cached : Fld := ⟨.vxPortState, 4, 1, .ro, 0⟩
def F.vxPortState_locked : Fld := ⟨.vxPortState, 8, 8, .ro, 0⟩
def F.vxPortState_downs : Fld := ⟨.vxPortState, 16, 16, .rc, 0⟩
-- VX_PORT_CTRL, Table 12-14
def F.vxPortCtrl_enable : Fld := ⟨.vxPortCtrl, 0, 1, .rw, 1⟩
def F.vxPortCtrl_edge : Fld := ⟨.vxPortCtrl, 1, 1, .rw, 0⟩
-- VX_PORT_PEER, Table 12-14
def F.vxPortPeer_peerSerial : Fld := ⟨.vxPortPeer, 0, 64, .ro, 0⟩
-- VX_PORT_PEER_ID, Table 12-14
def F.vxPortPeerId_peerId : Fld := ⟨.vxPortPeerId, 0, 17, .ro, 0⟩
def F.vxPortPeerId_peerIdValid : Fld := ⟨.vxPortPeerId, 17, 1, .ro, 0⟩
def F.vxPortPeerId_peerPort : Fld := ⟨.vxPortPeerId, 18, 6, .ro, 0⟩
-- VX_PORT_DELAY, Table 12-14
def F.vxPortDelay_delay : Fld := ⟨.vxPortDelay, 0, 16, .ro, 0⟩
-- VX_PORT_ERR, Table 12-14
def F.vxPortErr_fecCorr : Fld := ⟨.vxPortErr, 0, 32, .rc, 0⟩
def F.vxPortErr_fecUnc : Fld := ⟨.vxPortErr, 32, 16, .rc, 0⟩
def F.vxPortErr_resends : Fld := ⟨.vxPortErr, 48, 16, .rc, 0⟩
-- VX_PORT_CAL, Table 12-14
def F.vxPortCal_booking : Fld := ⟨.vxPortCal, 0, 12, .rw, 0⟩
def F.vxPortCal_valid : Fld := ⟨.vxPortCal, 12, 1, .rw, 0⟩
-- HF_LAYOUT_SRC, Table 9-16
def F.hfLayoutSrc_dpa : Fld := ⟨.hfLayoutSrc, 9, 32, .rw, 0⟩
-- HF_LAYOUT_LEN, Table 9-16
def F.hfLayoutLen_len : Fld := ⟨.hfLayoutLen, 0, 27, .rw, 0⟩
-- HF_LAYOUT_CMD, Table 9-16
def F.hfLayoutCmd_load : Fld := ⟨.hfLayoutCmd, 0, 1, .w1s, 0⟩
def F.hfLayoutCmd_swap : Fld := ⟨.hfLayoutCmd, 1, 1, .w1s, 0⟩
def F.hfLayoutCmd_cancel : Fld := ⟨.hfLayoutCmd, 2, 1, .w1s, 0⟩
def F.hfLayoutCmd_fallback : Fld := ⟨.hfLayoutCmd, 3, 1, .rw, 0⟩
-- HF_LAYOUT_SWAP_FT, Table 9-16
def F.hfLayoutSwapFt_swapFt : Fld := ⟨.hfLayoutSwapFt, 0, 64, .rw, 0⟩
-- HF_LAYOUT_STATUS, Table 9-17
def F.hfLayoutStatus_loadCode : Fld := ⟨.hfLayoutStatus, 0, 8, .ro, 0⟩
def F.hfLayoutStatus_loadSection : Fld := ⟨.hfLayoutStatus, 8, 8, .ro, 0⟩
def F.hfLayoutStatus_loadRecord : Fld := ⟨.hfLayoutStatus, 16, 16, .ro, 0⟩
def F.hfLayoutStatus_swapCode : Fld := ⟨.hfLayoutStatus, 32, 8, .ro, 0⟩
def F.hfLayoutStatus_standby : Fld := ⟨.hfLayoutStatus, 40, 2, .ro, 0⟩
def F.hfLayoutStatus_swapPending : Fld := ⟨.hfLayoutStatus, 42, 1, .ro, 0⟩
def F.hfLayoutStatus_activeValid : Fld := ⟨.hfLayoutStatus, 43, 1, .ro, 0⟩
def F.hfLayoutStatus_activeDebug : Fld := ⟨.hfLayoutStatus, 44, 1, .ro, 0⟩
def F.hfLayoutStatus_activeSweep : Fld := ⟨.hfLayoutStatus, 45, 1, .ro, 0⟩
def F.hfLayoutStatus_exhausted : Fld := ⟨.hfLayoutStatus, 46, 1, .ro, 0⟩
def F.hfLayoutStatus_lastCause : Fld := ⟨.hfLayoutStatus, 47, 2, .ro, 0⟩
def F.hfLayoutStatus_hbmFixed : Fld := ⟨.hfLayoutStatus, 49, 1, .ro, 0⟩
def F.hfLayoutStatus_hbmMode : Fld := ⟨.hfLayoutStatus, 50, 1, .ro, 0⟩
-- HF_LAYOUT_ID active_id, Table 9-18
def F.hfLayoutIdActive_activeId : Fld := ⟨.hfLayoutIdActive, 0, 64, .ro, 0⟩
-- HF_LAYOUT_ID standby_id, Table 9-18
def F.hfLayoutIdStandby_standbyId : Fld := ⟨.hfLayoutIdStandby, 0, 64, .ro, 0⟩
-- HF_LAYOUT_ORIGIN, Table 9-18
def F.hfLayoutOrigin_origin : Fld := ⟨.hfLayoutOrigin, 0, 64, .ro, 0⟩
-- HF_LAYOUT_HASH active, Table 9-18
def F.hfLayoutHashActive_activeHash : Fld := ⟨.hfLayoutHashActive, 0, 64, .ro, 0⟩
-- HF_LAYOUT_HASH standby, Table 9-18
def F.hfLayoutHashStandby_standbyHash : Fld := ⟨.hfLayoutHashStandby, 0, 64, .ro, 0⟩
-- HF_LAYOUT_SWAP_TIME, Table 9-18
def F.hfLayoutSwapTime_lastNs : Fld := ⟨.hfLayoutSwapTime, 0, 32, .ro, 0⟩
def F.hfLayoutSwapTime_swaps : Fld := ⟨.hfLayoutSwapTime, 32, 32, .rc, 0⟩
-- HF_BENCH_STATE, Table 9-19
def F.hfBenchState_pillarsFree : Fld := ⟨.hfBenchState, 0, 13, .ro, 0⟩
def F.hfBenchState_exhausted : Fld := ⟨.hfBenchState, 13, 1, .ro, 0⟩
def F.hfBenchState_takeovers : Fld := ⟨.hfBenchState, 32, 16, .ro, 0⟩
-- HF_FT, Table 10-6
def F.hfFt_ft : Fld := ⟨.hfFt, 0, 64, .ro, 0⟩
-- HF_FT_CTRL, Table 10-6
def F.hfFtCtrl_refEn : Fld := ⟨.hfFtCtrl, 0, 1, .rw, 0⟩
def F.hfFtCtrl_stepEn : Fld := ⟨.hfFtCtrl, 1, 1, .rw, 1⟩
def F.hfFtCtrl_masterOk : Fld := ⟨.hfFtCtrl, 2, 1, .rw, 1⟩
def F.hfFtCtrl_priority : Fld := ⟨.hfFtCtrl, 8, 8, .rw, 0x80⟩
-- HF_FT_STATUS, Table 10-7
def F.hfFtStatus_state : Fld := ⟨.hfFtStatus, 0, 3, .ro, 0⟩
def F.hfFtStatus_aligned : Fld := ⟨.hfFtStatus, 3, 1, .ro, 0⟩
def F.hfFtStatus_sysScope : Fld := ⟨.hfFtStatus, 4, 1, .ro, 0⟩
def F.hfFtStatus_ppsReject : Fld := ⟨.hfFtStatus, 8, 8, .rc, 0⟩
def F.hfFtStatus_errEst : Fld := ⟨.hfFtStatus, 16, 16, .ro, 0⟩
def F.hfFtStatus_masterId : Fld := ⟨.hfFtStatus, 32, 17, .ro, 0⟩
-- HF_FT_MASTER, Table 10-7
def F.hfFtMaster_masterSerial : Fld := ⟨.hfFtMaster, 0, 64, .ro, 0⟩
-- HF_FT_PPS, Table 10-6
def F.hfFtPps_ppsValue : Fld := ⟨.hfFtPps, 0, 64, .rw, 0⟩
-- HF_SHIFT, Table 10-8
def F.hfShift_shift : Fld := ⟨.hfShift, 0, 48, .ro, 0⟩
def F.hfShift_phase : Fld := ⟨.hfShift, 48, 6, .ro, 0⟩
def F.hfShift_open : Fld := ⟨.hfShift, 54, 1, .ro, 0⟩
-- HF_SCHED_TALLY, Table 10-8
def F.hfSchedTally_shiftEn : Fld := ⟨.hfSchedTally, 0, 1, .rw, 0⟩
def F.hfSchedTally_phaseEn : Fld := ⟨.hfSchedTally, 1, 1, .rw, 0⟩
def F.hfSchedTally_ring : Fld := ⟨.hfSchedTally, 2, 3, .rw, 0⟩
-- HF_VX_ID, Table 12-11
def F.hfVxId_id : Fld := ⟨.hfVxId, 0, 17, .rw, 0⟩
def F.hfVxId_idValid : Fld := ⟨.hfVxId, 17, 1, .rw, 0⟩
def F.hfVxId_idRefused : Fld := ⟨.hfVxId, 18, 1, .ro, 0⟩
-- HF_VX_SERIAL, Table 12-11
def F.hfVxSerial_serial : Fld := ⟨.hfVxSerial, 0, 64, .ro, 0⟩
-- HF_VX_CTRL, Table 12-11
def F.hfVxCtrl_allowUntrusted : Fld := ⟨.hfVxCtrl, 0, 1, .rw, 0⟩
def F.hfVxCtrl_floodEn : Fld := ⟨.hfVxCtrl, 1, 1, .rw, 1⟩
-- HF_VX_STAT, Table 12-11
def F.hfVxStat_lsdbEntries : Fld := ⟨.hfVxStat, 0, 16, .ro, 0⟩
def F.hfVxStat_noRoute : Fld := ⟨.hfVxStat, 16, 16, .rc, 0⟩
def F.hfVxStat_ttlDrop : Fld := ⟨.hfVxStat, 32, 16, .rc, 0⟩
def F.hfVxStat_lsdbFull : Fld := ⟨.hfVxStat, 48, 16, .rc, 0⟩
-- HF_VX_MEMBER_RT, Table 12-12
def F.hfVxMemberRt_port0 : Fld := ⟨.hfVxMemberRt, 0, 6, .rw, 0⟩
def F.hfVxMemberRt_v0 : Fld := ⟨.hfVxMemberRt, 6, 1, .rw, 0⟩
def F.hfVxMemberRt_port1 : Fld := ⟨.hfVxMemberRt, 7, 6, .rw, 0⟩
def F.hfVxMemberRt_v1 : Fld := ⟨.hfVxMemberRt, 13, 1, .rw, 0⟩
def F.hfVxMemberRt_port2 : Fld := ⟨.hfVxMemberRt, 14, 6, .rw, 0⟩
def F.hfVxMemberRt_v2 : Fld := ⟨.hfVxMemberRt, 20, 1, .rw, 0⟩
def F.hfVxMemberRt_port3 : Fld := ⟨.hfVxMemberRt, 21, 6, .rw, 0⟩
def F.hfVxMemberRt_v3 : Fld := ⟨.hfVxMemberRt, 27, 1, .rw, 0⟩
def F.hfVxMemberRt_hash : Fld := ⟨.hfVxMemberRt, 28, 1, .rw, 0⟩
-- HF_VX_DISTRICT_RT, Table 12-12
def F.hfVxDistrictRt_port0 : Fld := ⟨.hfVxDistrictRt, 0, 6, .rw, 0⟩
def F.hfVxDistrictRt_v0 : Fld := ⟨.hfVxDistrictRt, 6, 1, .rw, 0⟩
def F.hfVxDistrictRt_port1 : Fld := ⟨.hfVxDistrictRt, 7, 6, .rw, 0⟩
def F.hfVxDistrictRt_v1 : Fld := ⟨.hfVxDistrictRt, 13, 1, .rw, 0⟩
def F.hfVxDistrictRt_port2 : Fld := ⟨.hfVxDistrictRt, 14, 6, .rw, 0⟩
def F.hfVxDistrictRt_v2 : Fld := ⟨.hfVxDistrictRt, 20, 1, .rw, 0⟩
def F.hfVxDistrictRt_port3 : Fld := ⟨.hfVxDistrictRt, 21, 6, .rw, 0⟩
def F.hfVxDistrictRt_v3 : Fld := ⟨.hfVxDistrictRt, 27, 1, .rw, 0⟩
def F.hfVxDistrictRt_hash : Fld := ⟨.hfVxDistrictRt, 28, 1, .rw, 0⟩
-- HF_VX_BOOK W0, Table 12-13
def F.hfVxBook0_state : Fld := ⟨.hfVxBook0, 0, 2, .ro, 0⟩
def F.hfVxBook0_role : Fld := ⟨.hfVxBook0, 2, 2, .rw, 0⟩
def F.hfVxBook0_activate : Fld := ⟨.hfVxBook0, 4, 1, .w1s, 0⟩
def F.hfVxBook0_revoke : Fld := ⟨.hfVxBook0, 5, 1, .w1s, 0⟩
def F.hfVxBook0_inPort : Fld := ⟨.hfVxBook0, 8, 6, .rw, 0⟩
def F.hfVxBook0_outPort : Fld := ⟨.hfVxBook0, 14, 6, .rw, 0⟩
def F.hfVxBook0_nextIndex : Fld := ⟨.hfVxBook0, 20, 12, .rw, 0⟩
def F.hfVxBook0_prevIndex : Fld := ⟨.hfVxBook0, 32, 12, .rw, 0⟩
def F.hfVxBook0_shift : Fld := ⟨.hfVxBook0, 44, 12, .rw, 0⟩
def F.hfVxBook0_part : Fld := ⟨.hfVxBook0, 56, 3, .rw, 0⟩
-- HF_VX_BOOK W1, Table 12-13
def F.hfVxBook1_pathLat : Fld := ⟨.hfVxBook1, 0, 16, .ro, 0⟩
def F.hfVxBook1_hops : Fld := ⟨.hfVxBook1, 16, 4, .ro, 0⟩
def F.hfVxBook1_cause : Fld := ⟨.hfVxBook1, 20, 8, .ro, 0⟩
-- HF_VX_BOOK W2, Table 12-13
def F.hfVxBook2_xferOk : Fld := ⟨.hfVxBook2, 0, 32, .rc, 0⟩
def F.hfVxBook2_xferRevoked : Fld := ⟨.hfVxBook2, 32, 32, .rc, 0⟩
-- HF_VX_BOOK W3, Table 12-13
-- HF_HOST_LINK, Table 15-9
def F.hfHostLink_rate : Fld := ⟨.hfHostLink, 0, 2, .ro, 0⟩
def F.hfHostLink_width : Fld := ⟨.hfHostLink, 2, 2, .ro, 0⟩
def F.hfHostLink_lopt : Fld := ⟨.hfHostLink, 4, 1, .ro, 0⟩
def F.hfHostLink_hdmCommitted : Fld := ⟨.hfHostLink, 5, 1, .ro, 0⟩
def F.hfHostLink_vfs : Fld := ⟨.hfHostLink, 6, 4, .ro, 0⟩
-- HF_HOST_ERR, Table 15-9
def F.hfHostErr_badAccess : Fld := ⟨.hfHostErr, 0, 16, .rc, 0⟩
def F.hfHostErr_denied : Fld := ⟨.hfHostErr, 16, 16, .rc, 0⟩
def F.hfHostErr_ca : Fld := ⟨.hfHostErr, 32, 16, .rc, 0⟩
def F.hfHostErr_poison : Fld := ⟨.hfHostErr, 48, 16, .rc, 0⟩
-- HF_HOST_ERRLOG, Table 15-10
def F.hfHostErrlog_addr : Fld := ⟨.hfHostErrlog, 0, 48, .ro, 0⟩
def F.hfHostErrlog_func : Fld := ⟨.hfHostErrlog, 48, 4, .ro, 0⟩
def F.hfHostErrlog_kind : Fld := ⟨.hfHostErrlog, 52, 3, .ro, 0⟩
def F.hfHostErrlog_space : Fld := ⟨.hfHostErrlog, 55, 1, .ro, 0⟩
def F.hfHostErrlog_valid : Fld := ⟨.hfHostErrlog, 63, 1, .w1c, 0⟩
-- HF_HOST_IDE, Table 15-11
def F.hfHostIde_require : Fld := ⟨.hfHostIde, 0, 1, .rw, 0⟩
def F.hfHostIde_linkSecure : Fld := ⟨.hfHostIde, 1, 1, .ro, 0⟩
def F.hfHostIde_selSecure : Fld := ⟨.hfHostIde, 2, 8, .ro, 0⟩
def F.hfHostIde_cmSecure : Fld := ⟨.hfHostIde, 10, 1, .ro, 0⟩
-- HF_HDM_SF, Table 15-11
def F.hfHdmSf_tracked : Fld := ⟨.hfHdmSf, 0, 22, .ro, 0⟩
def F.hfHdmSf_bisnpK : Fld := ⟨.hfHdmSf, 32, 16, .rc, 0⟩
def F.hfHdmSf_bisnpTimeout : Fld := ⟨.hfHdmSf, 48, 16, .rc, 0⟩
-- HF_INT_MAP, Table 15-12
def F.hfIntMap_vector : Fld := ⟨.hfIntMap, 0, 11, .rw, 0⟩
def F.hfIntMap_func : Fld := ⟨.hfIntMap, 11, 4, .rw, 0⟩
def F.hfIntMap_en : Fld := ⟨.hfIntMap, 15, 1, .rw, 0⟩
def F.hfIntMap_mapErr : Fld := ⟨.hfIntMap, 16, 1, .ro, 0⟩
-- HF_MBOX_CMD, Table 15-12
def F.hfMboxCmd_opcode : Fld := ⟨.hfMboxCmd, 0, 16, .rw, 0⟩
def F.hfMboxCmd_go : Fld := ⟨.hfMboxCmd, 16, 1, .w1s, 0⟩
def F.hfMboxCmd_useHost : Fld := ⟨.hfMboxCmd, 17, 1, .rw, 0⟩
def F.hfMboxCmd_inLen : Fld := ⟨.hfMboxCmd, 32, 32, .rw, 0⟩
-- HF_MBOX_STATUS, Table 15-12
def F.hfMboxStatus_status : Fld := ⟨.hfMboxStatus, 0, 8, .ro, 0⟩
def F.hfMboxStatus_busy : Fld := ⟨.hfMboxStatus, 8, 1, .ro, 0⟩
def F.hfMboxStatus_outLen : Fld := ⟨.hfMboxStatus, 32, 32, .ro, 0⟩
-- HF_MBOX_BUF, Table 15-12
def F.hfMboxBuf_hpa : Fld := ⟨.hfMboxBuf, 12, 40, .rw, 0⟩
def F.hfMboxBuf_pages : Fld := ⟨.hfMboxBuf, 52, 12, .rw, 0⟩
-- HF_PWR_CAP, Table 16-7
def F.hfPwrCap_capW : Fld := ⟨.hfPwrCap, 0, 15, .rw, 0x4650⟩
def F.hfPwrCap_effCap : Fld := ⟨.hfPwrCap, 15, 15, .ro, 0x4650⟩
def F.hfPwrCap_limiter : Fld := ⟨.hfPwrCap, 30, 2, .ro, 0⟩
def F.hfPwrCap_capUnmet : Fld := ⟨.hfPwrCap, 32, 1, .ro, 0⟩
def F.hfPwrCap_capErr : Fld := ⟨.hfPwrCap, 33, 1, .ro, 0⟩
-- HF_PWR_CONTRACT, Table 16-7
def F.hfPwrContract_en : Fld := ⟨.hfPwrContract, 0, 1, .rw, 0⟩
def F.hfPwrContract_windowS : Fld := ⟨.hfPwrContract, 1, 6, .rw, 1⟩
def F.hfPwrContract_contractErr : Fld := ⟨.hfPwrContract, 7, 1, .ro, 0⟩
def F.hfPwrContract_targetW : Fld := ⟨.hfPwrContract, 8, 15, .rw, 0x4650⟩
def F.hfPwrContract_floorHold : Fld := ⟨.hfPwrContract, 23, 1, .ro, 0⟩
-- HF_PWR_MEAS, Table 16-7
def F.hfPwrMeas_inputW : Fld := ⟨.hfPwrMeas, 0, 16, .ro, 0⟩
def F.hfPwrMeas_linksW : Fld := ⟨.hfPwrMeas, 16, 16, .ro, 0⟩
def F.hfPwrMeas_memoryW : Fld := ⟨.hfPwrMeas, 32, 16, .ro, 0⟩
def F.hfPwrMeas_computeW : Fld := ⟨.hfPwrMeas, 48, 16, .ro, 0⟩
-- HF_PWR_INPUT, Table 16-7
def F.hfPwrInput_vinMv : Fld := ⟨.hfPwrInput, 0, 16, .ro, 0⟩
def F.hfPwrInput_iin : Fld := ⟨.hfPwrInput, 16, 16, .ro, 0⟩
def F.hfPwrInput_inputLimit : Fld := ⟨.hfPwrInput, 32, 16, .rc, 0⟩
-- HF_PWR_ENERGY, Table 16-8
def F.hfPwrEnergy_moduleUj : Fld := ⟨.hfPwrEnergy, 0, 64, .ro, 0⟩
-- HF_PWR_ENERGY_COMMON, Table 16-8
def F.hfPwrEnergyCommon_b8Uj : Fld := ⟨.hfPwrEnergyCommon, 0, 64, .ro, 0⟩
-- HF_PWR_ENERGY_LIFE, Table 16-8
def F.hfPwrEnergyLife_lifeUj : Fld := ⟨.hfPwrEnergyLife, 0, 64, .ro, 0⟩
-- HF_PWR_BROKER, Table 16-9
def F.hfPwrBroker_en : Fld := ⟨.hfPwrBroker, 0, 1, .rw, 0⟩
def F.hfPwrBroker_brokerOk : Fld := ⟨.hfPwrBroker, 1, 1, .rw, 1⟩
def F.hfPwrBroker_priority : Fld := ⟨.hfPwrBroker, 2, 8, .rw, 0x80⟩
def F.hfPwrBroker_group : Fld := ⟨.hfPwrBroker, 10, 16, .rw, 0⟩
def F.hfPwrBroker_periodMs : Fld := ⟨.hfPwrBroker, 32, 10, .rw, 0xa⟩
def F.hfPwrBroker_step : Fld := ⟨.hfPwrBroker, 42, 12, .rw, 0x32⟩
-- HF_PWR_BROKER_GUARD, Table 16-9
def F.hfPwrBrokerGuard_guard : Fld := ⟨.hfPwrBrokerGuard, 0, 32, .rw, 0x4e20⟩
def F.hfPwrBrokerGuard_contribW : Fld := ⟨.hfPwrBrokerGuard, 32, 15, .rw, 0x4650⟩
-- HF_PWR_BROKER_STAT, Table 16-9
def F.hfPwrBrokerStat_role : Fld := ⟨.hfPwrBrokerStat, 0, 2, .ro, 0⟩
def F.hfPwrBrokerStat_noGrant : Fld := ⟨.hfPwrBrokerStat, 2, 1, .ro, 0⟩
def F.hfPwrBrokerStat_grantW : Fld := ⟨.hfPwrBrokerStat, 3, 15, .ro, 0⟩
def F.hfPwrBrokerStat_cW : Fld := ⟨.hfPwrBrokerStat, 18, 15, .ro, 0⟩
-- HF_PWR_BROKER_ID, Table 16-9
def F.hfPwrBrokerId_brokerSerial : Fld := ⟨.hfPwrBrokerId, 0, 64, .ro, 0⟩
-- HF_PWR_THERM, Table 16-8
def F.hfPwrTherm_inlet : Fld := ⟨.hfPwrTherm, 0, 16, .ro, 0⟩
def F.hfPwrTherm_outlet : Fld := ⟨.hfPwrTherm, 16, 16, .ro, 0⟩
def F.hfPwrTherm_hottest : Fld := ⟨.hfPwrTherm, 32, 16, .ro, 0⟩
def F.hfPwrTherm_state : Fld := ⟨.hfPwrTherm, 48, 2, .ro, 0⟩
-- HF_PWR_STICKY, Table 16-8
def F.hfPwrSticky_capUnmet : Fld := ⟨.hfPwrSticky, 0, 1, .w1c, 0⟩
def F.hfPwrSticky_inputLimit : Fld := ⟨.hfPwrSticky, 1, 1, .w1c, 0⟩
def F.hfPwrSticky_partDark : Fld := ⟨.hfPwrSticky, 2, 1, .w1c, 0⟩
def F.hfPwrSticky_thermalTrip : Fld := ⟨.hfPwrSticky, 3, 1, .w1c, 0⟩
def F.hfPwrSticky_coolantHot : Fld := ⟨.hfPwrSticky, 4, 1, .w1c, 0⟩
def F.hfPwrSticky_coolantCold : Fld := ⟨.hfPwrSticky, 5, 1, .w1c, 0⟩
def F.hfPwrSticky_flowLow : Fld := ⟨.hfPwrSticky, 6, 1, .w1c, 0⟩
def F.hfPwrSticky_brokerLost : Fld := ⟨.hfPwrSticky, 7, 1, .w1c, 0⟩
-- HF_PWR_PART, Table 16-8
def F.hfPwrPart_dark : Fld := ⟨.hfPwrPart, 0, 8, .ro, 0⟩
def F.hfPwrPart_cause : Fld := ⟨.hfPwrPart, 8, 16, .ro, 0⟩
-- HF_ERR_STICKY, Table 17-13
def F.hfErrSticky_hbmUnc : Fld := ⟨.hfErrSticky, 0, 1, .w1c, 0⟩
def F.hfErrSticky_hbmPprOut : Fld := ⟨.hfErrSticky, 1, 1, .w1c, 0⟩
def F.hfErrSticky_flashErr : Fld := ⟨.hfErrSticky, 2, 1, .w1c, 0⟩
def F.hfErrSticky_logDrop : Fld := ⟨.hfErrSticky, 3, 1, .w1c, 0⟩
-- HF_ERR_FIRST, Table 17-13
def F.hfErrFirst_ft : Fld := ⟨.hfErrFirst, 0, 64, .ro, 0⟩
-- HF_ERR_FIRST_INFO, Table 17-13
def F.hfErrFirstInfo_bit : Fld := ⟨.hfErrFirstInfo, 0, 5, .ro, 0⟩
def F.hfErrFirstInfo_valid : Fld := ⟨.hfErrFirstInfo, 5, 1, .w1c, 0⟩
def F.hfErrFirstInfo_stack : Fld := ⟨.hfErrFirstInfo, 6, 4, .ro, 0⟩
-- HF_FAULT_LOG, Table 17-13
def F.hfFaultLog_held : Fld := ⟨.hfFaultLog, 0, 16, .ro, 0⟩
def F.hfFaultLog_fatalHeld : Fld := ⟨.hfFaultLog, 16, 16, .ro, 0⟩
def F.hfFaultLog_dropped : Fld := ⟨.hfFaultLog, 32, 16, .rc, 0⟩
-- HF_BOOT_STATUS, Table 18-8
def F.hfBootStatus_stage : Fld := ⟨.hfBootStatus, 0, 4, .ro, 0⟩
def F.hfBootStatus_stopCause : Fld := ⟨.hfBootStatus, 4, 4, .ro, 0⟩
def F.hfBootStatus_testRun : Fld := ⟨.hfBootStatus, 8, 2, .ro, 0⟩
def F.hfBootStatus_quickRefused : Fld := ⟨.hfBootStatus, 10, 1, .ro, 0⟩
def F.hfBootStatus_testFail : Fld := ⟨.hfBootStatus, 11, 1, .ro, 0⟩
def F.hfBootStatus_newRepairs : Fld := ⟨.hfBootStatus, 16, 16, .ro, 0⟩
def F.hfBootStatus_bootMs : Fld := ⟨.hfBootStatus, 32, 32, .ro, 0⟩
-- HF_BOOT_TEST, Table 18-9
def F.hfBootTest_nextQuick : Fld := ⟨.hfBootTest, 0, 1, .ro, 0⟩
def F.hfBootTest_sinceFull : Fld := ⟨.hfBootTest, 32, 32, .ro, 0⟩
-- HF_RST, Table 18-9
def F.hfRst_kind : Fld := ⟨.hfRst, 0, 2, .rw, 0⟩
def F.hfRst_go : Fld := ⟨.hfRst, 2, 1, .w1s, 0⟩
def F.hfRst_busy : Fld := ⟨.hfRst, 3, 1, .ro, 0⟩
def F.hfRst_refused : Fld := ⟨.hfRst, 4, 1, .ro, 0⟩
-- HF_FW_STATUS, Table 19-7
def F.hfFwStatus_activeSet : Fld := ⟨.hfFwStatus, 0, 1, .ro, 0⟩
def F.hfFwStatus_bootFallback : Fld := ⟨.hfFwStatus, 1, 1, .ro, 0⟩
def F.hfFwStatus_recovery : Fld := ⟨.hfFwStatus, 2, 1, .ro, 0⟩
def F.hfFwStatus_recoveryCause : Fld := ⟨.hfFwStatus, 3, 2, .ro, 0⟩
def F.hfFwStatus_actPending : Fld := ⟨.hfFwStatus, 5, 1, .ro, 0⟩
def F.hfFwStatus_lastAct : Fld := ⟨.hfFwStatus, 6, 2, .ro, 0⟩
def F.hfFwStatus_stagedOk : Fld := ⟨.hfFwStatus, 8, 1, .ro, 0⟩
def F.hfFwStatus_manifestVersion : Fld := ⟨.hfFwStatus, 32, 32, .ro, 0⟩
-- HF_FW_ROLL, Table 19-7
def F.hfFwRoll_rollBusy : Fld := ⟨.hfFwRoll, 0, 1, .ro, 0⟩
def F.hfFwRoll_rollHalted : Fld := ⟨.hfFwRoll, 1, 1, .ro, 0⟩
def F.hfFwRoll_changed : Fld := ⟨.hfFwRoll, 16, 13, .ro, 0⟩
-- HF_FW_SVN, Table 19-7
def F.hfFwSvn_svn0 : Fld := ⟨.hfFwSvn, 0, 7, .ro, 0⟩
def F.hfFwSvn_svn1 : Fld := ⟨.hfFwSvn, 7, 7, .ro, 0⟩
def F.hfFwSvn_svn2 : Fld := ⟨.hfFwSvn, 14, 7, .ro, 0⟩
def F.hfFwSvn_svn3 : Fld := ⟨.hfFwSvn, 21, 7, .ro, 0⟩
def F.hfFwSvn_svn4 : Fld := ⟨.hfFwSvn, 28, 7, .ro, 0⟩
def F.hfFwSvn_svn5 : Fld := ⟨.hfFwSvn, 35, 7, .ro, 0⟩
def F.hfFwSvn_svn6 : Fld := ⟨.hfFwSvn, 42, 7, .ro, 0⟩
-- HF_SEC_STATE, Table 19-7
def F.hfSecState_udsLocked : Fld := ⟨.hfSecState, 0, 1, .ro, 1⟩
def F.hfSecState_testLocked : Fld := ⟨.hfSecState, 1, 1, .ro, 0⟩
def F.hfSecState_lmsExhausted : Fld := ⟨.hfSecState, 2, 1, .ro, 0⟩
def F.hfSecState_bootLeaves : Fld := ⟨.hfSecState, 8, 16, .ro, 0⟩
def F.hfSecState_topIndex : Fld := ⟨.hfSecState, 24, 21, .ro, 0⟩
def F.hfSecState_sessions : Fld := ⟨.hfSecState, 45, 4, .ro, 0⟩
-- HF_BOARD, Table 20-9
def F.hfBoard_slotId : Fld := ⟨.hfBoard, 0, 4, .ro, 0⟩
def F.hfBoard_recoveryStrap : Fld := ⟨.hfBoard, 4, 1, .ro, 0⟩
def F.hfBoard_pwrEn : Fld := ⟨.hfBoard, 5, 1, .ro, 1⟩
def F.hfBoard_thermN : Fld := ⟨.hfBoard, 6, 1, .ro, 0⟩
def F.hfBoard_alertN : Fld := ⟨.hfBoard, 7, 1, .ro, 0⟩
def F.hfBoard_alertMask : Fld := ⟨.hfBoard, 16, 6, .rw, 0x3f⟩
def F.hfBoard_alertSrc : Fld := ⟨.hfBoard, 24, 6, .ro, 0⟩

/-- The fields of a register, in the order of its table; every other bit is reserved (R10). -/
def RegName.flds : RegName → List Fld
  | .coreId => [F.coreId_logical, F.coreId_global, F.coreId_retired, F.coreId_retireCause, F.coreId_fenced, F.coreId_witness, F.coreId_canary]
  | .coreMcode => [F.coreMcode_version]
  | .coreErrSticky => [F.coreErrSticky_cmUnc, F.coreErrSticky_bufUnc, F.coreErrSticky_rdUnc, F.coreErrSticky_cmSpareOut, F.coreErrSticky_assayMismatch, F.coreErrSticky_assayTransient, F.coreErrSticky_assayPermanent, F.coreErrSticky_witnessFault, F.coreErrSticky_canaryFail, F.coreErrSticky_retired]
  | .coreErrFirst => [F.coreErrFirst_ft]
  | .coreErrFirstInfo => [F.coreErrFirstInfo_bit, F.coreErrFirstInfo_valid, F.coreErrFirstInfo_engine, F.coreErrFirstInfo_opcode]
  | .coreErrCount => [F.coreErrCount_unc, F.coreErrCount_mismatches, F.coreErrCount_transients, F.coreErrCount_canaryFails]
  | .qBase => [F.qBase_base]
  | .qCtrl => [F.qCtrl_ctx, F.qCtrl_sizeLog2, F.qCtrl_mode, F.qCtrl_run, F.qCtrl_ctxPart, F.qCtrl_tag]
  | .qHead => [F.qHead_head]
  | .qTail => [F.qTail_tail, F.qTail_tailTag, F.qTail_pendTail, F.qTail_pendTag]
  | .qState => [F.qState_state, F.qState_idle, F.qState_markWait, F.qState_gateWait, F.qState_fenceWait, F.qState_creditWait, F.qState_pendValid, F.qState_cfgErr]
  | .qHalt => [F.qHalt_status, F.qHalt_opcode, F.qHalt_subcode, F.qHalt_index, F.qHalt_htag]
  | .qCerr => [F.qCerr_lastCode, F.qCerr_lateCount, F.qCerr_errCount]
  | .qBench => [F.qBench_bench, F.qBench_index, F.qBench_member]
  | .qMember => [F.qMember_hcore, F.qMember_hvalid]
  | .coreMmErr => [F.coreMmErr_lastCode, F.coreMmErr_lastOpcode, F.coreMmErr_errCount]
  | .coreVecErr => [F.coreVecErr_lastCode, F.coreVecErr_lastOpcode, F.coreVecErr_errCount]
  | .coreVecFault => [F.coreVecFault_code, F.coreVecFault_gang, F.coreVecFault_valid, F.coreVecFault_lanes, F.coreVecFault_pc, F.coreVecFault_subcode]
  | .coreVecFaultAddr => [F.coreVecFaultAddr_addr]
  | .coreUpdErr => [F.coreUpdErr_lastCode, F.coreUpdErr_lastOpcode, F.coreUpdErr_faultGroup, F.coreUpdErr_errCount]
  | .coreUpdSticky => [F.coreUpdSticky_stepMismatch, F.coreUpdSticky_pNonfinite, F.coreUpdSticky_sNonfinite]
  | .coreUpdStep => [F.coreUpdStep_tableT, F.coreUpdStep_cmdStep]
  | .coreMovErr => [F.coreMovErr_lastCode, F.coreMovErr_lastOpcode, F.coreMovErr_subcode, F.coreMovErr_errCount]
  | .coreMovFaultAddr => [F.coreMovFaultAddr_addr]
  | .coreMmAct => [F.coreMmAct_stepsK, F.coreMmAct_depWait]
  | .coreMmStall => [F.coreMmStall_lockWait, F.coreMmStall_noticeWait]
  | .coreVecAct => [F.coreVecAct_instrK, F.coreVecAct_launches]
  | .coreVecStall => [F.coreVecStall_bankPass, F.coreVecStall_icacheMiss, F.coreVecStall_noticeWait]
  | .coreUpdAct => [F.coreUpdAct_elemK, F.coreUpdAct_frozenK]
  | .coreUpdStall => [F.coreUpdStall_bankWait, F.coreUpdStall_noticeWait]
  | .coreArithFtz => [F.coreArithFtz_mmFtz, F.coreArithFtz_updFtz]
  | .coreArithQuant => [F.coreArithQuant_zeroBlocks, F.coreArithQuant_vanishedElems]
  | .coreArithConv => [F.coreArithConv_convSat, F.coreArithConv_nanLost]
  | .coreArithSticky => [F.coreArithSticky_intOvf, F.coreArithSticky_mmNanOut, F.coreArithSticky_mmInfOut, F.coreArithSticky_ftzAny, F.coreArithSticky_updFtzAny, F.coreArithSticky_convSatAny, F.coreArithSticky_nanLostAny, F.coreArithSticky_zeroBlockAny, F.coreArithSticky_vanishedAny, F.coreArithSticky_nanScaleIn]
  | .coreAssayCnt => [F.coreAssayCnt_sampled, F.coreAssayCnt_passed]
  | .coreAssayCnt2 => [F.coreAssayCnt2_skipped, F.coreAssayCnt2_abandoned, F.coreAssayCnt2_served, F.coreAssayCnt2_mismatches]
  | .coreAssayLast => [F.coreAssayLast_verdict, F.coreAssayLast_kind, F.coreAssayLast_abandon, F.coreAssayLast_witness, F.coreAssayLast_third]
  | .cluOp => [F.cluOp_curOp, F.cluOp_targetOp, F.cluOp_capOp, F.cluOp_cause, F.cluOp_trim, F.cluOp_fchgBusy]
  | .cluClkStat => [F.cluClkStat_stretchedK, F.cluClkStat_demotions, F.cluClkStat_droopHolds]
  | .cluFchg => [F.cluFchg_changes, F.cluFchg_lastStop, F.cluFchg_maxStop, F.cluFchg_aborts]
  | .cluClkSticky => [F.cluClkSticky_ftUnsync, F.cluClkSticky_droopHold, F.cluClkSticky_fchgAbort, F.cluClkSticky_ageingCap]
  | .partUpdS0 => [F.partUpdS0_a1, F.partUpdS0_b1]
  | .partUpdS1 => [F.partUpdS1_a2, F.partUpdS1_b2]
  | .partUpdS2 => [F.partUpdS2_c1, F.partUpdS2_c2]
  | .partUpdS3 => [F.partUpdS3_eps, F.partUpdS3_lam]
  | .partUpdS4 => [F.partUpdS4_k1, F.partUpdS4_eta]
  | .partUpdS5 => [F.partUpdS5_t, F.partUpdS5_form1, F.partUpdS5_form2, F.partUpdS5_phi, F.partUpdS5_useOld, F.partUpdS5_bias1, F.partUpdS5_bias2]
  | .partUpdS6 => []
  | .partUpdS7 => []
  | .partUpdL0 => [F.partUpdL0_a1, F.partUpdL0_b1]
  | .partUpdL1 => [F.partUpdL1_a2, F.partUpdL1_b2]
  | .partUpdL2 => [F.partUpdL2_c1, F.partUpdL2_c2]
  | .partUpdL3 => [F.partUpdL3_eps, F.partUpdL3_lam]
  | .partUpdL4 => [F.partUpdL4_k1, F.partUpdL4_eta]
  | .partUpdL5 => [F.partUpdL5_t, F.partUpdL5_form1, F.partUpdL5_form2, F.partUpdL5_phi, F.partUpdL5_useOld, F.partUpdL5_bias1, F.partUpdL5_bias2]
  | .partUpdL6 => [F.partUpdL6_c1b, F.partUpdL6_c2b]
  | .partUpdL7 => [F.partUpdL7_valid]
  | .partUpdCommit => [F.partUpdCommit_rows, F.partUpdCommit_go, F.partUpdCommit_markEn, F.partUpdCommit_mark, F.partUpdCommit_status, F.partUpdCommit_badRow, F.partUpdCommit_pending]
  | .partUpdCommitFt => [F.partUpdCommitFt_commitFt]
  | .partXltReq => [F.partXltReq_op, F.partXltReq_go, F.partXltReq_status, F.partXltReq_number]
  | .partXltArg0 => [F.partXltArg0_root]
  | .partXltArg1 => [F.partXltArg1_capacity, F.partXltArg1_pageShift, F.partXltArg1_tokenRowsM1, F.partXltArg1_length]
  | .partXltInv => [F.partXltInv_ctx, F.partXltInv_all, F.partXltInv_go]
  | .partSeqLen => [F.partSeqLen_length, F.partSeqLen_allocated]
  | .partMemCorr => [F.partMemCorr_cmCorr, F.partMemCorr_smCorr]
  | .partMemUncorr => [F.partMemUncorr_cmUnc, F.partMemUncorr_smUnc, F.partMemUncorr_rdcRefetch]
  | .partMemRepair => [F.partMemRepair_smSpareMin, F.partMemRepair_smWorstSlice, F.partMemRepair_cmSpareMin, F.partMemRepair_cmWorstCore, F.partMemRepair_pending]
  | .partRingReset => [F.partRingReset_ring, F.partRingReset_go]
  | .partTallyBase => [F.partTallyBase_dpa, F.partTallyBase_sizeLog2]
  | .partTallyWr => [F.partTallyWr_wr, F.partTallyWr_lost]
  | .partTallyRd => [F.partTallyRd_rd, F.partTallyRd_level]
  | .partTallyCtrl => [F.partTallyCtrl_faultRing]
  | .partCeLand0 => [F.partCeLand0_booking, F.partCeLand0_valid, F.partCeLand0_slots, F.partCeLand0_slotRows, F.partCeLand0_full]
  | .partCeLand1 => [F.partCeLand1_dpa]
  | .partCeStat => [F.partCeStat_late, F.partCeStat_dropped, F.partCeStat_discards, F.partCeStat_nanVotes, F.partCeStat_convSat]
  | .partCeErr => [F.partCeErr_lastCode, F.partCeErr_subcode, F.partCeErr_child, F.partCeErr_errCount]
  | .partMark => [F.partMark_value]
  | .partMarkAdd => [F.partMarkAdd_add]
  | .partNetRouter => [F.partNetRouter_failed]
  | .partNetErr => [F.partNetErr_nacks, F.partNetErr_resent, F.partNetErr_bellCorr, F.partNetErr_bellRetry]
  | .partNetSticky => [F.partNetSticky_routerFail, F.partNetSticky_d2dHalf, F.partNetSticky_d2dDown, F.partNetSticky_routeDegraded, F.partNetSticky_bellFail, F.partNetSticky_transitHold]
  | .partD2dLink => [F.partD2dLink_state, F.partD2dLink_spared, F.partD2dLink_failed, F.partD2dLink_retrains, F.partD2dLink_crcErr]
  | .partNetFence => [F.partNetFence_fenced]
  | .partPwrBank => [F.partPwrBank_phasesOk, F.partPwrBank_current, F.partPwrBank_powerW]
  | .partPwrEnergy => [F.partPwrEnergy_bankUj]
  | .partPwrSlack => [F.partPwrSlack_slack, F.partPwrSlack_phase]
  | .partPwrGate => [F.partPwrGate_gateEn, F.partPwrGate_idleUs, F.partPwrGate_switchOns]
  | .partPwrZone => [F.partPwrZone_current, F.partPwrZone_phases, F.partPwrZone_deferrals, F.partPwrZone_forced]
  | .partPwrSticky => [F.partPwrSticky_vrPhaseLoss, F.partPwrSticky_clusterDark, F.partPwrSticky_convPhaseLoss, F.partPwrSticky_forcedCap, F.partPwrSticky_thermalThrottle]
  | .partPwrClu => [F.partPwrClu_phasesOk, F.partPwrClu_state, F.partPwrClu_op5Cap, F.partPwrClu_vout, F.partPwrClu_droops, F.partPwrClu_temp]
  | .partAssayCtrl => [F.partAssayCtrl_assayWait]
  | .partAssayStat => [F.partAssayStat_transient, F.partAssayStat_permanent, F.partAssayStat_witness, F.partAssayStat_unresolved]
  | .partErrSticky => [F.partErrSticky_coreErr, F.partErrSticky_smUnc, F.partErrSticky_smSpareOut, F.partErrSticky_ceUnc, F.partErrSticky_xltUnc, F.partErrSticky_retired]
  | .partErrFirst => [F.partErrFirst_ft]
  | .partErrFirstInfo => [F.partErrFirstInfo_bit, F.partErrFirstInfo_valid, F.partErrFirstInfo_core]
  | .partRst => [F.partRst_kind, F.partRst_target, F.partRst_go, F.partRst_busy, F.partRst_refused, F.partRst_lastUs]
  | .partRstStat => [F.partRstStat_discarded, F.partRstStat_absorbed, F.partRstStat_resets]
  | .hbmEcc => [F.hbmEcc_corr, F.hbmEcc_unc, F.hbmEcc_pprFree]
  | .lampState => [F.lampState_present, F.lampState_state, F.lampState_verified, F.lampState_unverifiedRun, F.lampState_cause, F.lampState_caseTemp, F.lampState_inserts]
  | .lampCtrl => [F.lampCtrl_allowUnverified, F.lampCtrl_eject]
  | .lampSerial => [F.lampSerial_serial]
  | .lampPart => [F.lampPart_partNumber]
  | .lampDate => [F.lampDate_year, F.lampDate_week]
  | .lampSticky => [F.lampSticky_verifyFail, F.lampSticky_switch, F.lampSticky_eol, F.lampSticky_wlDark, F.lampSticky_surprise]
  | .lampLaser0 => [F.lampLaser0_state, F.lampLaser0_eolHours, F.lampLaser0_eolBias, F.lampLaser0_bias, F.lampLaser0_power]
  | .lampLaser1 => [F.lampLaser1_hours, F.lampLaser1_biasInit]
  | .vxPortState => [F.vxPortState_state, F.vxPortState_trusted, F.vxPortState_cached, F.vxPortState_locked, F.vxPortState_downs]
  | .vxPortCtrl => [F.vxPortCtrl_enable, F.vxPortCtrl_edge]
  | .vxPortPeer => [F.vxPortPeer_peerSerial]
  | .vxPortPeerId => [F.vxPortPeerId_peerId, F.vxPortPeerId_peerIdValid, F.vxPortPeerId_peerPort]
  | .vxPortDelay => [F.vxPortDelay_delay]
  | .vxPortErr => [F.vxPortErr_fecCorr, F.vxPortErr_fecUnc, F.vxPortErr_resends]
  | .vxPortCal => [F.vxPortCal_booking, F.vxPortCal_valid]
  | .hfLayoutSrc => [F.hfLayoutSrc_dpa]
  | .hfLayoutLen => [F.hfLayoutLen_len]
  | .hfLayoutCmd => [F.hfLayoutCmd_load, F.hfLayoutCmd_swap, F.hfLayoutCmd_cancel, F.hfLayoutCmd_fallback]
  | .hfLayoutSwapFt => [F.hfLayoutSwapFt_swapFt]
  | .hfLayoutStatus => [F.hfLayoutStatus_loadCode, F.hfLayoutStatus_loadSection, F.hfLayoutStatus_loadRecord, F.hfLayoutStatus_swapCode, F.hfLayoutStatus_standby, F.hfLayoutStatus_swapPending, F.hfLayoutStatus_activeValid, F.hfLayoutStatus_activeDebug, F.hfLayoutStatus_activeSweep, F.hfLayoutStatus_exhausted, F.hfLayoutStatus_lastCause, F.hfLayoutStatus_hbmFixed, F.hfLayoutStatus_hbmMode]
  | .hfLayoutIdActive => [F.hfLayoutIdActive_activeId]
  | .hfLayoutIdStandby => [F.hfLayoutIdStandby_standbyId]
  | .hfLayoutOrigin => [F.hfLayoutOrigin_origin]
  | .hfLayoutHashActive => [F.hfLayoutHashActive_activeHash]
  | .hfLayoutHashStandby => [F.hfLayoutHashStandby_standbyHash]
  | .hfLayoutSwapTime => [F.hfLayoutSwapTime_lastNs, F.hfLayoutSwapTime_swaps]
  | .hfBenchState => [F.hfBenchState_pillarsFree, F.hfBenchState_exhausted, F.hfBenchState_takeovers]
  | .hfFt => [F.hfFt_ft]
  | .hfFtCtrl => [F.hfFtCtrl_refEn, F.hfFtCtrl_stepEn, F.hfFtCtrl_masterOk, F.hfFtCtrl_priority]
  | .hfFtStatus => [F.hfFtStatus_state, F.hfFtStatus_aligned, F.hfFtStatus_sysScope, F.hfFtStatus_ppsReject, F.hfFtStatus_errEst, F.hfFtStatus_masterId]
  | .hfFtMaster => [F.hfFtMaster_masterSerial]
  | .hfFtPps => [F.hfFtPps_ppsValue]
  | .hfShift => [F.hfShift_shift, F.hfShift_phase, F.hfShift_open]
  | .hfSchedTally => [F.hfSchedTally_shiftEn, F.hfSchedTally_phaseEn, F.hfSchedTally_ring]
  | .hfVxId => [F.hfVxId_id, F.hfVxId_idValid, F.hfVxId_idRefused]
  | .hfVxSerial => [F.hfVxSerial_serial]
  | .hfVxCtrl => [F.hfVxCtrl_allowUntrusted, F.hfVxCtrl_floodEn]
  | .hfVxStat => [F.hfVxStat_lsdbEntries, F.hfVxStat_noRoute, F.hfVxStat_ttlDrop, F.hfVxStat_lsdbFull]
  | .hfVxMemberRt => [F.hfVxMemberRt_port0, F.hfVxMemberRt_v0, F.hfVxMemberRt_port1, F.hfVxMemberRt_v1, F.hfVxMemberRt_port2, F.hfVxMemberRt_v2, F.hfVxMemberRt_port3, F.hfVxMemberRt_v3, F.hfVxMemberRt_hash]
  | .hfVxDistrictRt => [F.hfVxDistrictRt_port0, F.hfVxDistrictRt_v0, F.hfVxDistrictRt_port1, F.hfVxDistrictRt_v1, F.hfVxDistrictRt_port2, F.hfVxDistrictRt_v2, F.hfVxDistrictRt_port3, F.hfVxDistrictRt_v3, F.hfVxDistrictRt_hash]
  | .hfVxBook0 => [F.hfVxBook0_state, F.hfVxBook0_role, F.hfVxBook0_activate, F.hfVxBook0_revoke, F.hfVxBook0_inPort, F.hfVxBook0_outPort, F.hfVxBook0_nextIndex, F.hfVxBook0_prevIndex, F.hfVxBook0_shift, F.hfVxBook0_part]
  | .hfVxBook1 => [F.hfVxBook1_pathLat, F.hfVxBook1_hops, F.hfVxBook1_cause]
  | .hfVxBook2 => [F.hfVxBook2_xferOk, F.hfVxBook2_xferRevoked]
  | .hfVxBook3 => []
  | .hfHostLink => [F.hfHostLink_rate, F.hfHostLink_width, F.hfHostLink_lopt, F.hfHostLink_hdmCommitted, F.hfHostLink_vfs]
  | .hfHostErr => [F.hfHostErr_badAccess, F.hfHostErr_denied, F.hfHostErr_ca, F.hfHostErr_poison]
  | .hfHostErrlog => [F.hfHostErrlog_addr, F.hfHostErrlog_func, F.hfHostErrlog_kind, F.hfHostErrlog_space, F.hfHostErrlog_valid]
  | .hfHostIde => [F.hfHostIde_require, F.hfHostIde_linkSecure, F.hfHostIde_selSecure, F.hfHostIde_cmSecure]
  | .hfHdmSf => [F.hfHdmSf_tracked, F.hfHdmSf_bisnpK, F.hfHdmSf_bisnpTimeout]
  | .hfIntMap => [F.hfIntMap_vector, F.hfIntMap_func, F.hfIntMap_en, F.hfIntMap_mapErr]
  | .hfMboxCmd => [F.hfMboxCmd_opcode, F.hfMboxCmd_go, F.hfMboxCmd_useHost, F.hfMboxCmd_inLen]
  | .hfMboxStatus => [F.hfMboxStatus_status, F.hfMboxStatus_busy, F.hfMboxStatus_outLen]
  | .hfMboxBuf => [F.hfMboxBuf_hpa, F.hfMboxBuf_pages]
  | .hfPwrCap => [F.hfPwrCap_capW, F.hfPwrCap_effCap, F.hfPwrCap_limiter, F.hfPwrCap_capUnmet, F.hfPwrCap_capErr]
  | .hfPwrContract => [F.hfPwrContract_en, F.hfPwrContract_windowS, F.hfPwrContract_contractErr, F.hfPwrContract_targetW, F.hfPwrContract_floorHold]
  | .hfPwrMeas => [F.hfPwrMeas_inputW, F.hfPwrMeas_linksW, F.hfPwrMeas_memoryW, F.hfPwrMeas_computeW]
  | .hfPwrInput => [F.hfPwrInput_vinMv, F.hfPwrInput_iin, F.hfPwrInput_inputLimit]
  | .hfPwrEnergy => [F.hfPwrEnergy_moduleUj]
  | .hfPwrEnergyCommon => [F.hfPwrEnergyCommon_b8Uj]
  | .hfPwrEnergyLife => [F.hfPwrEnergyLife_lifeUj]
  | .hfPwrBroker => [F.hfPwrBroker_en, F.hfPwrBroker_brokerOk, F.hfPwrBroker_priority, F.hfPwrBroker_group, F.hfPwrBroker_periodMs, F.hfPwrBroker_step]
  | .hfPwrBrokerGuard => [F.hfPwrBrokerGuard_guard, F.hfPwrBrokerGuard_contribW]
  | .hfPwrBrokerStat => [F.hfPwrBrokerStat_role, F.hfPwrBrokerStat_noGrant, F.hfPwrBrokerStat_grantW, F.hfPwrBrokerStat_cW]
  | .hfPwrBrokerId => [F.hfPwrBrokerId_brokerSerial]
  | .hfPwrTherm => [F.hfPwrTherm_inlet, F.hfPwrTherm_outlet, F.hfPwrTherm_hottest, F.hfPwrTherm_state]
  | .hfPwrSticky => [F.hfPwrSticky_capUnmet, F.hfPwrSticky_inputLimit, F.hfPwrSticky_partDark, F.hfPwrSticky_thermalTrip, F.hfPwrSticky_coolantHot, F.hfPwrSticky_coolantCold, F.hfPwrSticky_flowLow, F.hfPwrSticky_brokerLost]
  | .hfPwrPart => [F.hfPwrPart_dark, F.hfPwrPart_cause]
  | .hfErrSticky => [F.hfErrSticky_hbmUnc, F.hfErrSticky_hbmPprOut, F.hfErrSticky_flashErr, F.hfErrSticky_logDrop]
  | .hfErrFirst => [F.hfErrFirst_ft]
  | .hfErrFirstInfo => [F.hfErrFirstInfo_bit, F.hfErrFirstInfo_valid, F.hfErrFirstInfo_stack]
  | .hfFaultLog => [F.hfFaultLog_held, F.hfFaultLog_fatalHeld, F.hfFaultLog_dropped]
  | .hfBootStatus => [F.hfBootStatus_stage, F.hfBootStatus_stopCause, F.hfBootStatus_testRun, F.hfBootStatus_quickRefused, F.hfBootStatus_testFail, F.hfBootStatus_newRepairs, F.hfBootStatus_bootMs]
  | .hfBootTest => [F.hfBootTest_nextQuick, F.hfBootTest_sinceFull]
  | .hfRst => [F.hfRst_kind, F.hfRst_go, F.hfRst_busy, F.hfRst_refused]
  | .hfFwStatus => [F.hfFwStatus_activeSet, F.hfFwStatus_bootFallback, F.hfFwStatus_recovery, F.hfFwStatus_recoveryCause, F.hfFwStatus_actPending, F.hfFwStatus_lastAct, F.hfFwStatus_stagedOk, F.hfFwStatus_manifestVersion]
  | .hfFwRoll => [F.hfFwRoll_rollBusy, F.hfFwRoll_rollHalted, F.hfFwRoll_changed]
  | .hfFwSvn => [F.hfFwSvn_svn0, F.hfFwSvn_svn1, F.hfFwSvn_svn2, F.hfFwSvn_svn3, F.hfFwSvn_svn4, F.hfFwSvn_svn5, F.hfFwSvn_svn6]
  | .hfSecState => [F.hfSecState_udsLocked, F.hfSecState_testLocked, F.hfSecState_lmsExhausted, F.hfSecState_bootLeaves, F.hfSecState_topIndex, F.hfSecState_sessions]
  | .hfBoard => [F.hfBoard_slotId, F.hfBoard_recoveryStrap, F.hfBoard_pwrEn, F.hfBoard_thermN, F.hfBoard_alertN, F.hfBoard_alertMask, F.hfBoard_alertSrc]

/-- Where a register lies: `blk` its block, `off` and `stride` its offsets within the block, `count` how many stand in
one block. Register `i` is number `i % count` of block `i / count`. -/
structure RegInfo where
  blk : Place
  off : Nat
  stride : Nat
  count : Nat
  width : Nat
  dom : Dom
  reach : Reach
  deriving DecidableEq, Repr

/-- Chapter 21, Tables 21-2 to 21-6. -/
def RegName.info : RegName → RegInfo
  | .coreId => ⟨.core, 0x0, 0, 1, 64, .core, .vf⟩
  | .coreMcode => ⟨.core, 0x8, 0, 1, 32, .core, .vf⟩
  | .coreErrSticky => ⟨.core, 0x100, 0, 1, 32, .sticky, .vf⟩
  | .coreErrFirst => ⟨.core, 0x108, 0, 1, 64, .sticky, .vf⟩
  | .coreErrFirstInfo => ⟨.core, 0x110, 0, 1, 32, .sticky, .vf⟩
  | .coreErrCount => ⟨.core, 0x118, 0, 1, 64, .sticky, .vf⟩
  | .qBase => ⟨.queue, 0x0, 0, 1, 64, .queue, .vf⟩
  | .qCtrl => ⟨.queue, 0x8, 0, 1, 64, .queue, .vf⟩
  | .qHead => ⟨.queue, 0x10, 0, 1, 64, .queue, .vf⟩
  | .qTail => ⟨.queue, 0x18, 0, 1, 64, .queue, .vf⟩
  | .qState => ⟨.queue, 0x20, 0, 1, 64, .queue, .vf⟩
  | .qHalt => ⟨.queue, 0x28, 0, 1, 64, .queue, .vf⟩
  | .qCerr => ⟨.queue, 0x30, 0, 1, 64, .queue, .vf⟩
  | .qBench => ⟨.queue, 0x38, 0, 1, 32, .queue, .vf⟩
  | .qMember => ⟨.queue, 0x38, 0, 1, 32, .queue, .vf⟩
  | .coreMmErr => ⟨.core, 0x10c0, 0, 1, 64, .core, .vf⟩
  | .coreVecErr => ⟨.core, 0x11c0, 0, 1, 64, .core, .vf⟩
  | .coreVecFault => ⟨.core, 0x11c8, 0, 1, 64, .core, .vf⟩
  | .coreVecFaultAddr => ⟨.core, 0x11d0, 0, 1, 64, .core, .vf⟩
  | .coreUpdErr => ⟨.core, 0x12c0, 0, 1, 64, .core, .vf⟩
  | .coreUpdSticky => ⟨.core, 0x12c8, 0, 1, 32, .sticky, .vf⟩
  | .coreUpdStep => ⟨.core, 0x12d0, 0, 1, 64, .sticky, .vf⟩
  | .coreMovErr => ⟨.core, 0x13c0, 0, 1, 64, .core, .vf⟩
  | .coreMovFaultAddr => ⟨.core, 0x13c8, 0, 1, 64, .core, .vf⟩
  | .coreMmAct => ⟨.core, 0x2100, 0, 1, 64, .core, .vf⟩
  | .coreMmStall => ⟨.core, 0x2108, 0, 1, 64, .core, .vf⟩
  | .coreVecAct => ⟨.core, 0x2110, 0, 1, 64, .core, .vf⟩
  | .coreVecStall => ⟨.core, 0x2118, 0, 1, 64, .core, .vf⟩
  | .coreUpdAct => ⟨.core, 0x2120, 0, 1, 64, .core, .vf⟩
  | .coreUpdStall => ⟨.core, 0x2128, 0, 1, 64, .core, .vf⟩
  | .coreArithFtz => ⟨.core, 0x2200, 0, 1, 64, .core, .vf⟩
  | .coreArithQuant => ⟨.core, 0x2208, 0, 1, 64, .core, .vf⟩
  | .coreArithConv => ⟨.core, 0x2210, 0, 1, 64, .core, .vf⟩
  | .coreArithSticky => ⟨.core, 0x2218, 0, 1, 32, .sticky, .vf⟩
  | .coreAssayCnt => ⟨.core, 0x4000, 0, 1, 64, .core, .vf⟩
  | .coreAssayCnt2 => ⟨.core, 0x4008, 0, 1, 64, .core, .vf⟩
  | .coreAssayLast => ⟨.core, 0x4010, 0, 1, 64, .core, .vf⟩
  | .cluOp => ⟨.clu, 0x0, 0, 1, 64, .clu, .vf⟩
  | .cluClkStat => ⟨.clu, 0x8, 0, 1, 64, .clu, .vf⟩
  | .cluFchg => ⟨.clu, 0x10, 0, 1, 64, .clu, .vf⟩
  | .cluClkSticky => ⟨.clu, 0x18, 0, 1, 32, .sticky, .vf⟩
  | .partUpdS0 => ⟨.part, 0x40000, 0x40, 16, 64, .mod, .vf⟩
  | .partUpdS1 => ⟨.part, 0x40008, 0x40, 16, 64, .mod, .vf⟩
  | .partUpdS2 => ⟨.part, 0x40010, 0x40, 16, 64, .mod, .vf⟩
  | .partUpdS3 => ⟨.part, 0x40018, 0x40, 16, 64, .mod, .vf⟩
  | .partUpdS4 => ⟨.part, 0x40020, 0x40, 16, 64, .mod, .vf⟩
  | .partUpdS5 => ⟨.part, 0x40028, 0x40, 16, 64, .mod, .vf⟩
  | .partUpdS6 => ⟨.part, 0x40030, 0x40, 16, 64, .mod, .vf⟩
  | .partUpdS7 => ⟨.part, 0x40038, 0x40, 16, 64, .mod, .vf⟩
  | .partUpdL0 => ⟨.part, 0x40400, 0x40, 16, 64, .mod, .vf⟩
  | .partUpdL1 => ⟨.part, 0x40408, 0x40, 16, 64, .mod, .vf⟩
  | .partUpdL2 => ⟨.part, 0x40410, 0x40, 16, 64, .mod, .vf⟩
  | .partUpdL3 => ⟨.part, 0x40418, 0x40, 16, 64, .mod, .vf⟩
  | .partUpdL4 => ⟨.part, 0x40420, 0x40, 16, 64, .mod, .vf⟩
  | .partUpdL5 => ⟨.part, 0x40428, 0x40, 16, 64, .mod, .vf⟩
  | .partUpdL6 => ⟨.part, 0x40430, 0x40, 16, 64, .mod, .vf⟩
  | .partUpdL7 => ⟨.part, 0x40438, 0x40, 16, 64, .mod, .vf⟩
  | .partUpdCommit => ⟨.part, 0x40800, 0, 1, 64, .mod, .vf⟩
  | .partUpdCommitFt => ⟨.part, 0x40808, 0, 1, 64, .mod, .vf⟩
  | .partXltReq => ⟨.part, 0x50000, 0x20, 2, 64, .partC, .vf⟩
  | .partXltArg0 => ⟨.part, 0x50008, 0x20, 2, 64, .partC, .vf⟩
  | .partXltArg1 => ⟨.part, 0x50010, 0x20, 2, 64, .partC, .vf⟩
  | .partXltInv => ⟨.part, 0x50100, 0, 1, 32, .partC, .vf⟩
  | .partSeqLen => ⟨.part, 0x51000, 0x8, 32, 64, .partC, .vf⟩
  | .partMemCorr => ⟨.part, 0x60000, 0, 1, 64, .mod, .vf⟩
  | .partMemUncorr => ⟨.part, 0x60008, 0, 1, 64, .mod, .vf⟩
  | .partMemRepair => ⟨.part, 0x60010, 0, 1, 64, .mod, .vf⟩
  | .partRingReset => ⟨.part, 0x61000, 0, 1, 32, .mod, .vf⟩
  | .partTallyBase => ⟨.part, 0x71000, 0x20, 8, 64, .mod, .vf⟩
  | .partTallyWr => ⟨.part, 0x71008, 0x20, 8, 64, .mod, .vf⟩
  | .partTallyRd => ⟨.part, 0x71010, 0x20, 8, 64, .mod, .vf⟩
  | .partTallyCtrl => ⟨.part, 0x71100, 0, 1, 64, .mod, .vf⟩
  | .partCeLand0 => ⟨.part, 0x72000, 0x10, 64, 64, .mod, .vf⟩
  | .partCeLand1 => ⟨.part, 0x72008, 0x10, 64, 64, .mod, .vf⟩
  | .partCeStat => ⟨.part, 0x73000, 0, 1, 64, .mod, .vf⟩
  | .partCeErr => ⟨.part, 0x73008, 0, 1, 64, .mod, .vf⟩
  | .partMark => ⟨.part, 0x80000, 0x8, 4096, 64, .mod, .vf⟩
  | .partMarkAdd => ⟨.part, 0x90000, 0x8, 4096, 64, .mod, .vf⟩
  | .partNetRouter => ⟨.part, 0xa0000, 0, 1, 64, .mod, .vf⟩
  | .partNetErr => ⟨.part, 0xa0010, 0, 1, 64, .mod, .vf⟩
  | .partNetSticky => ⟨.part, 0xa0018, 0, 1, 32, .sticky, .vf⟩
  | .partD2dLink => ⟨.part, 0xa0100, 0x8, 18, 64, .mod, .vf⟩
  | .partNetFence => ⟨.part, 0xa0200, 0x8, 9, 64, .mod, .vf⟩
  | .partPwrBank => ⟨.part, 0xb0000, 0, 1, 64, .mod, .vf⟩
  | .partPwrEnergy => ⟨.part, 0xb0008, 0, 1, 64, .mod, .vf⟩
  | .partPwrSlack => ⟨.part, 0xb0010, 0, 1, 64, .mod, .vf⟩
  | .partPwrGate => ⟨.part, 0xb0018, 0, 1, 64, .mod, .vf⟩
  | .partPwrZone => ⟨.part, 0xb0020, 0x8, 6, 64, .mod, .vf⟩
  | .partPwrSticky => ⟨.part, 0xb0050, 0, 1, 32, .sticky, .vf⟩
  | .partPwrClu => ⟨.part, 0xb0100, 0x8, 36, 64, .mod, .vf⟩
  | .partAssayCtrl => ⟨.part, 0xc0000, 0, 1, 64, .mod, .vf⟩
  | .partAssayStat => ⟨.part, 0xc0008, 0, 1, 64, .mod, .vf⟩
  | .partErrSticky => ⟨.part, 0xc0010, 0, 1, 32, .sticky, .vf⟩
  | .partErrFirst => ⟨.part, 0xc0018, 0, 1, 64, .sticky, .vf⟩
  | .partErrFirstInfo => ⟨.part, 0xc0020, 0, 1, 32, .sticky, .vf⟩
  | .partRst => ⟨.part, 0xd0000, 0, 1, 64, .mod, .vf⟩
  | .partRstStat => ⟨.part, 0xd0008, 0, 1, 64, .mod, .vf⟩
  | .hbmEcc => ⟨.hbm, 0x0, 0, 1, 64, .mod, .pf0⟩
  | .lampState => ⟨.lamp, 0x0, 0, 1, 64, .mod, .pf0⟩
  | .lampCtrl => ⟨.lamp, 0x8, 0, 1, 32, .mod, .pf0⟩
  | .lampSerial => ⟨.lamp, 0x10, 0, 1, 64, .mod, .pf0⟩
  | .lampPart => ⟨.lamp, 0x18, 0x8, 2, 64, .mod, .pf0⟩
  | .lampDate => ⟨.lamp, 0x28, 0, 1, 64, .mod, .pf0⟩
  | .lampSticky => ⟨.lamp, 0x30, 0, 1, 32, .sticky, .pf0⟩
  | .lampLaser0 => ⟨.lamp, 0x100, 0x10, 16, 64, .mod, .pf0⟩
  | .lampLaser1 => ⟨.lamp, 0x108, 0x10, 16, 64, .mod, .pf0⟩
  | .vxPortState => ⟨.port, 0x0, 0, 1, 64, .mod, .pf0⟩
  | .vxPortCtrl => ⟨.port, 0x8, 0, 1, 32, .mod, .pf0⟩
  | .vxPortPeer => ⟨.port, 0x10, 0, 1, 64, .mod, .pf0⟩
  | .vxPortPeerId => ⟨.port, 0x18, 0, 1, 32, .mod, .pf0⟩
  | .vxPortDelay => ⟨.port, 0x20, 0, 1, 32, .mod, .pf0⟩
  | .vxPortErr => ⟨.port, 0x28, 0, 1, 64, .mod, .pf0⟩
  | .vxPortCal => ⟨.port, 0x8000, 0x4, 4096, 32, .mod, .pf0⟩
  | .hfLayoutSrc => ⟨.headframe, 0x200000, 0, 1, 64, .mod, .pf0⟩
  | .hfLayoutLen => ⟨.headframe, 0x200008, 0, 1, 64, .mod, .pf0⟩
  | .hfLayoutCmd => ⟨.headframe, 0x200010, 0, 1, 32, .mod, .pf0⟩
  | .hfLayoutSwapFt => ⟨.headframe, 0x200018, 0, 1, 64, .mod, .pf0⟩
  | .hfLayoutStatus => ⟨.headframe, 0x200020, 0, 1, 64, .mod, .vfRead⟩
  | .hfLayoutIdActive => ⟨.headframe, 0x200028, 0, 1, 64, .mod, .vfRead⟩
  | .hfLayoutIdStandby => ⟨.headframe, 0x200030, 0, 1, 64, .mod, .vfRead⟩
  | .hfLayoutOrigin => ⟨.headframe, 0x200038, 0, 1, 64, .mod, .vfRead⟩
  | .hfLayoutHashActive => ⟨.headframe, 0x200040, 0x8, 6, 64, .mod, .pf0⟩
  | .hfLayoutHashStandby => ⟨.headframe, 0x200070, 0x8, 6, 64, .mod, .pf0⟩
  | .hfLayoutSwapTime => ⟨.headframe, 0x2000a0, 0, 1, 64, .mod, .pf0⟩
  | .hfBenchState => ⟨.headframe, 0x210000, 0x8, 256, 64, .mod, .pf0⟩
  | .hfFt => ⟨.headframe, 0x300000, 0, 1, 64, .mod, .vfRead⟩
  | .hfFtCtrl => ⟨.headframe, 0x300008, 0, 1, 32, .mod, .pf0⟩
  | .hfFtStatus => ⟨.headframe, 0x300010, 0, 1, 64, .mod, .vfRead⟩
  | .hfFtMaster => ⟨.headframe, 0x300018, 0, 1, 64, .mod, .pf0⟩
  | .hfFtPps => ⟨.headframe, 0x300020, 0, 1, 64, .mod, .pf0⟩
  | .hfShift => ⟨.headframe, 0x300028, 0, 1, 64, .mod, .vfRead⟩
  | .hfSchedTally => ⟨.headframe, 0x300030, 0, 1, 32, .mod, .pf0⟩
  | .hfVxId => ⟨.headframe, 0x400000, 0, 1, 32, .mod, .pf0⟩
  | .hfVxSerial => ⟨.headframe, 0x400008, 0, 1, 64, .mod, .pf0⟩
  | .hfVxCtrl => ⟨.headframe, 0x400010, 0, 1, 32, .mod, .pf0⟩
  | .hfVxStat => ⟨.headframe, 0x400018, 0, 1, 64, .mod, .pf0⟩
  | .hfVxMemberRt => ⟨.headframe, 0x410000, 0x4, 1024, 32, .mod, .pf0⟩
  | .hfVxDistrictRt => ⟨.headframe, 0x411000, 0x4, 128, 32, .mod, .pf0⟩
  | .hfVxBook0 => ⟨.headframe, 0x420000, 0x20, 4096, 64, .mod, .pf0⟩
  | .hfVxBook1 => ⟨.headframe, 0x420008, 0x20, 4096, 64, .mod, .pf0⟩
  | .hfVxBook2 => ⟨.headframe, 0x420010, 0x20, 4096, 64, .mod, .pf0⟩
  | .hfVxBook3 => ⟨.headframe, 0x420018, 0x20, 4096, 64, .mod, .pf0⟩
  | .hfHostLink => ⟨.headframe, 0x500000, 0, 1, 64, .mod, .pf0⟩
  | .hfHostErr => ⟨.headframe, 0x500008, 0, 1, 64, .mod, .pf0⟩
  | .hfHostErrlog => ⟨.headframe, 0x500010, 0, 1, 64, .mod, .pf0⟩
  | .hfHostIde => ⟨.headframe, 0x500018, 0, 1, 32, .mod, .pf0⟩
  | .hfHdmSf => ⟨.headframe, 0x500020, 0, 1, 64, .mod, .pf0⟩
  | .hfIntMap => ⟨.headframe, 0x501000, 0x4, 96, 32, .mod, .pf0⟩
  | .hfMboxCmd => ⟨.headframe, 0x502000, 0, 1, 64, .mod, .pf0⟩
  | .hfMboxStatus => ⟨.headframe, 0x502008, 0, 1, 64, .mod, .pf0⟩
  | .hfMboxBuf => ⟨.headframe, 0x502010, 0, 1, 64, .mod, .pf0⟩
  | .hfPwrCap => ⟨.headframe, 0x700000, 0, 1, 64, .mod, .pf0⟩
  | .hfPwrContract => ⟨.headframe, 0x700008, 0, 1, 64, .mod, .pf0⟩
  | .hfPwrMeas => ⟨.headframe, 0x700010, 0, 1, 64, .mod, .pf0⟩
  | .hfPwrInput => ⟨.headframe, 0x700018, 0, 1, 64, .mod, .pf0⟩
  | .hfPwrEnergy => ⟨.headframe, 0x700020, 0, 1, 64, .mod, .pf0⟩
  | .hfPwrEnergyCommon => ⟨.headframe, 0x700028, 0, 1, 64, .mod, .pf0⟩
  | .hfPwrEnergyLife => ⟨.headframe, 0x700030, 0, 1, 64, .mod, .pf0⟩
  | .hfPwrBroker => ⟨.headframe, 0x700040, 0, 1, 64, .mod, .pf0⟩
  | .hfPwrBrokerGuard => ⟨.headframe, 0x700048, 0, 1, 64, .mod, .pf0⟩
  | .hfPwrBrokerStat => ⟨.headframe, 0x700050, 0, 1, 64, .mod, .pf0⟩
  | .hfPwrBrokerId => ⟨.headframe, 0x700058, 0, 1, 64, .mod, .pf0⟩
  | .hfPwrTherm => ⟨.headframe, 0x700060, 0, 1, 64, .mod, .pf0⟩
  | .hfPwrSticky => ⟨.headframe, 0x700068, 0, 1, 32, .sticky, .pf0⟩
  | .hfPwrPart => ⟨.headframe, 0x700070, 0, 1, 64, .mod, .pf0⟩
  | .hfErrSticky => ⟨.headframe, 0x800000, 0, 1, 32, .sticky, .pf0⟩
  | .hfErrFirst => ⟨.headframe, 0x800008, 0, 1, 64, .sticky, .pf0⟩
  | .hfErrFirstInfo => ⟨.headframe, 0x800010, 0, 1, 32, .sticky, .pf0⟩
  | .hfFaultLog => ⟨.headframe, 0x800018, 0, 1, 64, .mod, .pf0⟩
  | .hfBootStatus => ⟨.headframe, 0x900000, 0, 1, 64, .mod, .pf0⟩
  | .hfBootTest => ⟨.headframe, 0x900008, 0, 1, 64, .mod, .pf0⟩
  | .hfRst => ⟨.headframe, 0x900010, 0, 1, 32, .mod, .pf0⟩
  | .hfFwStatus => ⟨.headframe, 0xa00000, 0, 1, 64, .mod, .pf0⟩
  | .hfFwRoll => ⟨.headframe, 0xa00008, 0, 1, 64, .mod, .pf0⟩
  | .hfFwSvn => ⟨.headframe, 0xa00010, 0, 1, 64, .mod, .pf0⟩
  | .hfSecState => ⟨.headframe, 0xa00018, 0, 1, 64, .mod, .pf0⟩
  | .hfBoard => ⟨.headframe, 0xb00000, 0, 1, 64, .mod, .pf0⟩

/-- Every register, in the order of the names. -/
def allRegs : List RegName :=
  ([.coreId, .coreMcode, .coreErrSticky, .coreErrFirst, .coreErrFirstInfo, .coreErrCount, .qBase, .qCtrl, .qHead, .qTail] : List RegName)
  ++ ([.qState, .qHalt, .qCerr, .qBench, .qMember, .coreMmErr, .coreVecErr, .coreVecFault, .coreVecFaultAddr, .coreUpdErr] : List RegName)
  ++ ([.coreUpdSticky, .coreUpdStep, .coreMovErr, .coreMovFaultAddr, .coreMmAct, .coreMmStall, .coreVecAct, .coreVecStall, .coreUpdAct, .coreUpdStall] : List RegName)
  ++ ([.coreArithFtz, .coreArithQuant, .coreArithConv, .coreArithSticky, .coreAssayCnt, .coreAssayCnt2, .coreAssayLast, .cluOp, .cluClkStat, .cluFchg] : List RegName)
  ++ ([.cluClkSticky, .partUpdS0, .partUpdS1, .partUpdS2, .partUpdS3, .partUpdS4, .partUpdS5, .partUpdS6, .partUpdS7, .partUpdL0] : List RegName)
  ++ ([.partUpdL1, .partUpdL2, .partUpdL3, .partUpdL4, .partUpdL5, .partUpdL6, .partUpdL7, .partUpdCommit, .partUpdCommitFt, .partXltReq] : List RegName)
  ++ ([.partXltArg0, .partXltArg1, .partXltInv, .partSeqLen, .partMemCorr, .partMemUncorr, .partMemRepair, .partRingReset, .partTallyBase, .partTallyWr] : List RegName)
  ++ ([.partTallyRd, .partTallyCtrl, .partCeLand0, .partCeLand1, .partCeStat, .partCeErr, .partMark, .partMarkAdd, .partNetRouter, .partNetErr] : List RegName)
  ++ ([.partNetSticky, .partD2dLink, .partNetFence, .partPwrBank, .partPwrEnergy, .partPwrSlack, .partPwrGate, .partPwrZone, .partPwrSticky, .partPwrClu] : List RegName)
  ++ ([.partAssayCtrl, .partAssayStat, .partErrSticky, .partErrFirst, .partErrFirstInfo, .partRst, .partRstStat, .hbmEcc, .lampState, .lampCtrl] : List RegName)
  ++ ([.lampSerial, .lampPart, .lampDate, .lampSticky, .lampLaser0, .lampLaser1, .vxPortState, .vxPortCtrl, .vxPortPeer, .vxPortPeerId] : List RegName)
  ++ ([.vxPortDelay, .vxPortErr, .vxPortCal, .hfLayoutSrc, .hfLayoutLen, .hfLayoutCmd, .hfLayoutSwapFt, .hfLayoutStatus, .hfLayoutIdActive, .hfLayoutIdStandby] : List RegName)
  ++ ([.hfLayoutOrigin, .hfLayoutHashActive, .hfLayoutHashStandby, .hfLayoutSwapTime, .hfBenchState, .hfFt, .hfFtCtrl, .hfFtStatus, .hfFtMaster, .hfFtPps] : List RegName)
  ++ ([.hfShift, .hfSchedTally, .hfVxId, .hfVxSerial, .hfVxCtrl, .hfVxStat, .hfVxMemberRt, .hfVxDistrictRt, .hfVxBook0, .hfVxBook1] : List RegName)
  ++ ([.hfVxBook2, .hfVxBook3, .hfHostLink, .hfHostErr, .hfHostErrlog, .hfHostIde, .hfHdmSf, .hfIntMap, .hfMboxCmd, .hfMboxStatus] : List RegName)
  ++ ([.hfMboxBuf, .hfPwrCap, .hfPwrContract, .hfPwrMeas, .hfPwrInput, .hfPwrEnergy, .hfPwrEnergyCommon, .hfPwrEnergyLife, .hfPwrBroker, .hfPwrBrokerGuard] : List RegName)
  ++ ([.hfPwrBrokerStat, .hfPwrBrokerId, .hfPwrTherm, .hfPwrSticky, .hfPwrPart, .hfErrSticky, .hfErrFirst, .hfErrFirstInfo, .hfFaultLog, .hfBootStatus] : List RegName)
  ++ ([.hfBootTest, .hfRst, .hfFwStatus, .hfFwRoll, .hfFwSvn, .hfSecState, .hfBoard] : List RegName)

end Sys2Proof.Machine
end

