-- ==== Sys2Proof/Machine/State.lean ====
section
/-! DEFINITION. The state of the block, as plain data: registers, memories, queues, engines, networks, links, host
interface, power, Assay, boot and firmware, the records on their way, and the commands that wait. -/

namespace Sys2Proof.Machine

/-- A finite map from numbers, its keys strictly rising: the one form of every sparse store of the state. -/
abbrev NMap (ν : Type) := List (Nat × ν)

/-- A memory: the bytes listed; an unlisted byte reads as its default (Host.Cell is a pair of an address and a byte). -/
abbrev Memory := List Host.Cell

/-- A store of bytes: its listed bytes; the ranges `lo ≤ a < hi` whose unlisted bytes hold a content the spec does not
define, each with the number of the event that left it so; the 32-byte sectors (`address / 32`) in which an uncorrectable error
lies (R195), and those in which a correctable one does; below `lines` the code covers lines of 64 bytes, as HBM's
does. Log: 7 (DESIGN CHOICE), 15 (DESIGN CHOICE). -/
structure Store where
  cells : Memory := []
  undef : List (Nat × Nat × Nat) := []
  bad : List Nat := []
  weak : List Nat := []
  lines : Nat := 0
  deriving DecidableEq, Repr

/-! ## Command queues (chapter 8) -/

/-- The eight 64-bit words of a command (R209). -/
structure Cmd where
  w0 : Nat := 0
  w1 : Nat := 0
  w2 : Nat := 0
  w3 : Nat := 0
  w4 : Nat := 0
  w5 : Nat := 0
  w6 : Nat := 0
  w7 : Nat := 0
  deriving DecidableEq, Repr

/-- What a bench queue adds to a command it broadcasts: the member's index and the context of the bench queue (R223). -/
structure BenchTag where
  index : Nat
  ctxPart : Nat
  ctx : Nat
  deriving DecidableEq, Repr

/-- A fetched command: its list entry, its list's tag and installation (R540), its bench tag, the stamp of the message
that brought it (R237), and the status of a fetch that failed (Table 8-7). -/
structure Entry where
  cmd : Cmd
  index : Nat
  tag : Nat
  gen : Nat := 0
  bench : Option BenchTag := none
  stamp : Nat := 0
  err : Option (Nat × Nat) := none
  deriving DecidableEq, Repr

/-- How far a started command has come: rows read and written, bytes and scales held, ring slots claimed; `full` a destination slot whose
rows are all sent and not all acknowledged (R309); `did` the output positions whose steps have issued (R83), `words` the live row
an update command read at its start (R158). Log: 12 (DEDUCED). -/
structure Prog where
  src : Nat := 0
  dst : Nat := 0
  scl : Nat := 0
  bytes : List Byte := []
  scales : List Nat := []
  comp : List Byte := []
  compScales : List Nat := []
  srcSlot : Option Nat := none
  dstSlot : Option Nat := none
  base : Nat := 0
  ready : Bool := false
  begun : Bool := false
  full : Bool := false
  did : List Nat := []
  words : List Nat := []
  deriving DecidableEq, Repr

/-- A started command: a number of its own, the tick it started, its progress, and, once its operation is over, its
status and subcode. -/
structure Started where
  id : Nat
  e : Entry
  at_ : Nat
  prog : Prog := {}
  done : Option (Nat × Nat) := none
  deriving DecidableEq, Repr

/-- A list a queue has left by a JUMP (R540). -/
structure LeftList where
  gen : Nat
  base : Nat
  sizeLog2 : Nat
  tag : Nat
  tail : Nat
  deriving DecidableEq, Repr

/-- A mark add on its way (R230): the unit code of its source, and its number among the upward messages (R321). -/
structure MarkAdd where
  part : Nat
  mark : Nat
  add : Nat
  stamp : Nat
  src : Nat
  num : Nat := 0
  deriving DecidableEq, Repr

/-- A mark signal that waits: for the writes of earlier started commands (R229) and for the verdicts of sampled ones
(R460), both named by their numbers; `rows` names commands whose rows on the bulk network are not all acknowledged. -/
structure HeldAdd where
  add : MarkAdd
  after : List Nat
  rows : List Nat := []
  samples : List Nat
  deriving DecidableEq, Repr

/-- What a queue holds besides its registers; `held` are mark signals that wait, `haltHi` payload bytes 24 to
31 of its last QUEUE_HALT tally and `haltPart`, `haltRing` the ring it went to (R217), `since` the tick it last became idle (R431). -/
structure Queue where
  waiting : List Entry := []
  started : List Started := []
  jump : Option Entry := none
  gen : Nat := 0
  left : List LeftList := []
  held : List HeldAdd := []
  haltHi : Nat := 0
  haltPart : Nat := 0
  haltRing : Nat := 0
  since : Nat := 0
  deriving DecidableEq, Repr

/-- A tally record on its way to its ring (Table 8-9), with its number among the upward messages (R321). -/
structure Tally where
  part : Nat
  ring : Nat
  ft : Nat
  unit : Nat
  event : Nat
  status : Nat
  seq : Nat
  payLo : Nat
  payHi : Nat
  num : Nat := 0
  deriving DecidableEq, Repr

/-! ## Engines (chapters 3 to 7) -/

/-- Who waits for a ring slot: started command `id` of queue `q`, or gang `n` of core `g`. -/
inductive Who where
  | cmd (q id : Nat)
  | gang (g n : Nat)
  deriving DecidableEq, Repr

/-- An access waiting on a ring since tick `since`, and the slot it has claimed once served (R178, R179). -/
structure RingWait where
  part : Nat
  ring : Nat
  write : Bool
  who : Who
  since : Nat
  slot : Option Nat := none
  deriving DecidableEq, Repr

/-- One slot of a ring (R178). -/
structure Slot where
  full : Bool := false
  claimed : Bool := false
  deriving DecidableEq, Repr

/-- Hardware state of a ring (R178). -/
structure RingState where
  slots : NMap Slot := []
  wp : Nat := 0
  rp : Nat := 0
  deriving DecidableEq, Repr

/-- What a gang waits for; `lock` holds an issued instruction behind results an Assay unit has locked (R459). -/
inductive GWait where
  | run
  | bar
  | mark (m v : Nat)
  | line (va : Nat)
  | ring
  | lock
  | post (bytes : List Byte)
  deriving DecidableEq, Repr

/-- A running gang (R88 to R95, R103): registers are held by number, `v` at `16 * register + lane`; `errs` lists the words of its
vector registers that hold an error (R120), true for one that cannot be corrected. Log: 15 (DESIGN CHOICE). -/
structure Gang where
  launch : Nat
  pc : Nat
  emask : Nat := 0xFFFF
  stack : List (Nat × Nat) := []
  v : NMap Nat := []
  m : NMap Nat := []
  sr : NMap Nat := []
  wait : GWait := .run
  errs : NMap Bool := []
  deriving DecidableEq, Repr

/-- A resident launch (R109 to R112); `id` is the number of its started command. -/
structure Launch where
  core : Nat
  id : Nat
  code : Nat
  ctxPart : Nat
  ctx : Nat
  watchdog : Nat
  since : Option Nat := none
  deriving DecidableEq, Repr

/-- An instruction-cache line (R115), tagged by context and virtual address; `bad` once its parity is wrong (R117). Log: 15 (DESIGN CHOICE). -/
structure ILine where
  core : Nat
  ctxPart : Nat
  ctx : Nat
  va : Nat
  words : List Nat
  bad : Bool := false
  deriving DecidableEq, Repr

/-- An instruction-cache line on its way for a launch. -/
structure IFill where
  core : Nat
  ctxPart : Nat
  ctx : Nat
  va : Nat
  deriving DecidableEq, Repr

/-- A broadcast of committed rows (R157): the rows' words before the commit, for the cores that have not adopted it. -/
structure UpdBcast where
  rows : Nat
  old : NMap Nat
  waiting : List Nat
  markEn : Bool
  mark : Nat
  deriving DecidableEq, Repr

/-- A validated commit that has not taken effect (R156): its rows, their live words to be, and its mark. -/
structure UpdPend where
  rows : Nat
  words : NMap Nat
  markEn : Bool
  mark : Nat
  deriving DecidableEq, Repr

/-- A translation cached by a core (R202): the page's virtual base and size, and what it maps to. -/
structure TlbEntry where
  core : Nat
  ctxPart : Nat
  ctx : Nat
  va : Nat
  shift : Nat
  dpa : Nat
  writable : Bool
  deriving DecidableEq, Repr

/-- A line of a partition's remote-data cache (R190); `bad` once it holds an uncorrectable error (R198). -/
structure RdcLine where
  part : Nat
  row : Nat
  data : List Byte
  bad : Bool := false
  deriving DecidableEq, Repr

/-- A fill on its way; `stale` once an invalidation has started (R191). -/
structure RdcFill where
  part : Nat
  row : Nat
  data : List Byte
  stale : Bool := false
  deriving DecidableEq, Repr

/-- A sequence slot's page list (R204). -/
structure SeqSlot where
  root : Nat
  capacity : Nat
  pageShift : Nat
  tokenBytes : Nat
  append : Nat
  ranges : List (Nat × Nat × Bool) := []
  deriving DecidableEq, Repr

/-- A running PART_XLT_INV (R202). -/
structure XltInv where
  part : Nat
  all : Bool
  ctx : Nat
  deriving DecidableEq, Repr

/-! ## Layouts (chapter 9) -/

/-- BENCH record (Table 9-5). -/
structure Bench where
  members : Nat
  pillars : Nat
  tenancy : Nat
  weight : Nat
  deriving DecidableEq, Repr

/-- ROLE record of a core that is not IDLE (Table 9-6): 1 MEMBER, 2 PILLAR. -/
structure Role where
  kind : Nat
  bench : Nat
  index : Nat
  deriving DecidableEq, Repr

/-- ROUTE record (Table 9-7). -/
structure Route where
  srcKind : Nat
  dstKind : Nat
  bw : Nat
  pathSel : Nat
  via : Nat
  src : Nat
  dst : Nat
  reserved : Bool := true
  deriving DecidableEq, Repr

/-- RING record (Table 9-9). -/
structure Ring where
  number : Nat
  part : Nat
  place : Nat
  strict : Bool
  first : Nat
  holder : Nat
  slots : Nat
  slotRows : Nat
  timeout : Nat
  deriving DecidableEq, Repr

/-- PHASE record (Table 9-10). -/
structure Phase where
  offset : Nat
  op : Nat
  prio : Nat
  lead : Nat
  slackRef : Nat
  deriving DecidableEq, Repr

/-- OP_OVERRIDE record (R253). -/
structure Override where
  phase : Nat
  bench : Nat
  op : Nat
  deriving DecidableEq, Repr

/-- ASSAY record (Table 9-11). -/
structure AssayPol where
  kCmd : Nat := 10
  kVec : Nat := 14
  enable : Bool := true
  witness : Nat := 2
  canary : Bool := true
  deriving DecidableEq, Repr

/-- A parsed layout image: what the units hold of it (R257). -/
structure Layout where
  id : Nat := 0
  debug : Bool := false
  sweep : Bool := false
  hash : List Nat := []
  tenancies : List Nat := []
  interleave : Nat := 0
  carve : List Nat := []
  benches : List Bench := []
  roles : NMap Role := []
  routes : List Route := []
  rings : List Ring := []
  shiftLen : Nat := 0
  idleOp : Nat := 0
  phases : List Phase := []
  overrides : List Override := []
  assay : AssayPol := {}
  deriving DecidableEq, Repr

/-- A swap on its way: its instant, its cause, and the tick Q once reached (R262). -/
structure Swap where
  ft : Nat
  cause : Nat
  begun : Bool := false
  q : Option Nat := none
  deriving DecidableEq, Repr

/-! ## Host messages -/

/-- An MSI-X table entry (R414); the reset value masks the vector, as PCIe sets. Log: 91 (PRESUMED). -/
structure Msix where
  addr : Nat := 0
  data : Nat := 0
  mask : Bool := true
  deriving DecidableEq, Repr

/-- What the module sends to the host. -/
inductive HostMsg where
  | msix (func vec addr data : Nat)
  | bisnp (line : Nat) (data : Bool)
  | write (addr : Nat) (bytes : List Byte)
  | error (func addr : Nat)
  deriving DecidableEq, Repr

/-! ## Layout loads and repairs (chapter 9) -/

/-- Why an image is rejected: code, section-table entry and record (Table 9-12, R538). Log: 45 (DEDUCED). -/
structure Reject where
  code : Nat
  sect : Nat
  rec_ : Nat
  deriving DecidableEq, Repr

/-- What the bulk network's installed paths avoid (R316, R318): failed positions and links by partition, dark partitions. -/
structure NetMap where
  failed : List Nat := [0, 0, 0, 0, 0, 0, 0, 0]
  down : List Nat := [0, 0, 0, 0, 0, 0, 0, 0]
  half : List Nat := [0, 0, 0, 0, 0, 0, 0, 0]
  dark : Nat := 0
  deriving DecidableEq, Repr

/-- A load on its way (R257, R258): source and length, the retired cores, dark partitions and installed network at the load write
(R259), the image as it stood then (none while the host still holds a line of it), and the layout that passed validation. -/
structure LoadRun where
  src : Nat
  len : Nat
  retired : List Nat
  dark : Nat
  net : NetMap := {}
  img : Option (List Byte) := none
  passed : Option Layout := none
  deriving DecidableEq, Repr

/-! ## Time, schedule and clocks (chapter 10) -/

/-- A frequency change of a cluster (R292, R293): its target, the tick the voltage is reached when it raises, instant 0 of its
move, how far it has come (0 before the stop, 1 stopped, 2 drained, 3 relocked), and the tick of its stop. -/
structure Fchg where
  target : Nat
  zero : Nat
  rampEnd : Option Nat := none
  stage : Nat := 0
  stopped : Nat := 0
  deriving DecidableEq, Repr

/-- What a cluster's clock and rail hold besides registers: the caps of Table 10-2 by source, the change in progress and the
latest target that waits for its end (R294), the trim in flash (R285), stretched periods in a row (R288), droop and hold (R287,
R295), the last stop and restart, thermal and switch-on state (R433, R448), and the first and last of the load-step notices that keep
every phase of its regulator on (R430). Log: 6 (DESIGN CHOICE). -/
structure Clu where
  demote : Nat := 7
  ageing : Nat := 7
  regulator : Nat := 7
  power : Nat := 7
  thermal : Nat := 7
  forced : Nat := 7
  fchg : Option Fchg := none
  next : Option Nat := none
  trim : Nat := 0
  stretched : Nat := 0
  droop : Bool := false
  hold : Bool := false
  stopAt : Nat := 0
  restartAt : Nat := 0
  hot : Bool := false
  thermAt : Nat := 0
  wake : Bool := false
  deferred : Nat := 0
  softAt : Nat := 0
  busyAt : Nat := 0
  notice : Option (Nat × Nat) := none
  deriving DecidableEq, Repr

/-- The external reference (R275): the value the next PPS_IN edge stands for, the tick it is expected at (none for the first after
a write of HF_FT_PPS), edges rejected and accepted in a row, the tick of the last edge, whether the reference is locked or lost, and the last multiple of 10^9 that a step
jumped over (R278). Log: 59 (DEDUCED). -/
structure Pps where
  value : Option Nat := none
  expect : Option Nat := none
  rej : Nat := 0
  good : Nat := 0
  last : Nat := 0
  locked : Bool := false
  lost : Bool := false
  skip : Option Nat := none
  deriving DecidableEq, Repr

/-- A slack to be computed (R439): partition, phase, phase start, R, and the last completion seen. -/
structure SlackRun where
  part : Nat
  phase : Nat
  start : Nat
  ref : Nat
  done : Nat
  deriving DecidableEq, Repr

/-! ## Bulk network (chapter 11) -/

/-- A Class S row on its way (R308, R309): the mover's queue and command, the destination row and its address in the command, its bytes and
sequence number, and whether the receiver has it. -/
structure BulkRow where
  unit : Nat
  id : Nat
  row : Nat
  addr : Nat
  data : List Byte
  seq : Nat
  got : Bool := false
  deriving DecidableEq, Repr

/-! ## VX fabric (chapter 12) -/

/-- A message a port sends: the Class T, C and B messages of the chapter, and a packet that is passed on. -/
inductive VxMsg where
  | sync
  | syncResp (t1 t2 state hops : Nat)
  | announce (a : Announce)
  | hello (h : Hello)
  | cert (chain : List Nat)
  | lsa (l : Lsa)
  | confirm (index prev lat links : Nat) (slots : List Nat)
  | confirmed (index lat links : Nat)
  | refused (index hop reason : Nat)
  | revoke (index cause : Nat)
  | ack (index xfer : Nat)
  | elect (prio serial : Nat)
  | contrib (serial group c u : Nat) (slack : Option Int)
  | grant (serial watts : Nat)
  | packet (cls : Nat) (bytes : List Byte)
  deriving DecidableEq, Repr

/-- A message that waits at a port: its rank of Table 12-2 (0 booking-reverse, 1 Class T, 2 Class C, 3 Class B), its flits and
those already sent, the bytes of its packet (R332), and the port whose buffer a packet that is passed on still fills (R331). -/
structure OutMsg where
  rank : Nat
  msg : VxMsg
  flits : Nat
  sent : Nat := 0
  bytes : List Byte := []
  src : Option Nat := none
  deriving DecidableEq, Repr

/-- A flit (Table 12-1) as a port sends it: the header fields, the payload, of kinds B, C and T a part of a message's packet, and the stamp
it leaves with, in ticks and sixteenths (R341). -/
structure WireFlit where
  port : Nat
  kind : Nat
  seq : Nat
  ack : Nat
  nack : Bool := false
  creditB : Nat := 0
  creditC : Nat := 0
  next : Nat := 0
  xfer : Nat := 0
  offset : Nat := 0
  payload : List Byte := []
  msg : Option VxMsg := none
  part : Nat := 0
  sop : Bool := false
  eop : Bool := false
  fill : Nat := 0
  ft : Nat := 0
  frac : Nat := 0
  deriving DecidableEq, Repr

/-- A flit as received, its header taken apart (Table 12-1), with the position it was sent in: 25 times the slot and the position, from FT 0. -/
structure Flit where
  seq : Nat
  ack : Nat
  nack : Bool
  kind : Nat
  creditB : Nat
  creditC : Nat
  next : Nat
  xfer : Nat
  sop : Bool
  eop : Bool
  fill : Nat
  offset : Nat
  payload : List Byte
  due : Nat := 0
  len : Nat := 0
  pos : Nat := 0
  deriving DecidableEq, Repr

/-- A Class S flit on its way through the module: its entry, and the slot and position it leaves in (R331, R343). -/
structure Transit where
  book : Nat
  slot : Nat
  pos : Nat
  next : Nat
  xfer : Nat
  offset : Nat
  payload : List Byte
  deriving DecidableEq, Repr

/-- What a fabric port holds besides its registers (R328 to R338): among it the flits still to come of the codewords that the lanes receive and
whether one of these cannot be corrected (R325), and the number a nack has asked for. Log: 68 (PRESUMED). -/
structure Port where
  out : List OutMsg := []
  unacked : List WireFlit := []
  resend : List Nat := []
  nackSeq : Nat := 0
  nackCount : Nat := 0
  txSeq : Nat := 0
  rxNext : Nat := 0
  held : List Flit := []
  want : Bool := false
  asked : Option Nat := none
  fecLeft : Nat := 0
  fecBad : Bool := false
  fails : Nat := 0
  creditB : Nat := 512
  creditC : Nat := 64
  owedB : Nat := 0
  owedC : Nat := 0
  asmB : List (List Byte) := []
  asmC : List (List Byte) := []
  fwd : List (Nat × List Byte) := []
  transit : List Transit := []
  nonce : Nat := 0
  peerNonce : Nat := 0
  hello : Option Hello := none
  echoed : Bool := false
  chain : Option (List Nat) := none
  lastGood : Nat := 0
  downAt : Nat := 0
  helloAt : Option Nat := none
  syncAt : Option Nat := none
  lastPos : Option Nat := none
  deriving DecidableEq, Repr

/-- An entry of the link-state database. -/
structure LsdbEntry where
  lsa : Lsa
  at_ : Nat
  deriving DecidableEq, Repr

/-- A Class S offer made and not yet taken by its port (R346). -/
structure Offer where
  id : Nat
  part : Nat
  book : Nat
  data : List Byte
  deadline : Option Nat
  deriving DecidableEq, Repr

/-- An accepted transfer at its source (R346 to R348): its first slot and the end of its last, in calendar slots since FT 0, the tick it was
accepted, and the subcode of the REVOKED that this tick ends it with unless its ACK comes in it (R350). -/
structure Transfer where
  id : Nat
  book : Nat
  xfer : Nat
  data : List Byte
  first : Nat
  last : Nat
  deadline : Nat
  sent : Nat := 0
  at_ : Nat := 0
  rev : Option Nat := none
  deriving DecidableEq, Repr

/-- A transfer arriving at its destination: where it lands (partition, landing entry and slot; none once it is discarded), its length
and D, and the flits placed. -/
structure Incoming where
  book : Nat
  xfer : Nat
  land : Option (Nat × Nat × Nat)
  len : Nat
  due : Nat
  flits : Nat := 0
  deriving DecidableEq, Repr

/-- The time-master election (R276): the best key known, the hops and the port toward that master, and the last sync heard from it. -/
structure Elect where
  best : Option Announce := none
  port : Option Nat := none
  epoch : Nat := 0
  heard : Nat := 0
  deriving DecidableEq, Repr

/-- A message in a landing slot (R371): the slot, its length and the tick it was placed. -/
structure LandMsg where
  slot : Nat
  len : Nat
  at_ : Nat
  deriving DecidableEq, Repr

/-- What a landing entry holds besides its registers: messages in arrival order, the next slot to fill, and the tag and step of each drop
(R372). -/
structure Land where
  msgs : List LandMsg := []
  next : Nat := 0
  drops : List (Nat × Nat) := []
  deriving DecidableEq, Repr

/-- A running COLL (chapter 13): its command, descriptor and base instant; 0 the local value is to be formed, 1 children are awaited,
2 the result is awaited, 3 copies are written and offers run; the next child; the element values or counts, or gathered bytes; the voters;
whether a subtree was dropped; the offers not yet ended. -/
structure Coll where
  id : Nat
  desc : List Nat
  base : Nat
  step : Nat
  ctxPart : Nat
  ctx : Nat
  phase : Nat := 0
  child : Nat := 0
  acc : List Nat := []
  blocks : List (List Nat) := []
  voters : Nat := 0
  dropped : Bool := false
  offers : List Nat := []
  deriving DecidableEq, Repr

/-! ## Lamps (chapter 14) -/

/-- A Lamp in a bay: its secure element, whether its verdict is pending and the nonce sent for it, the tick its lit time is counted to, lit
nanoseconds of each laser beyond the hours read, and lit time since the hours were written. -/
structure Lamp where
  elem : Option LampElem
  waiting : Bool := true
  nonce : Nat := 0
  mark : Nat := 0
  ns : List Nat := []
  unsaved : Nat := 0
  deriving DecidableEq, Repr

/-! ## Host interface (chapter 15) -/

/-- A line of HBM the host holds (R407), in the order tracked. -/
structure Tracked where
  line : Nat
  excl : Bool
  deriving DecidableEq, Repr

/-- A back-invalidate sent and not answered (R407, R408): BISnpInv or BISnpData, and whether an engine waits for it. -/
structure Snoop where
  line : Nat
  since : Nat
  inv : Bool
  eng : Bool
  deriving DecidableEq, Repr

/-- What the host receives as the completion of its last access: data, a line with poison (R409), Unsupported Request, Completer Abort, the
answer that the CXL specification sets for an unmapped address (R405), or nothing yet. Log: 88 (PRESUMED). -/
inductive Reply where
  | data (bytes : List Byte)
  | poisoned
  | unsupported
  | aborted
  | unmapped
  | waits
  deriving DecidableEq, Repr

/-! ## Power and thermal (chapter 16) -/

/-- A member of a broker group as its broker knows it (R441, R442): serial, contribution, ceiling, slack of the period, grant. -/
structure Member where
  serial : Nat
  group : Nat
  c : Nat
  u : Nat
  slack : Option Int := none
  grant : Nat := 0
  deriving DecidableEq, Repr

/-- What the power manager holds besides registers: the pacing in force in sixteenths (R435, R448); the contract cap, the ticks of its
enabling and last update, the energies of the last 10 ms intervals, newest first, and the count they are taken from (R438); the broker
election's best key and the period, grant and group state (R440 to R442); throttled sensors with the tick since when each is cool (R448);
and the coolant conditions that hold (R450). -/
structure Power where
  linkPace : Nat := 16
  memPace : Nat := 16
  contract : Option Nat := none
  contractAt : Nat := 0
  contractLast : Nat := 0
  slices : List Nat := []
  lastUj : Nat := 0
  best : Option (Nat × Nat) := none
  period : Nat := 0
  granted : Nat := 0
  ownGrant : Option Nat := none
  members : List Member := []
  throttled : NMap (Option Nat) := []
  coolant : Nat := 0
  deriving DecidableEq, Repr

/-! ## Assay and fault reports (chapter 17) -/

/-- A fault report (Tables 17-6 and 17-7): the fields of the vendor section that are no constants. -/
structure Report where
  number : Nat
  ft : Nat
  cause : Nat
  verdict : Nat := 0
  severity : Nat
  retireCause : Nat := 0
  unit : Nat
  part : Nat := 0xFF
  clu : Nat := 0xFF
  core : Nat := 0xFF
  engine : Nat := 0xFF
  global : Nat := 0xFFFF
  opcode : Nat := 0xFF
  fmt : Nat := 0xFFFF
  mode : Nat := 0xFF
  shape : Nat := 0xFFFFFFFF
  moduleId : Nat := 0
  temperature : Nat := 0xFFFF
  voltage : Nat := 0xFFFF
  frequency : Nat := 0xFFFF
  point : Nat := 0xFF
  layoutHash : List Nat := []
  layoutId : Nat := 0
  manifest : Nat := 0
  witness : Nat := 0xFFFF
  third : Nat := 0xFFFF
  detail : List Nat := []
  deriving DecidableEq, Repr

/-- How far a sampled command's duplicate has come (R457 to R463). -/
inductive SamplePhase where
  | copying
  | running
  | comparing
  | repeating
  deriving DecidableEq, Repr

/-- A sampled command: its core, engine and started command, the witness, the tick of the capture and of the last event
that a bound counts from, its results, which are locked while they are sent (R459), and its capture (Table 17-1), as address ranges. -/
structure Sample where
  core : Nat
  eng : Nat
  id : Nat
  kind : Nat
  witness : Nat
  third : Option Nat := none
  phase : SamplePhase := .copying
  captured : Nat
  since : Nat
  entry : Entry
  lockMem : List (Nat × Nat) := []
  lockBuf : List (Nat × Nat) := []
  inMem : List (Nat × Nat) := []
  inBuf : List (Nat × Nat) := []
  logRows : Nat := 0
  outRows : Nat := 0
  firstDiff : Nat := 0
  diffs : Nat := 0
  deriving DecidableEq, Repr

/-- A canary run on a core (R467 to R471): whether it is the rerun, and whether the host or a verdict asked for it. -/
structure Canary where
  core : Nat
  rerun : Bool := false
  byHost : Bool := false
  firstBad : Nat := 0
  deriving DecidableEq, Repr

/-! ## Boot and resets (chapter 18), board pins (chapter 20) -/

/-- A reset that is running (R488): 0 core, 1 cluster, 2 partition, 3 device compute, 4 module; `drained` once its drain ended. -/
structure ResetRun where
  kind : Nat
  part : Nat
  target : Nat
  at_ : Nat
  drained : Bool := false
  deriving DecidableEq, Repr

/-- Board pins and the power state (R522 to R528). Log: 5 (DESIGN CHOICE). -/
structure Board where
  perstN : Bool := false
  pwrEn : Bool := true
  pgood : Bool := true
  recoveryN : Bool := true
  strap : Nat := 0xF
  alert : Bool := false
  therm : Bool := false
  inRange : Bool := true
  offSince : Nat := 0
  dynAddr : Option Nat := none
  powered : Bool := true
  offHold : Bool := false
  pwrEnWaits : Bool := false
  pwrLowSince : Nat := 0
  poweringDown : Bool := false
  ppsOut : Bool := false
  deriving DecidableEq, Repr

/-- The memory test's outcome that MEM_TEST_REPORT returns (R487). -/
structure MemTest where
  run : Nat := 0
  fail : Bool := false
  quickRefused : Bool := false
  ms : Nat := 0
  cmRows : Nat := 0
  smRows : Nat := 0
  hbmRows : Nat := 0
  left : Nat := 0
  deriving DecidableEq, Repr
/-- What flash and fuses hold besides logs, records and firmware: failed routers by partition (R317), the regulator phases each cluster has
left where it has lost some and the dark clusters (R428), energy totals and power-on seconds at the last write and the power-on count (R445), the memory test's
setting, the power-on second of the last full pass and its report (R485, R487), the boot pointer (R502), the fused svns (R500) and the top
tree's next index (R520). Log: 5 (DESIGN CHOICE). -/
structure Flash where
  routers : List Nat := [0, 0, 0, 0, 0, 0, 0, 0]
  phases : NMap Nat := []
  darkClu : List Nat := []
  life : List Nat := [0, 0, 0, 0, 0, 0, 0, 0, 0, 0]
  onSeconds : Nat := 0
  onCount : Nat := 0
  writtenAt : Nat := 0
  quick : Bool := false
  fullAt : Option Nat := some 0
  test : MemTest := {}
  bootSet : Nat := 0
  svn : List Nat := [0, 0, 0, 0, 0, 0, 0]
  topIndex : Nat := 0
  exhausted : Bool := false
  deriving DecidableEq, Repr

/-! ## Firmware and security (chapter 19) -/

/-- An accepted activation (R506, R507): act_ft; for one that the mailbox started, the host buffer its output goes to, if not the payload
window; whether A has come; C; the result of the self-checks with the failing component; and whether a swap is in the way. -/
structure Activation where
  at_ : Nat
  mbox : Option (Option Nat)
  begun : Bool := false
  c : Option Nat := none
  result : Option (Nat × Nat) := none
  swapped : Bool := false
  deriving DecidableEq, Repr

/-- A rolling microcode update (R510, R511): the version, the cores that run it, and the shift in which each partition last changed a core
that holds an index (one more than its number; 0 none). -/
structure Roll where
  version : Nat
  changed : List Nat := []
  shifts : List Nat := [0, 0, 0, 0, 0, 0, 0, 0]
  deriving DecidableEq, Repr

/-- A PLDM update (R513): the components passed, and the one in transfer with its size and the offset reached. -/
structure Pldm where
  comps : List Nat := []
  comp : Option Nat := none
  size : Nat := 0
  offset : Nat := 0
  deriving DecidableEq, Repr

/-- An SPDM responder's connection over one transport (R517): how far negotiation has come (1 version, 2 capabilities, 3 algorithms), and its
messages so far. -/
structure Spdm where
  stage : Nat := 0
  transcript : List Nat := []
  deriving DecidableEq, Repr

/-- A secured session (R517): its number, its transport, whether FINISH has come, and the tick of its last message. -/
structure Session where
  id : Nat
  via : Nat
  ready : Bool := false
  at_ : Nat := 0
  deriving DecidableEq, Repr

/-- Algorithms of R517. -/
inductive Algo where
  | ecdsaP384 | sha384 | secp384r1 | aes256gcm
  deriving DecidableEq, Repr

/-- Protocols of PF0's DOE mailbox (R410). -/
inductive DoeProto where
  | discovery | spdm | securedSpdm | cdat
  deriving DecidableEq, Repr

/-- Why an SPDM request is answered with an error: out of its order, a field it cannot have, no such session, or Unspecified (R520). -/
inductive SpdmErr where
  | unexpected | invalid | session | unspecified
  deriving DecidableEq, Repr

/-- The two signatures of R519. -/
structure TwoSigs where
  ecdsa : List Nat
  hss : List Nat
  deriving DecidableEq, Repr

/-- How a PLDM command is answered: done, out of its order, an update already in progress, a field out of range, or not possible now. -/
inductive PldmCode where
  | ok | sequence | inProgress | badField | refused
  deriving DecidableEq, Repr

/-- A message of the module to a management requester (R410, R411, R513, R517 to R519). A measurement is its index and its value; a
parameter is a component, its active version and its staged version. -/
inductive MgmtMsg where
  | discovery (protos : List DoeProto)
  | cdat (lo hi latencyNs gbps : Nat)
  | ideKey (stream : Nat)
  | version (major minor : Nat)
  | capabilities (cert chal meas keyEx heartbeat : Bool)
  | algorithms (l : List Algo)
  | digests (slot : Nat) (digest : List Nat)
  | certificate (slot offset : Nat) (part : List Nat) (left : Nat)
  | challengeAuth (slot nonce : Nat) (sigs : TwoSigs)
  | measurements (blocks : List (Nat × List Nat)) (manifest : Option Nat) (nonce : Nat) (sigs : Option TwoSigs)
  | keyExchange (session random : Nat) (ecdsa : List Nat)
  | finish (session : Nat)
  | endSession (session : Nat)
  | heartbeat (session : Nat)
  | spdmError (e : SpdmErr)
  | identifiers (serial : Nat)
  | parameters (l : List (Nat × Nat × Nat))
  | update (code : PldmCode)
  | requestData (comp offset len : Nat)
  | transferComplete (comp : Nat)
  | verifyComplete (comp result : Nat)
  | applyComplete (comp result : Nat)
  deriving DecidableEq, Repr

/-- A message and the transport it leaves by: 0 DOE, 1 MCTP over I3C. -/
structure MgmtOut where
  via : Nat
  msg : MgmtMsg
  deriving DecidableEq, Repr

/-- What final test has blown into the fuses (R17, R20), never written again, besides the module serial number of the Headframe: the
partition index and the serial number of each compute die; physical clusters, cores and slices that the logical ones stand for, where the number differs
from the logical one within its partition, cluster or engine; memory rows mapped out; and failed lanes by link and group. Log: 142 (DESIGN CHOICE). -/
structure Fuses where
  dies : List (Nat × BitVec 64) := (List.range 8).map (fun p => (p, Config.serial))
  clusters : NMap Nat := []
  cores : NMap Nat := []
  slices : NMap Nat := []
  rows : List Nat := Config.fusedRows
  lanes : NMap (List Nat) := []
  deriving DecidableEq, Repr

/-- The physical units of a partition that its repair map leaves unused (R19): whether the rails of its unused clusters are on, whether
its unused cores and slices in used clusters are held in reset, and the microcode version the broadcast has given them. -/
structure Spares where
  rail : Bool := false
  held : Bool := false
  mcode : Nat := 0
  deriving DecidableEq, Repr

/-- Whole state of the block. -/
structure State where
  /-- The registers of BAR0, by name and index; one not listed holds its reset value (R535 to R537). -/
  regs : List (Nat × BitVec 64) := []
  /-- HBM, shared memory and core memory, by device physical address (R170 to R176; log 7). -/
  mem : Store := { lines := 0x10000000000 }
  /-- Private buffers of the cores: buffers A and B, the row stage and the accumulators (R62, R63, R97; log 7). -/
  bufs : Store := {}
  /-- Fabric Time of the Headframe (R271). -/
  ft : Nat := 0
  /-- Offset of the local FT of a cluster (0 to 287) or a partition (288 to 295) (R272, R273; log 5). -/
  skew : NMap Int := []
  /-- Command queues: fetched, started and held commands, lists left, waiting mark signals (R209 to R226, R540). -/
  queues : NMap Queue := []
  /-- Number that the next started command takes (the model's own). -/
  nextId : Nat := 0
  /-- Mark adds on their way to their partition (R230). -/
  adds : List MarkAdd := []
  /-- Values each mark has taken since the host last set it, each with the control stamp of the add that gave it (R237). -/
  markStamp : NMap (List (Nat × Nat)) := []
  /-- Tally records on their way to their rings (R231). -/
  tallies : List Tally := []
  /-- Number of the next message that goes up the Bell network (R321; the model's own). -/
  msgNext : Nat := 0
  /-- Next sequence number of a unit's records in each partition. -/
  seqs : NMap Nat := []
  /-- Slots and pointers of the rings of the active layout (R178). -/
  rings : NMap RingState := []
  /-- Accesses that wait for a ring slot, in order of arrival (R179). -/
  ringWaits : List RingWait := []
  /-- Rings being reset, by partition and number (R181). -/
  ringResets : List (Nat × Nat) := []
  /-- Running gangs of every core: pc, masks, stack, registers v, m and s, and what each waits for (R88 to R95, R103). -/
  gangs : NMap Gang := []
  /-- Resident launches of the vector engines (R109 to R112). -/
  launches : List Launch := []
  /-- Lines of the instruction caches, least recently used first (R115). -/
  icache : List ILine := []
  /-- Instruction lines on their way (R115, R116). -/
  ifills : List IFill := []
  /-- Broadcasts of committed update rows not yet adopted by every core (R157). -/
  upd : NMap UpdBcast := []
  /-- Validated commits that have not taken effect (R156). -/
  updPend : NMap UpdPend := []
  /-- Contexts allocated in each partition, with their page-table roots (R202, R206). -/
  ctxs : NMap Nat := []
  /-- Sequence slots of each partition (R204 to R207). -/
  seqSlots : NMap SeqSlot := []
  /-- Translations cached by the cores (R202). -/
  tlb : List TlbEntry := []
  /-- Translation invalidations that are running (R202). -/
  xltInv : List XltInv := []
  /-- Lines of the remote-data caches, oldest first (R189 to R191). -/
  rdc : List RdcLine := []
  /-- Fills of the remote-data caches on their way (R190, R191). -/
  rdcFills : List RdcFill := []
  /-- Ticks of the corrected errors that the patrol scrub counts against a row (R196, R199). -/
  scrubHits : NMap (List Nat) := []
  /-- What is left over of a counter kept in units larger than one event. -/
  carry : NMap Nat := []
  /-- The active layout (R257, R263). -/
  active : Option Layout := none
  /-- Roles of the cores in the active layout. -/
  roles : NMap Role := []
  /-- The standby layout (R257). -/
  standby : Option Layout := none
  /-- The pending swap: its instant S, its cause, and Q once reached (R261, R262). -/
  swap : Option Swap := none
  /-- MSI-X tables of PF0 and the VFs (R414; log 91). -/
  msix : NMap Msix := []
  /-- Pending bits of the MSI-X vectors (R414). -/
  msixPend : NMap Bool := []
  /-- Messages sent to the host, oldest first (R407, R414; the model's own). -/
  sent : List HostMsg := []
  /-- The layout load that is running (R257, R258). -/
  load : Option LoadRun := none
  /-- Retired members whose index waits for a shift start, with the tick of the retirement (R265). -/
  repairs : List (Nat × Nat) := []
  /-- Cores retired since the load of the standby layout (R257, R261). -/
  sinceLoad : List Nat := []
  /-- What the installed paths of the bulk network avoid (R304, R316, R318). -/
  net : NetMap := {}
  /-- Clock and rail of each cluster: caps by source, change in progress, trim, droop, hold, thermal and switch-on state (R281 to R295, R433, R448; log 6). -/
  clu : NMap Clu := []
  /-- Time-line frames failed in a row, by unit (R272). -/
  frameFails : NMap Nat := []
  /-- Index of the next shift to open (R279). -/
  nextShift : Nat := 0
  /-- Whether a phase of the open shift has started (R279). -/
  phaseOn : Bool := false
  /-- Phase whose lead time has come, by partition (R282, R283). -/
  plan : NMap Nat := []
  /-- Shift and phase that the Deputy of each partition runs by its own FT (R279). -/
  deputies : NMap (Nat × Nat) := []
  /-- Partitions whose transit clock stands in a droop hold (R287, R299). -/
  transitHold : List Nat := []
  /-- Tick of the last write of HF_SCHED_TALLY (the model's own). -/
  schedAt : Nat := 0
  /-- HF_SCHED_TALLY before that write (the model's own). -/
  schedPrev : Nat := 0
  /-- The external reference: value and tick expected, edges accepted and rejected in a row, lock (R275, R278). -/
  pps : Pps := {}
  /-- Tick of the last good sync (R276). -/
  syncAt : Nat := 0
  /-- Slacks to be computed (R439). -/
  slackRuns : List SlackRun := []
  /-- Slacks of the phases ended in the broker's period (R439, R441). -/
  slacks : List (Nat × Int) := []
  /-- Class S rows on their way (R308, R309). -/
  bulk : List BulkRow := []
  /-- Sequence number of the next such row (R309; log 67). -/
  bulkSeq : Nat := 0
  /-- What the paths being recomputed avoid (R316). -/
  netWant : NetMap := {}
  /-- Fabric ports: message queues, unacknowledged and held flits, credits, handshake (R327 to R339; log 68). -/
  ports : NMap Port := []
  /-- Flits the ports have put on the lines, oldest first (R327; the model's own). -/
  wire : List WireFlit := []
  /-- Link-state database (R339). -/
  lsdb : List LsdbEntry := []
  /-- Sequence number of the module's last link-state advertisement (R339). -/
  lsaSeq : Nat := 0
  /-- Tick of that advertisement (R339). -/
  lsaAt : Nat := 0
  /-- Certificate chains verified, by serial number (R338). -/
  certs : List (Nat × List Nat) := []
  /-- Tick at which a booking's CONFIRM was sent (R344). -/
  bookAt : NMap Nat := []
  /-- First calendar slot of a booking that no accepted transfer has taken (R346). -/
  taken : NMap Nat := []
  /-- Next transfer number of a booking (R347). -/
  xferNext : NMap Nat := []
  /-- Offers made and not yet taken (R346). -/
  offers : List Offer := []
  /-- Transfers accepted at their source (R346 to R348). -/
  transfers : List Transfer := []
  /-- Status and subcode that the last transfer of each booking ended with (R348). -/
  xferEnds : NMap (Nat × Nat) := []
  /-- Transfers arriving (R347, R371). -/
  incoming : List Incoming := []
  /-- Number of the next offer (the model's own). -/
  offerNext : Nat := 0
  /-- Time-master election (R276). -/
  elect : Elect := {}
  /-- Messages in the landing slots (R371, R372). -/
  lands : NMap Land := []
  /-- Collectives that run, by partition (R353 to R374). -/
  colls : NMap Coll := []
  /-- Lamps in the bays, with what their secure elements hold (R378 to R389; log 5). -/
  lamps : NMap Lamp := []
  /-- Lines of HBM the host holds, in the order tracked (R407). -/
  tracked : List Tracked := []
  /-- Back-invalidates sent and not answered (R407, R408). -/
  snoops : List Snoop := []
  /-- Lines whose snoop was not answered in time (R408). -/
  snoopDead : List Nat := []
  /-- Completion of the host's last access (R399, R402, R405; the model's own). -/
  reply : Option Reply := none
  /-- Payload window of the mailbox (R417; log 5). -/
  mbox : Store := {}
  /-- Base of the committed HDM decoder (R405; log 5). -/
  hdmBase : Nat := 0
  /-- IDE keys by stream (R411). -/
  ideKeys : NMap (List Nat) := []
  /-- Power manager: pacing, contract, broker election and members, throttled sensors, coolant (R435 to R450). -/
  power : Power := {}
  /-- Sampled commands with their captures (R453 to R463). -/
  samples : List Sample := []
  /-- Value of each core's sampling generator (R453). -/
  genState : NMap Nat := []
  /-- Which seed the generators run from; each change of layout takes a fresh one (R453; log 111). -/
  genSeed : Nat := 0
  /-- Canary runs (R467 to R471). -/
  canaries : List Canary := []
  /-- Core that the schedule of canaries comes to next (R467; log 117). -/
  canaryNext : Nat := 0
  /-- Start of the current cycle of canaries (R467). -/
  canaryCycle : Nat := 0
  /-- Power-on times of the transients of each core (R464). -/
  transientTimes : NMap (List Nat) := []
  /-- Fault reports that wait for the log (R472, R473). -/
  reports : List Report := []
  /-- Number of the next fault report. -/
  reportCount : Nat := 0
  /-- The fault log in flash (R473; log 5). -/
  log : List Report := []
  /-- The retirement record in flash (R18, R465; log 5). -/
  retireFlash : List (Nat × Nat) := []
  /-- Retirements not yet in flash (R465). -/
  retirePend : List (Nat × Nat × Nat) := []
  /-- Soft-repair entries for the next boot (R199). -/
  softRepair : List (Nat × Nat) := []
  /-- Resets that run (R488 to R491). -/
  resets : List ResetRun := []
  /-- Board pins and power sequencing (R522 to R528; log 5). -/
  board : Board := {}
  /-- Whether the coming boot follows a power-on (and not a module reset) (R482). -/
  firstBoot : Bool := true
  /-- Flash and fuses besides logs, records and firmware (R485, R487, R500, R502, R520, R428, R445, R317; log 5). -/
  flash : Flash := {}
  /-- Ticks passed, whether FT runs or not (R445, R464; the model's own). -/
  up : Nat := 0
  /-- `up` at the last power-on (the model's own). -/
  onAt : Nat := 0
  /-- A layout load written before READY is held (R483). -/
  heldLoad : Bool := false
  /-- `up` at the start of the boot. -/
  bootAt : Nat := 0
  /-- The memory test of this boot is still due (R485). -/
  testDue : Bool := true
  /-- Energy totals as flash held them at power-on (R445; log 5). -/
  lifeBase : List Nat := [0, 0, 0, 0, 0, 0, 0, 0, 0, 0]
  /-- Power-on seconds as flash held them at power-on (R445; log 5). -/
  secBase : Nat := 0
  /-- A device compute reset waits for an activation to end (R507). -/
  resetWaits : Bool := false
  /-- Both copies of every firmware component in flash, as far as written (R497 to R499; log 121). -/
  fw : Store := {}
  /-- Copies that have been written since delivery (R504; the model's own). -/
  fwWritten : List Nat := []
  /-- Components written since the last switch (R504, R505). -/
  fwFresh : List Nat := []
  /-- Whether the staging in progress came by the mailbox (R504, R513). -/
  mboxStage : Bool := false
  /-- The accepted activation (R506, R507). -/
  act : Option Activation := none
  /-- The rolling microcode update (R509 to R511). -/
  roll : Option Roll := none
  /-- Tick of the last watchdog restart of each management processor (R514). -/
  mpRestart : List (Option Nat) := [none, none]
  /-- The PLDM update in progress (R513). -/
  pldm : Option Pldm := none
  /-- SPDM connections over DOE and over MCTP (R517). -/
  spdm : List Spdm := [{}, {}]
  /-- Secured sessions (R517). -/
  sessions : List Session := []
  /-- Number of the next session (R517; the model's own). -/
  sessionNext : Nat := 0
  /-- Signatures made (R520; the model's own). -/
  signatures : Nat := 0
  /-- Messages sent to management requesters, oldest first (R410, R517; the model's own). -/
  mgmt : List MgmtOut := []
  /-- Fuses blown at final test (R17, R20; log 142). -/
  fuses : Fuses := {}
  /-- Physical units that repair leaves unused, by partition (R19). -/
  spares : NMap Spares := []
  /-- Number of the next free value (the model's own; log 9). -/
  freeCtr : Nat := 0
  /-- Commands that wait, first in first out (the model's own). -/
  pending : List Instr := []
  deriving DecidableEq, Repr

/-- Why a step could stop with a fault: no event of this block stops, so there is no reason. Log: 4 (DEDUCED). -/
inductive Fault where
  deriving DecidableEq, Repr

/-- Why a step is refused. Log: 4 (DEDUCED). -/
inductive Refusal where
  /-- Raised by `exec` alone, for an event without a meaning yet; safe, since nothing is claimed of the event. -/
  | notModelled (mnemonic : String)
  deriving DecidableEq, Repr

/-- The machine after reset. Log: 3 (DESIGN CHOICE), 5 (DESIGN CHOICE). -/
def State.reset : State := {}
end Sys2Proof.Machine
end

