-- ==== Sys2Proof/Machine/Store.lean ====
section
/-! DEFINITION. Finite maps and stores of bytes: the named operations every memory of the block is read and written by. -/

namespace Sys2Proof.Machine

/-- Value of a key, if listed. -/
def mget {ν : Type} : NMap ν → Nat → Option ν
  | [], _ => none
  | (k, v) :: r, a => if a == k then some v else mget r a

/-- Value of a key, or a default. -/
def mgetD {ν : Type} (m : NMap ν) (a : Nat) (d : ν) : ν := (mget m a).getD d

/-- List a key with a value, in rising order of keys. -/
def mput {ν : Type} : NMap ν → Nat → ν → NMap ν
  | [], a, x => [(a, x)]
  | (k, v) :: r, a, x =>
    if a < k then (a, x) :: (k, v) :: r else if a == k then (a, x) :: r else (k, v) :: mput r a x

/-- Take a key out of the list. -/
def mdel {ν : Type} (m : NMap ν) (a : Nat) : NMap ν := m.filter (fun e => e.1 != a)

/-- List a key unless its value is the default of an unlisted key. -/
def mputD {ν : Type} [DecidableEq ν] (m : NMap ν) (a : Nat) (x d : ν) : NMap ν :=
  if x == d then mdel m a else mput m a x

/-- Take out every key that meets `p`. -/
def mdrop {ν : Type} (p : Nat → Bool) (m : NMap ν) : NMap ν := m.filter (fun e => !p e.1)

/-- Keys strictly rising. -/
def rising {ν : Type} : NMap ν → Bool
  | [] => true
  | [_] => true
  | a :: b :: r => decide (a.1 < b.1) && rising (b :: r)

/-- The undefined range an address lies in, if it lies in one. -/
def Store.openAt (st : Store) (a : Nat) : Option (Nat × Nat × Nat) :=
  st.undef.find? (fun r => decide (r.1 ≤ a) && decide (a < r.2.1))

/-- What an unlisted address reads as: 0 (R174, R486), or a free value where the spec defines no content. Log: 7 (DESIGN CHOICE). -/
def Store.dflt (st : Store) (a : Nat) : Byte :=
  match st.openAt a with
  | none => 0
  | some r => Config.residue r.2.2 a

/-- Read one byte. Log: 7 (DESIGN CHOICE). -/
def Store.rd (st : Store) (a : Nat) : Byte := mgetD st.cells a (st.dflt a)

/-- Write one byte, keeping the canonical form: a listed byte never equals a known default. -/
def Store.wr (st : Store) (a : Nat) (v : Byte) : Store :=
  { st with cells := if (st.openAt a).isNone && v == 0 then mdel st.cells a else mput st.cells a v }

/-- Read `n` bytes. -/
def Store.rdN (st : Store) (a n : Nat) : List Byte := (List.range n).map (fun i => st.rd (a + i))

/-- Write bytes from an address on, without regard to check bits. -/
def Store.wrRaw : Store → Nat → List Byte → Store
  | st, _, [] => st
  | st, a, b :: r => (st.wr a b).wrRaw (a + 1) r

/-- First byte and length of what one code covers around sector `k` (R195): the sector, or its 64-byte line of HBM. -/
def Store.unit (st : Store) (k : Nat) : Nat × Nat := if 32 * k < st.lines then (64 * (k / 2), 64) else (32 * k, 32)

/-- `n` bytes from `a` on cover the code's unit around sector `k` whole. -/
def Store.covers (st : Store) (a n k : Nat) : Bool :=
  decide (a ≤ (st.unit k).1) && decide ((st.unit k).1 + (st.unit k).2 ≤ a + n)

/-- `n` bytes from `a` on touch the code's unit around sector `k`. -/
def Store.touches (st : Store) (a n k : Nat) : Bool :=
  decide (a < (st.unit k).1 + (st.unit k).2) && decide ((st.unit k).1 < a + n)

/-- Fresh check bits for every sector or line that `n` bytes from `a` on cover whole, which removes any error in it (R195). -/
def Store.clean (st : Store) (a n : Nat) : Store :=
  { st with bad := st.bad.filter (fun k => !st.covers a n k), weak := st.weak.filter (fun k => !st.covers a n k) }

/-- Write bytes; every sector or line written whole gets fresh check bits (R195). -/
def Store.wrN (st : Store) (a : Nat) (l : List Byte) : Store := (st.wrRaw a l).clean a l.length

/-- Little-endian number of `n` bytes (R6). -/
def Store.rdLE (st : Store) (a n : Nat) : Nat := leNat (st.rdN a n)

/-- Write the `n` low bytes of a number, least significant first (R6). -/
def Store.wrLE (st : Store) (a n v : Nat) : Store := st.wrN a (leBytes n v)

/-- Whether `n` bytes from `a` on touch a sector or line with an uncorrectable error (R195). -/
def Store.hurt (st : Store) (a n : Nat) : Bool := st.bad.any (fun k => st.touches a n k)

/-- Sectors or lines that `n` bytes from `a` on touch and that a read corrects in flight (R195). Log: 159 (DEDUCED). -/
def Store.corrections (st : Store) (a n : Nat) : Nat :=
  ((st.weak.filter (fun k => st.touches a n k && !st.hurt (st.unit k).1 (st.unit k).2)).map (fun k => (st.unit k).1)).eraseDups.length

/-- Corrected data written back over a range (R196): no correctable error is left in it. -/
def Store.heal (st : Store) (a n : Nat) : Store := { st with weak := st.weak.filter (fun k => !st.touches a n k) }

/-- Cut a range out of the undefined ranges. -/
def cutOut (lo hi : Nat) : List (Nat × Nat × Nat) → List (Nat × Nat × Nat)
  | [] => []
  | (l, h, i) :: r =>
    let left := if l < lo then [(l, min h lo, i)] else []
    let right := if hi < h then [(max l hi, h, i)] else []
    if h ≤ lo || hi ≤ l then (l, h, i) :: cutOut lo hi r else left ++ right ++ cutOut lo hi r

/-- Write zeros with valid check bits over a range (R174, R486, R68, R96). -/
def Store.zero (st : Store) (lo hi : Nat) : Store :=
  { st with cells := mdrop (fun a => decide (lo ≤ a) && decide (a < hi)) st.cells, undef := cutOut lo hi st.undef,
            bad := st.bad.filter (fun k => !(decide (lo ≤ 32 * k) && decide (32 * k < hi))),
            weak := st.weak.filter (fun k => !(decide (lo ≤ 32 * k) && decide (32 * k < hi))) }

/-- Leave a range with a content the spec does not define, under an event's number. Log: 8 (DEDUCED). -/
def Store.forget (st : Store) (lo hi id : Nat) : Store :=
  { st with cells := mdrop (fun a => decide (lo ≤ a) && decide (a < hi)) st.cells,
            undef := (lo, hi, id) :: cutOut lo hi st.undef }

/-- The canonical form of a store (the memory's form says it of `cells`): keys strictly rising, and no listed byte is the
known default 0. -/
def Store.wf (st : Store) : Bool :=
  rising st.cells && st.cells.all (fun c => !((st.openAt c.1).isNone && c.2 == 0))

/-- The canonical form of a memory that nothing has left undefined. -/
def Memory.wf (m : Memory) : Bool := rising m && m.all (fun c => c.2 != 0)

end Sys2Proof.Machine
end

