-- ==== Sys2Proof/Machine/Ops.lean ====
section
/-! DEFINITION. The named operations over registers, time, tallies, interrupts, sticky records and fault reports that
every event uses. -/

namespace Sys2Proof.Machine

/-! ## Registers -/

/-- Key of register `i` of a name in the register map. -/
def regKey (r : RegName) (i : Nat) : Nat := i * 256 + r.ctorIdx
/-- Number of the name that a key is of. -/
def keyName (k : Nat) : Nat := k % 256
/-- Index of the register that a key is of. -/
def keyIdx (k : Nat) : Nat := k / 256

/-- Reset value of a register: the Reset column of its fields (R11), and the logical and global number in CORE_ID. Log: 5 (DESIGN CHOICE). -/
def regReset (r : RegName) (i : Nat) : BitVec 64 :=
  let base := r.flds.foldl (fun acc f => acc + f.rst * 2 ^ f.lo) 0
  match r with
  | .coreId => BitVec.ofNat 64 (i % 576 + i * 2 ^ 10)
  | _ => BitVec.ofNat 64 base

/-- The content of a register. -/
def State.reg (s : State) (r : RegName) (i : Nat) : Nat := (mgetD s.regs (regKey r i) (regReset r i)).toNat

/-- A register with a new content. -/
def State.setReg (s : State) (r : RegName) (i v : Nat) : State :=
  { s with regs := mputD s.regs (regKey r i) (BitVec.ofNat 64 v) (regReset r i) }

/-- The content of a field. -/
def State.rd (s : State) (f : Fld) (i : Nat) : Nat := bits (s.reg f.reg i) f.lo f.len

/-- A field with a new content; the register's other bits stand. -/
def State.wr (s : State) (f : Fld) (i v : Nat) : State :=
  s.setReg f.reg i (putBits (s.reg f.reg i) f.lo f.len v)

/-- Whether a one-bit field is 1. -/
def State.flag (s : State) (f : Fld) (i : Nat) : Bool := s.rd f i == 1

/-- A counter advanced, saturating at all ones (R61). -/
def State.inc (s : State) (f : Fld) (i : Nat) (d : Nat := 1) : State := s.wr f i (satAdd f.len (s.rd f i) d)

/-- A counter kept in units of `u`: what is left over is carried (Tables 3-14, 4-9, 4-10, 6-12, 10-10, 15-11). Log: 151 (DESIGN CHOICE). -/
def State.incUnit (s : State) (f : Fld) (i u d : Nat) : State :=
  let k := regKey f.reg i * 64 + f.lo
  let t := mgetD s.carry k 0 + d
  { (s.inc f i (t / u)) with carry := mputD s.carry k (t % u) 0 }

/-- Every register of a name back at its reset value. -/
def State.resetReg (s : State) (r : RegName) (i : Nat) : State :=
  { s with regs := mdel s.regs (regKey r i) }

/-- A fresh free value and the state whose counter has passed it. Log: 9 (DESIGN CHOICE). -/
def State.fresh (s : State) : Nat × State := (Config.free s.freeCtr, { s with freeCtr := s.freeCtr + 1 })

/-! ## Units and time -/

/-- Partition of a core (R15). -/
def partOf (g : Nat) : Nat := g / 576
/-- Logical number of a core (R15). -/
def logicalOf (g : Nat) : Nat := g % 576
/-- Logical cluster of a core within its partition (R15). -/
def cluOf (g : Nat) : Nat := g % 576 / 16
/-- Index of a core's cluster among the module's 288. -/
def cluIdx (g : Nat) : Nat := partOf g * 36 + cluOf g

/-- Unit codes of Table 8-10. -/
def unitEng (g e : Nat) : Nat := 4 * g + e
/-- Collective engine of partition `p`. -/
def unitColl (p : Nat) : Nat := 18432 + p
/-- Deputy of partition `p`. -/
def unitDeputy (p : Nat) : Nat := 18440 + p
/-- Partition block of `p`. -/
def unitPart (p : Nat) : Nat := 18448 + p
/-- Bench queue `4 b + e`. -/
def unitBench (b e : Nat) : Nat := 18456 + 4 * b + e
/-- Fabric port. -/
def unitPort (x : Nat) : Nat := 19480 + x
/-- Lamp bay. -/
def unitLamp (l : Nat) : Nat := 19544 + l
/-- HBM controller. -/
def unitHbm (h : Nat) : Nat := 19552 + h
/-- Shift sequencer. -/
def unitSeq : Nat := 19568
/-- Layout engine. -/
def unitLayout : Nat := 19569
/-- Power manager. -/
def unitPower : Nat := 19570
/-- Management firmware. -/
def unitFw : Nat := 19571

/-- FT with a unit's offset (R272): clusters are units 0 to 287, partitions 288 to 295. Log: 16 (DEDUCED). -/
def State.ftAt (s : State) (u : Nat) : Nat := ((s.ft : Int) + mgetD s.skew u 0).toNat
/-- Local FT of a core's cluster. -/
def State.ftCore (s : State) (g : Nat) : Nat := s.ftAt (cluIdx g)
/-- Local FT of a partition's transit domain. -/
def State.ftPart (s : State) (p : Nat) : Nat := s.ftAt (288 + p)
/-- Local FT of the unit of a unit code. -/
def State.ftUnit (s : State) (u : Nat) : Nat :=
  if u < 18432 then s.ftCore (u / 4) else if u < 18456 then s.ftPart (u % 8) else s.ft

/-- The queue's number in Table 8-10, which also indexes its registers. -/
def qUnit : QId → Nat
  | .core g e => unitEng g.val e.val
  | .coll p => unitColl p.val
  | .bench b e => unitBench b.val e.val

/-- Nanoseconds of power-on time over the module's life: the seconds flash held at the last power-on, and the time since. -/
def State.onNs (s : State) : Nat := s.secBase * 1000000000 + (s.up - s.onAt)

/-! ## Where a core stands -/

/-- The core is retired (R18). -/
def State.retired (s : State) (g : Nat) : Bool := s.flag F.coreId_retired g
/-- The core is fenced (R313). -/
def State.fenced (s : State) (g : Nat) : Bool := s.flag F.coreId_fenced g
/-- State of the core's cluster: 0 OFF, 1 SOFT_START, 2 ON, 3 DARK (Table 16-11). -/
def State.cluState (s : State) (c : Nat) : Nat := s.rd F.partPwrClu_state c
/-- The core's cluster runs. -/
def State.cluOn (s : State) (g : Nat) : Bool := s.cluState (cluIdx g) == 2
/-- The partition's transit rail is off: it is dark (R427), or the module is TRIPPED (R449). -/
def State.partDark (s : State) (p : Nat) : Bool := bitAt (s.rd F.hfPwrPart_dark 0) p || s.rd F.hfPwrTherm_state 0 == 2
/-- A running reset covers core `g` (R488). -/
def ResetRun.coversCore (r : ResetRun) (g : Nat) : Bool :=
  if r.kind == 0 then r.part == partOf g && r.target == logicalOf g
  else if r.kind == 1 then r.part == partOf g && r.target == cluOf g
  else if r.kind == 2 then r.part == partOf g
  else true
/-- A running reset covers the compute part of partition `p`. -/
def ResetRun.coversPart (r : ResetRun) (p : Nat) : Bool :=
  if r.kind == 2 then r.part == p else decide (3 ≤ r.kind)
/-- The core is in reset. -/
def State.coreInReset (s : State) (g : Nat) : Bool := s.resets.any (fun r => r.coversCore g)
/-- The partition's compute part is in reset. -/
def State.partInReset (s : State) (p : Nat) : Bool := s.resets.any (fun r => r.coversPart p)
/-- Physical cluster within its partition that logical cluster `c` of the module stands for (R17). -/
def State.physCluster (s : State) (c : Nat) : Nat := (mget s.fuses.clusters c).getD (c % 36)
/-- Physical core within its physical cluster that core `g` stands for (R17). -/
def State.physCore (s : State) (g : Nat) : Nat := (mget s.fuses.cores g).getD (g % 16)
/-- Physical slice that slice `i` of the four of an engine stands for, engines numbered as in Table 8-10 (R17). -/
def State.physSlice (s : State) (u i : Nat) : Nat := (mget s.fuses.slices (4 * u + i)).getD i
/-- The fuse repair map and the partition indices as numbers (R20, R477). -/
def State.repairMap (s : State) : List Nat :=
  s.fuses.dies.map (·.1) ++ (List.range 288).map s.physCluster ++ (List.range 4608).map s.physCore
    ++ (List.range 73728).map (fun k => s.physSlice (k / 4) (k % 4)) ++ s.fuses.rows
    ++ s.fuses.lanes.flatMap (fun e => e.1 :: e.2)
/-- What a cluster holds besides its registers. -/
def State.cluSt (s : State) (c : Nat) : Clu := mgetD s.clu c {}
/-- Store what a cluster holds. -/
def State.setClu (s : State) (c : Nat) (x : Clu) : State := { s with clu := mputD s.clu c x {} }
/-- The cluster's clock stands still: a droop hold (R287), or the stop of a frequency change (R292). -/
def State.clockStopped (s : State) (c : Nat) : Bool := (s.cluSt c).hold || (s.cluSt c).fchg.any (fun f => decide (1 ≤ f.stage))
/-- The regulator of cluster `c` receives a load-step notice: it keeps on what an earlier one less than 4,096 ticks before brought on (R430). Log: 143 (DEDUCED). -/
def State.notice (s : State) (c : Nat) : State :=
  let t := s.ftAt c
  let first := match (s.cluSt c).notice with
    | some (a, b) => if t < b + 4096 then a else t
    | none => t
  s.setClu c { s.cluSt c with notice := some (first, t) }
/-- Phases of the regulator of cluster `c` that are on: all working ones from 64 ticks after a notice until 4,096 ticks after the last;
at light load it may shed any but one (R430). Log: 143 (DEDUCED). -/
def State.phasesOn (s : State) (c : Nat) : Nat × State :=
  let n := countBelow 8 (fun i => bitAt (s.rd F.partPwrClu_phasesOk c) i)
  if (s.cluSt c).notice.any (fun x => decide (x.1 + 64 ≤ s.ftAt c) && decide (s.ftAt c < x.2 + 4096)) then (n, s)
  else (1 + s.fresh.1 % max 1 n, s.fresh.2)
/-- What the core has started can go on (R217): its rail is on, it is in no reset, and its partition is not dark. -/
def State.onLine (s : State) (g : Nat) : Bool := s.cluOn g && !s.coreInReset g && !s.partDark (partOf g)
/-- The core's engines advance: it is on line and its clock runs. -/
def State.runs (s : State) (g : Nat) : Bool := s.onLine g && !s.clockStopped (cluIdx g)
/-- The core is in service: on line, and neither retired nor fenced. -/
def State.alive (s : State) (g : Nat) : Bool := s.onLine g && !s.retired g && !s.fenced g

/-- Boot stage of Table 18-8. -/
def State.stage (s : State) : Nat := s.rd F.hfBootStatus_stage 0
/-- The module has reached READY and is not tripped (R482, R449). -/
def State.ready (s : State) : Bool := s.stage == 7 && s.rd F.hfPwrTherm_state 0 != 2

/-! ## Interrupts and tallies -/

/-- A message on a vector, or its pending bit while the vector is masked (R414). Log: 91 (PRESUMED). -/
def State.sendVector (s : State) (func vec : Nat) : State :=
  let k := func * 1024 + vec
  let e := mgetD s.msix k {}
  if e.mask then { s with msixPend := mput s.msixPend k true }
  else { s with sent := s.sent ++ [.msix func vec e.addr e.data] }

/-- An event of an interrupt source (R415): a source whose entry has `en` 0 drops it. Log: 135 (DEDUCED). -/
def State.raise (s : State) (src : Nat) : State :=
  if s.flag F.hfIntMap_en src then s.sendVector (s.rd F.hfIntMap_func src) (s.rd F.hfIntMap_vector src) else s

/-- A tally record stamped `ft` sets out for ring `ring` of partition `p` (R231); its source's count advances. Log: 34 (DEDUCED). -/
def State.tallyAt (s : State) (ft p ring unit event status lo hi : Nat) : State :=
  let q := mgetD s.seqs unit 0
  { s with seqs := mput s.seqs unit ((q + 1) % 256), msgNext := s.msgNext + 1,
           tallies := s.tallies ++ [{ part := p, ring := ring, ft := ft, unit := unit, event := event,
                                      status := status, seq := q, payLo := lo, payHi := hi, num := s.msgNext }] }

/-- A mark add sets out (R230). -/
def State.sendAdd (s : State) (a : MarkAdd) : State :=
  { s with msgNext := s.msgNext + 1, adds := s.adds ++ [{ a with num := s.msgNext }] }

/-- A unit has a message on its way that it sent before number `n`: it holds one at a time (R321). -/
def State.sentBefore (s : State) (unit n : Nat) : Bool :=
  s.adds.any (fun a => a.src == unit && decide (a.num < n)) || s.tallies.any (fun t => t.unit == unit && decide (t.num < n))

/-- A tally without a request goes to the fault_ring of a partition (R233). -/
def State.note (s : State) (p unit event lo hi : Nat) : State :=
  s.tallyAt (s.ftUnit unit) p (s.rd F.partTallyCtrl_faultRing p) unit event 0 lo hi

/-- The same tally to the fault_ring of every partition. Log: 34 (DEDUCED). -/
def State.noteAll (s : State) (unit event lo hi : Nat) : State :=
  loop 8 (fun p s => s.note p unit event lo hi) s

/-- The same tally to the fault_ring of each partition of a list. Log: 34 (DEDUCED). -/
def State.noteEach (s : State) (ps : List Nat) (unit event lo hi : Nat) : State :=
  ps.foldl (fun s p => s.note p unit event lo hi) s

/-! ## Sticky records (R470) -/

/-- Set a sticky bit of a core, cluster or partition record; a newly set bit raises source `72 + p`. -/
def State.stick (s : State) (f : Fld) (i p : Nat) : State :=
  if s.flag f i then s else (s.wr f i 1).raise (72 + p)

/-- First-error capture of a partition record. -/
def State.firstPart (s : State) (p bit core : Nat) : State :=
  if s.flag F.partErrFirstInfo_valid p then s
  else
    let s := s.wr F.partErrFirst_ft p (s.ftPart p)
    let s := s.wr F.partErrFirstInfo_bit p bit
    let s := s.wr F.partErrFirstInfo_core p core
    s.wr F.partErrFirstInfo_valid p 1

/-- Set a bit of PART_ERR_STICKY; `core` is the logical core involved, or 0x3FF. -/
def State.partErr (s : State) (p bit core : Nat) : State :=
  let f : Fld := ⟨.partErrSticky, bit, 1, .w1c, 0⟩
  (s.firstPart p bit core).stick f p p

/-- Set a bit of CORE_ERR_STICKY with its first-error capture; a newly set bit sets core_err of the partition. -/
def State.coreErr (s : State) (g bit eng opcode : Nat) : State :=
  let f : Fld := ⟨.coreErrSticky, bit, 1, .w1c, 0⟩
  let new := !s.flag f g
  let s :=
    if s.flag F.coreErrFirstInfo_valid g then s
    else
      let s := s.wr F.coreErrFirst_ft g (s.ftCore g)
      let s := s.wr F.coreErrFirstInfo_bit g bit
      let s := s.wr F.coreErrFirstInfo_engine g eng
      let s := s.wr F.coreErrFirstInfo_opcode g opcode
      s.wr F.coreErrFirstInfo_valid g 1
  let s := s.stick f g (partOf g)
  if new then s.partErr (partOf g) 0 (logicalOf g) else s

/-- Set a bit of HF_ERR_STICKY with its first-error capture; `stack` is the HBM stack of bits 0 and 1. -/
def State.hfErr (s : State) (bit stack : Nat) : State :=
  let f : Fld := ⟨.hfErrSticky, bit, 1, .w1c, 0⟩
  let s :=
    if s.flag F.hfErrFirstInfo_valid 0 then s
    else
      let s := s.wr F.hfErrFirst_ft 0 s.ft
      let s := s.wr F.hfErrFirstInfo_bit 0 bit
      let s := s.wr F.hfErrFirstInfo_stack 0 stack
      s.wr F.hfErrFirstInfo_valid 0 1
  s.wr f 0 1

/-! ## Fault reports (R472 to R475) -/

/-- CPER severity of a cause (Table 17-6). -/
def severityOf (cause : Nat) : Nat :=
  if cause == 0x02 || cause == 0x04 || cause == 0x05 || cause == 0x0A || cause == 0x0E then 2
  else if cause == 0x06 then 3
  else if cause == 0x0C || cause == 0x0D then 1
  else 0

/-- Module ID with its valid bit, as a report carries it (Table 17-7). -/
def State.moduleId (s : State) : Nat := s.rd F.hfVxId_id 0 + s.rd F.hfVxId_idValid 0 * 2 ^ 31

/-- Clock target of an operating point in MHz (Table 10-3). -/
def opMHz (op : Nat) : Nat := [1000, 1350, 1700, 1950, 2150, 2350, 2550, 2700].getD op 0

/-- A report of an event: the next number, the event's fields, and the module's and the unit's readings. -/
def State.report (s : State) (cause : Nat) (r : Report) : State :=
  let n := s.reportCount + 1
  let clu := cluIdx r.global
  let isCore := r.global != 0xFFFF
  let lay := s.active.getD {}
  let rep : Report :=
    { r with
      number := n, cause := cause, severity := severityOf cause, moduleId := s.moduleId,
      part := if isCore then partOf r.global else r.part,
      clu := if isCore then cluOf r.global else r.clu,
      core := if isCore then logicalOf r.global % 16 else r.core,
      temperature := if isCore then s.rd F.partPwrClu_temp clu else r.temperature,
      voltage := if isCore then s.rd F.partPwrClu_vout clu else r.voltage,
      frequency := if isCore then opMHz (s.rd F.cluOp_curOp clu) else r.frequency,
      point := if isCore then s.rd F.cluOp_curOp clu + s.rd F.cluOp_trim clu * 8 else r.point,
      layoutHash := lay.hash, layoutId := lay.id, manifest := s.rd F.hfFwStatus_manifestVersion 0 }
  { s with reportCount := n, reports := s.reports ++ [rep] }

/-- An empty report of a unit at its local FT. -/
def State.blank (s : State) (unit : Nat) : Report :=
  { number := 0, ft := s.ftUnit unit, cause := 0, severity := 0, unit := unit }

/-! ## Board outputs -/

/-- Bits 0 to 5 of alert_src (Table 20-9), each a function of registers. -/
def State.alertSrc (s : State) : Nat :=
  ofBool (s.reg .hfErrSticky 0 != 0)
  + 2 * ofBool (s.reg .hfPwrSticky 0 != 0)
  + 4 * ofBool ((List.range 8).any (fun p => s.reg .partErrSticky p != 0))
  + 8 * ofBool ((List.range 8).any (fun p => s.reg .partPwrSticky p != 0))
  + 16 * ofBool ((List.range 8).any (fun p => s.reg .lampSticky p != 0))
  + 32 * ofBool (s.rd F.hfPwrTherm_state 0 != 0)

/-- Whether ALERT_N is asserted (R524): an enabled source, or recovery mode. -/
def State.alertNow (s : State) : Bool :=
  (s.alertSrc &&& s.rd F.hfBoard_alertMask 0) != 0 || s.rd F.hfFwStatus_recovery 0 == 1

/-- Whether THERM_N is asserted (R524): the thermal state is TRIPPED. -/
def State.thermNow (s : State) : Bool := s.rd F.hfPwrTherm_state 0 == 2

/-- HF_BOARD's content as it follows from the pins and registers it reports (Table 20-9). Log: 110 (DEDUCED). -/
def State.boardWord (s : State) : Nat :=
  let w := s.reg .hfBoard 0
  let w := putBits w 5 1 (ofBool s.board.pwrEn)
  let w := putBits w 6 1 (ofBool s.thermNow)
  let w := putBits w 7 1 (ofBool s.alertNow)
  putBits w 24 6 s.alertSrc

/-- The board outputs follow the registers they are made of (R524, R534): the last act of every event. Log: 110 (DEDUCED). -/
def settle (s : State) : State :=
  let s := s.setReg .hfBoard 0 s.boardWord
  { s with board := { s.board with alert := s.rd F.hfBoard_alertN 0 == 1, therm := s.rd F.hfBoard_thermN 0 == 1 } }

/-- An event's outcome: its effect, and the board outputs that follow from it. Log: 2 (DESIGN CHOICE), 4 (DEDUCED). -/
def finish (s : State) : Host.Outcome State Fault Refusal := .next (settle s)

end Sys2Proof.Machine
end

