-- ==== Sys2Proof/Machine/Paths.lean ====
section
/-! DEFINITION. Paths of the bulk network (R300 to R305, R316 to R318) and what reserved routes hold of its ports and links. -/

namespace Sys2Proof.Machine

/-- A grid position: row and column (R175). -/
abbrev Pos := Nat × Nat

/-- Logical cluster of a position. -/
def posIdx (x : Pos) : Nat := 6 * x.1 + x.2
/-- Position of a logical cluster. -/
def posOf (c : Nat) : Pos := (c / 6, c % 6)

/-- Number of a router's port (Table 11-1): 0 N, 1 E, 2 S, 3 W, 4 more for the bypass in that direction, 8 Local, 9 Slice. The N
ports of row 0 lead to the inner links, E and W ports at the edge to the side links, S ports of row 5 to the outer-edge units (R300). -/
def portKey (p : Nat) (x : Pos) (port : Nat) : Nat := p * 4096 + posIdx x * 16 + port
/-- Number of die-to-die link `d` (Table 11-8) in the direction out of partition `p`. -/
def linkOut (p d : Nat) : Nat := p * 4096 + 3072 + d
/-- Number of inner link `c` in the direction into partition `p`. -/
def innerIn (p c : Nat) : Nat := p * 4096 + 3072 + 32 + c

/-- The position one step on in a direction. -/
def stepPos (x : Pos) (dir : Nat) : Pos :=
  if dir == 0 then (x.1 - 1, x.2) else if dir == 1 then (x.1, x.2 + 1) else if dir == 2 then (x.1 + 1, x.2) else (x.1, x.2 - 1)

/-- Whether a position of partition `p` has failed. -/
def NetMap.lost (n : NetMap) (p : Nat) (x : Pos) : Bool := bitAt (n.failed.getD p 0) (posIdx x)
/-- Whether partition `p` is dark. -/
def NetMap.isDark (n : NetMap) (p : Nat) : Bool := bitAt n.dark p
/-- Whether link `d` of partition `p` is down, as either of its ends has it (R312). -/
def NetMap.linkDown (n : NetMap) (p d : Nat) : Bool :=
  bitAt (n.down.getD p 0) d
  || (decide (d < 6) && bitAt (n.down.getD ((p + 7) % 8) 0) (d + 6))
  || (decide (6 ≤ d) && decide (d < 12) && bitAt (n.down.getD ((p + 1) % 8) 0) (d - 6))
/-- Whether link `d` of partition `p` runs at half width, as either of its ends has it (R311). -/
def NetMap.linkHalf (n : NetMap) (p d : Nat) : Bool :=
  bitAt (n.half.getD p 0) d
  || (decide (d < 6) && bitAt (n.half.getD ((p + 7) % 8) 0) (d + 6))
  || (decide (6 ≤ d) && decide (d < 12) && bitAt (n.half.getD ((p + 1) % 8) 0) (d - 6))

/-- Ports of a straight line from `x` to `t`, over the bypass link across a failed position (R316); the fuel is the line's length. -/
def walkLine (n : NetMap) (p : Nat) (t : Pos) (dir : Nat) : Nat → Pos → Option (List Nat)
  | 0, x => if x == t then some [] else none
  | f + 1, x =>
    if x == t then some []
    else
      let y := stepPos x dir
      if !n.lost p y then (walkLine n p t dir f y).map (fun l => portKey p x dir :: l)
      else if y == t then none
      else
        let z := stepPos y dir
        if n.lost p z then none else (walkLine n p t dir f z).map (fun l => portKey p x (dir + 4) :: l)

/-- A line along a row. -/
def walkRow (n : NetMap) (p : Nat) (x t : Pos) : Option (List Nat) := walkLine n p t (if x.2 ≤ t.2 then 1 else 3) 6 x
/-- A line along a column. -/
def walkCol (n : NetMap) (p : Nat) (x t : Pos) : Option (List Nat) := walkLine n p t (if x.1 ≤ t.1 then 2 else 0) 6 x

/-- `walk` of R303 in one order. -/
def walkOne (n : NetMap) (p : Nat) (x t : Pos) (colFirst : Bool) : Option (List Nat) :=
  let k := if colFirst then (t.1, x.2) else (x.1, t.2)
  if n.lost p x || n.lost p t || n.lost p k then none
  else
    match (if colFirst then walkCol n p x k else walkRow n p x k), (if colFirst then walkRow n p k t else walkCol n p k t) with
    | some a, some b => some (a ++ b)
    | _, _ => none

/-- `walk` with the other order where the path turns at a failed position (R316). -/
def walkDie (n : NetMap) (p : Nat) (x t : Pos) (colFirst : Bool) : Option (List Nat) :=
  match walkOne n p x t colFirst with
  | some l => some l
  | none => walkOne n p x t (!colFirst)

/-- A path through the Headframe (R303). -/
def hfPath (n : NetMap) (a b : Nat) (x t : Pos) (colFirst : Bool) : Option (List Nat) :=
  let c := if colFirst then x.2 else t.2
  if n.linkDown a (12 + c) || n.linkDown b (12 + c) || n.isDark a || n.isDark b then none
  else
    match walkDie n a x (0, c) colFirst, walkDie n b (0, c) t colFirst with
    | some l, some m => some (l ++ [portKey a (0, c) 0, linkOut a (12 + c), innerIn b c] ++ m)
    | _, _ => none

/-- Partitions a ring path passes, source first (R303): the shorter way, toward the next partition at a distance of 4. -/
def ringParts (a b : Nat) : List Nat :=
  let d := (b + 8 - a) % 8
  if d ≤ 4 then (List.range (d + 1)).map (fun i => (a + i) % 8) else (List.range (9 - d)).map (fun i => (a + 8 - i) % 8)

/-- The rest of a ring path from the partition `m` it is in, entered at `y` in row `r`. -/
def ringRest (n : NetMap) (next : Bool) (r : Nat) (t : Pos) (colFirst : Bool) : List Nat → Pos → Option (List Nat)
  | [], _ => none
  | [m], y => walkDie n m y t colFirst
  | m :: rest, y =>
    let eo := if next then 5 else 0
    let d := if next then 6 + r else r
    if n.linkDown m d then none
    else
      match walkDie n m y (r, eo) colFirst, ringRest n next r t colFirst rest (r, 5 - eo) with
      | some l, some k => some (l ++ [portKey m (r, eo) (if next then 1 else 3), linkOut m d] ++ k)
      | _, _ => none

/-- A path around the ring. -/
def ringPath (n : NetMap) (a b : Nat) (x t : Pos) (colFirst : Bool) : Option (List Nat) :=
  let ps := ringParts a b
  if ps.any n.isDark then none
  else ringRest n (decide ((b + 8 - a) % 8 ≤ 4)) (if colFirst then t.1 else x.1) t colFirst ps x

/-- First of several answers. -/
def firstSome {α : Type} : List (Option α) → Option α
  | [] => none
  | some x :: _ => some x
  | none :: r => firstSome r

/-- Ports and links of the path between two positions (R303, with R312, R316 and R318): none where no path is left. -/
def pathOf (n : NetMap) (a b : Nat) (x t : Pos) (colFirst viaHf : Bool) : Option (List Nat) :=
  let hf := [hfPath n a b x t colFirst, hfPath n a b x t (!colFirst)]
  if n.isDark a || n.isDark b then none
  else if a == b then firstSome (walkDie n a x t colFirst :: hf)
  else if viaHf then firstSome hf
  else firstSome (ringPath n a b x t colFirst :: hf)

/-- Partition and position of a route end (Table 9-8), with the roles that say which core holds an index. -/
def endPos (roles : NMap Role) (kind e : Nat) : Option (Nat × Pos) :=
  if kind == 0 then
    let g := bits e 0 13
    if g < 4608 then some (partOf g, posOf (cluOf g)) else none
  else if kind == 1 then
    (roles.find? (fun x => x.2.kind == 1 && x.2.bench == bits e 0 8 && x.2.index == bits e 8 13)).map
      (fun x => (partOf x.1, posOf (cluOf x.1)))
  else if kind == 2 then some (bits e 0 3, posOf (bits e 3 8 / 4))
  else none

/-- The path of traffic that no reserved route carries (R304): row first, around the ring to a neighbour and through the Headframe to any
other partition. -/
def defaultPath (n : NetMap) (a b : Nat × Pos) : Option (List Nat) :=
  let d := (b.1 + 8 - a.1) % 8
  pathOf n a.1 b.1 a.2 b.2 false (decide (1 < d) && decide (d < 7))

/-- Partition and position of a core. -/
def corePos (g : Nat) : Nat × Pos := (partOf g, posOf (cluOf g))

/-- Path of a route. -/
def routePath (n : NetMap) (roles : NMap Role) (r : Route) : Option (List Nat) :=
  match endPos roles r.srcKind r.src, endPos roles r.dstKind r.dst with
  | some a, some b => pathOf n a.1 b.1 a.2 b.2 (r.pathSel == 1) (r.via == 1)
  | _, _ => none

/-- Sixteenths a port or link may carry: 8 on a link at half width (R311). -/
def NetMap.room (n : NetMap) (k : Nat) : Nat :=
  let p := k / 4096
  let d := k % 4096
  if decide (3072 ≤ d) && (if d < 3072 + 32 then n.linkHalf p (d - 3072) else n.linkHalf p (12 + d - 3072 - 32)) then 8 else 16

/-- A path's reservation added to what ports and links carry; none where one would carry too much. Log: 50 (DEDUCED). -/
def addLoad (n : NetMap) (bw : Nat) : List Nat → NMap Nat → Option (NMap Nat)
  | [], m => some m
  | k :: r, m =>
    let v := mgetD m k 0 + bw
    if n.room k < v then none else addLoad n bw r (mput m k v)

/-- What the reserved routes of a list carry together; none where some port or link is overbooked or a path is missing. Log: 50 (DEDUCED), 162 (DESIGN CHOICE). -/
def loadAll (n : NetMap) (roles : NMap Role) : List Route → NMap Nat → Option (NMap Nat)
  | [], m => some m
  | r :: rest, m =>
    if !r.reserved then loadAll n roles rest m
    else
      match routePath n roles r with
      | none => none
      | some path =>
        match addLoad n r.bw path m with
        | none => none
        | some m => loadAll n roles rest m

/-- Whether every reserved route keeps its place under a set of roles (R265). Log: 50 (DEDUCED), 162 (DESIGN CHOICE). -/
def routesFit (n : NetMap) (roles : NMap Role) (rs : List Route) : Bool := (loadAll n roles rs []).isSome

/-- Reservations after paths change from `old` to `now` (R316): unchanged paths keep theirs, then each changed one in record order
keeps its own if it fits; the record numbers of those that lose it, with the sixteenths they held. -/
def degrade (old now : NetMap) (roles : NMap Role) (rs : List Route) : List Route × List (Nat × Nat) :=
  let idx := (List.range rs.length).zip rs
  let same := fun (r : Route) => routePath now roles r == routePath old roles r
  let base := idx.foldl (fun m x =>
    if x.2.reserved && same x.2 then ((routePath now roles x.2).bind (fun l => addLoad now x.2.bw l m)).getD m else m) []
  let out := idx.foldl (fun (acc : NMap Nat × List Route × List (Nat × Nat)) x =>
    let (m, keep, gone) := acc
    if !x.2.reserved || same x.2 then (m, keep ++ [x.2], gone)
    else
      match (routePath now roles x.2).bind (fun l => addLoad now x.2.bw l m) with
      | some m' => (m', keep ++ [x.2], gone)
      | none => (m, keep ++ [{ x.2 with reserved := false }], gone ++ [(x.1, x.2.bw)])) (base, [], [])
  (out.2.1, out.2.2)

end Sys2Proof.Machine
end

