-- ==== Sys2Proof/Machine/Mem.lean ====
section
/-! DEFINITION. Addresses and accesses of the memory hierarchy (chapter 7): the device physical map, tenancies,
uncorrectable errors, translation, the remote-data cache, back-invalidates and row accesses of a core. -/

namespace Sys2Proof.Machine

/-! ## The device physical address map (Table 7-2) -/

/-- Start of the shared-memory direct window. -/
def smBase : Nat := 0x10000000000
/-- Start of the shared-memory interleaved window. -/
def ilBase : Nat := 0x14000000000
/-- Start of the core-memory window. -/
def cmBase : Nat := 0x18000000000
/-- Shared memory of one partition, in bytes. -/
def smPart : Nat := 0x1B0000000
/-- One slice, in bytes. -/
def smSlice : Nat := 0x3000000
/-- Core memory of one core, in bytes. -/
def cmCore : Nat := 0x180000
/-- End of HBM. -/
def hbmEnd : Nat := 0x10000000000

/-- DPA of core-memory row `r` of core `g`. -/
def cmRow (g r : Nat) : Nat := cmBase + cmCore * g + 512 * r
/-- Canonical DPA of interleaved-window row `k` of partition `p`: row `k/144` of slice `k mod 144`. -/
def ilRow (p k : Nat) : Nat := smBase + smPart * p + smSlice * (k % 144) + 512 * (k / 144)

/-- The carve-out number `n` of a partition under the active layout (R189). -/
def State.carve (s : State) (p : Nat) : Nat :=
  match s.active with
  | none => 0
  | some l => l.carve.getD p 0

/-- Rows of a slice that have a DPA (R189). -/
def State.sliceRows (s : State) (p : Nat) : Nat := 98304 - 128 * s.carve p

/-- The one DPA a byte is held under: HBM and core memory as they are, shared memory by its direct window; none for a
DPA outside Table 7-2 or in the carve-out. -/
def State.resolve (s : State) (d : Nat) : Option Nat :=
  if d < hbmEnd then some d
  else if d < smBase then none
  else if d < smBase + 8 * smPart then
    let p := (d - smBase) / smPart
    let row := (d - smBase) % smPart % smSlice / 512
    if row < s.sliceRows p then some d else none
  else if d < ilBase then none
  else if d < ilBase + 8 * smPart then
    let p := (d - ilBase) / smPart
    let w := (d - ilBase) % smPart
    let k := w / 512
    if k / 144 < s.sliceRows p then some (ilRow p k + w % 512) else none
  else if d < cmBase then none
  else if d < cmBase + 4608 * cmCore then some d
  else none

/-- Whether HBM placement is LOCAL (R193, R406: MODULE until the interleave is fixed). -/
def State.hbmLocal (s : State) : Bool := s.flag F.hfLayoutStatus_hbmFixed 0 && !s.flag F.hfLayoutStatus_hbmMode 0

/-- The HBM stack of a DPA (R193). -/
def State.stackOf (s : State) (d : Nat) : Nat :=
  let gr := d / 4096
  if s.hbmLocal then 2 * (d / 0x2000000000) + gr % 2 else gr % 16

/-- The partition that owns a canonical DPA (R193, Table 7-2). -/
def State.ownerOf (s : State) (d : Nat) : Nat :=
  if d < hbmEnd then s.stackOf d / 2
  else if d < cmBase then (d - smBase) / smPart
  else (d - cmBase) / cmCore / 576

/-- The core whose core memory holds a canonical DPA. -/
def cmHolder (d : Nat) : Option Nat := if cmBase ≤ d then some ((d - cmBase) / cmCore) else none

/-- Tenancy number of a partition in the active layout (R243). -/
def State.tenancyOf (s : State) (p : Nat) : Option Nat :=
  match s.active with
  | none => none
  | some l => indexWhere (fun m => bitAt m p) l.tenancies

/-- Partitions of the tenancy a partition belongs to, as a mask; all of them while no layout is active (R260). -/
def State.tenancyMask (s : State) (p : Nat) : Nat :=
  match s.active with
  | none => 0xFF
  | some l => (l.tenancies.find? (fun m => bitAt m p)).getD 0

/-- A DPA an access of partition `p`'s tenancy may reach, in canonical form (R201, R260): subcode 3 otherwise. -/
def State.tenantDpa (s : State) (p d : Nat) : Option Nat :=
  match s.resolve d with
  | none => none
  | some c =>
    if c < hbmEnd && !(s.flag F.hfLayoutStatus_hbmFixed 0 && s.active.isSome) then none
    else if bitAt (s.tenancyMask p) (s.ownerOf c) then some c else none

/-! ## Uncorrectable errors (R195 to R197) -/

/-- Count and record an uncorrectable error in the store that holds a canonical DPA; a core memory's error sets cm_unc of
the core that holds it, with the engine and the opcode that read it. Log: 35 (DEDUCED). -/
def State.memUnc (s : State) (d : Nat) (eng : Nat := 0) (opcode : Nat := 0) : State :=
  let p := s.ownerOf d
  if d < hbmEnd then (s.inc F.hbmEcc_unc (s.stackOf d)).hfErr 0 (s.stackOf d)
  else
    match cmHolder d with
    | none => (s.inc F.partMemUncorr_smUnc p).partErr p 1 0x3FF
    | some h => ((s.inc F.partMemUncorr_cmUnc p).inc F.coreErrCount_unc h).coreErr h 0 eng opcode

/-- `k` errors corrected in flight in a read at a canonical DPA are counted (Tables 7-14 and 7-16). Log: 159 (DEDUCED). -/
def State.corrCount (s : State) (d k : Nat) : State :=
  if k == 0 then s
  else if d < hbmEnd then s.inc F.hbmEcc_corr (s.stackOf d) k
  else if d < cmBase then s.inc F.partMemCorr_smCorr (s.ownerOf d) k
  else s.inc F.partMemCorr_cmCorr (s.ownerOf d) k

/-- A read of `n` bytes of memory from a canonical DPA on corrects what it can in flight, and counts it (R195). Log: 159 (DEDUCED). -/
def State.corr (s : State) (d n : Nat) : State := s.corrCount d (s.mem.corrections d n)

/-- The same for a read of core `g`'s private buffers (R120, R195). Log: 158 (DESIGN CHOICE). -/
def State.corrBuf (s : State) (g a n : Nat) : State :=
  let k := s.bufs.corrections a n
  if k == 0 then s else s.inc F.partMemCorr_cmCorr (partOf g) k

/-- Store code of a report's detail (R473): 0 core memory, 1 shared memory, 2 HBM. -/
def storeCode (d : Nat) : Nat := if d < hbmEnd then 2 else if d < cmBase then 1 else 0

/-- A soft-repair entry for a row, to take effect at the next boot (R199); an entry already there stays one. Log: 35 (DEDUCED). -/
def State.softEntry (s : State) (d : Nat) : State :=
  let row := d / 512
  if s.softRepair.any (fun e => e.1 == row) then s
  else
    let s := { s with softRepair := s.softRepair ++ [(row, 0)] }
    if d < hbmEnd then s else s.wr F.partMemRepair_pending (s.ownerOf d) 1

/-- The first of `k` rows from a canonical DPA on that holds an uncorrectable error. Log: 36 (DEDUCED). -/
def State.hurtRow (s : State) (d k : Nat) : Nat :=
  (((List.range k).map (fun i => d + 512 * i)).find? (fun r => s.mem.hurt r 512)).getD d

/-- An engine of core `g` has met a row with an uncorrectable error: the records of the store and of the reader, the soft-repair entry and
the fault report (R197, R199, R472). A row that only cannot be reached (R317, R408, R427) holds no error: its store records none. Log: 35 (DEDUCED). -/
def State.engUnc (s : State) (g eng opcode d : Nat) : State :=
  let s := if s.mem.hurt d 512 then (s.memUnc d eng opcode).softEntry d else s
  let own := cmHolder d == some g
  let s := if own then s else (s.inc F.coreErrCount_unc g).coreErr g 2 eng opcode
  s.report 0x03 { s.blank (unitEng g eng) with
    global := g, engine := eng, opcode := opcode, detail := [storeCode d, d] }

/-- An uncorrectable error in the core's own buffers or row stage: buf_unc, and the transient count (R465). Log: 35 (DEDUCED). -/
def State.bufUnc (s : State) (g eng opcode a : Nat) : State :=
  let s := (s.inc F.partMemUncorr_cmUnc (partOf g)).inc F.coreErrCount_unc g
  let s := s.coreErr g 1 eng opcode
  let s := { s with transientTimes := mput s.transientTimes g (mgetD s.transientTimes g [] ++ [s.onNs]) }
  let s := s.inc F.coreErrCount_transients g
  s.report 0x03 { s.blank (unitEng g eng) with
    global := g, engine := eng, opcode := opcode, detail := [3, a % 2 ^ 20] }

/-! ## Private buffers of a core -/

/-- Address of a core's A buffer among the private buffers. -/
def abuf (g : Nat) : Nat := g * 2 ^ 20
/-- B buffer. -/
def bbuf (g : Nat) : Nat := g * 2 ^ 20 + 0x10000
/-- Row stage. -/
def stageBuf (g : Nat) : Nat := g * 2 ^ 20 + 0x20000
/-- Accumulator file. -/
def accf (g : Nat) : Nat := g * 2 ^ 20 + 0x40000
/-- Word `i` of an accumulator tile (R67). -/
def accWord (g t i : Nat) : Nat := accf g + 1024 * t + 4 * i

/-- Read a word of the accumulator file. -/
def State.accRd (s : State) (g t i : Nat) : Nat := s.bufs.rdLE (accWord g t i) 4
/-- Write a word of the accumulator file. -/
def State.accWr (s : State) (g t i v : Nat) : State := { s with bufs := s.bufs.wrLE (accWord g t i) 4 v }

/-! ## Memory that cannot be reached (R317, R318, R427) -/

/-- A row of a slice behind a failed router ends every access as an uncorrectable error (R317). -/
def State.sliceLost (s : State) (row : Nat) : Bool :=
  decide (smBase ≤ row) && decide (row < smBase + 8 * smPart)
    && bitAt (s.rd F.partNetRouter_failed (s.ownerOf row)) ((row - smBase) % smPart / smSlice / 4)

/-- A row of the shared memory or HBM of a dark partition: every access ends as an uncorrectable error (R427), behind the network's
NACK_FENCED (R318). Log: 37 (DEDUCED). -/
def State.homeDark (s : State) (row : Nat) : Bool := decide (row < cmBase) && s.partDark (s.ownerOf row)

/-! ## Translation (R201, R202) -/

/-- What a walk gives: a page (its base, its size as a shift, whether every entry allows writes), or a subcode of
MOV_XLATE, with 9 for an uncorrectable error in a table. -/
inductive Walk where
  | page (dpa shift : Nat) (writable : Bool)
  | fail (sub : Nat)
  deriving DecidableEq, Repr

/-- A table entry at a canonical DPA cannot be used: it holds an uncorrectable error, or it cannot be reached. -/
def State.tableLost (s : State) (ca : Nat) : Bool := s.mem.hurt ca 8 || s.homeDark ca || s.sliceLost ca

/-- The walk from a table at `tbl` over the levels given, root first (R201), and the canonical DPAs of the entries it read. -/
def State.walk (s : State) (p va : Nat) : List Nat → Nat → Bool → Walk × List Nat
  | [], _, _ => (.fail 4, [])
  | lv :: rest, tbl, w =>
    let ea := tbl + 8 * bits va (12 + 9 * lv) 9
    match s.resolve ea with
    | none => (.fail 3, [])
    | some ca =>
      if s.tableLost ca then (.fail 9, [ca])
      else
        let e := s.mem.rdLE ca 8
        let leaf := bitAt e 2
        let shift := 12 + 9 * lv
        let w := w && bitAt e 1
        if !bitAt e 0 then (.fail 1, [ca])
        else if bits e 3 9 != 0 || bits e 52 12 != 0 || (lv == 0 && !leaf) || (decide (3 ≤ lv) && leaf) then (.fail 4, [ca])
        else
          let d := bits e 12 40 * 4096
          if leaf && d % 2 ^ shift != 0 then (.fail 4, [ca])
          else if (s.tenantDpa p d).isNone then (.fail 3, [ca])
          else if leaf then (.page d shift w, [ca])
          else
            let r := s.walk p va rest d w
            (r.1, ca :: r.2)

/-- The walk of a virtual address in context `ctx` of partition `p`, and what it read; a context not allocated has no root (R201). -/
def State.walkCtx (s : State) (p ctx va : Nat) : Walk × List Nat :=
  match mget s.ctxs (p * 64 + ctx) with
  | none => (.fail 1, [])
  | some root =>
    match s.tenantDpa p root with
    | none => (.fail 3, [])
    | some _ => s.walk p va [4, 3, 2, 1, 0] root true

/-- An entry of a translation table or a page list that core `g` needs in partition `p` cannot be used: the sticky record of the reader
(Table 17-12), and, where it holds an error, what its store records, the soft-repair entry and the report (R197, R199, R472). Log: 35 (DEDUCED). -/
def State.tableUnc (s : State) (g p ca : Nat) : State :=
  let s := s.partErr p 4 (if g < 4608 then logicalOf g else 0x3FF)
  if s.mem.hurt ca 8 then
    ((s.memUnc ca).softEntry ca).report 0x03 { s.blank (unitPart p) with part := p, detail := [storeCode ca, ca] }
  else s

/-- What the reads of a walk leave: corrected errors counted (R195), and the records of an entry that could not be used. Log: 35 (DEDUCED). -/
def State.walkNote (s : State) (g p : Nat) (w : Walk × List Nat) : State :=
  let s := w.2.foldl (fun s ca => s.corr ca 8) s
  if w.1 == .fail 9 then (match w.2.getLast? with
    | some ca => s.tableUnc g p ca
    | none => s) else s

/-- The translation core `g` has cached for an address, if it has one; none in a context that is not allocated, where every translation
faults (R201). Log: 31 (DESIGN CHOICE). -/
def State.cached (s : State) (g p ctx va : Nat) : Option Walk :=
  if (mget s.ctxs (p * 64 + ctx)).isNone then none
  else
    (s.tlb.find? (fun e => e.core == g && e.ctxPart == p && e.ctx == ctx && e.va == va / 2 ^ e.shift)).map
      (fun e => .page e.dpa e.shift e.writable)

/-- The translation core `g` uses and the state after it: the walk's, or, where a cached translation differs from it, either
of the two, since the spec does not say how long a translation stays cached (R202). Invalid entries are never cached. Log: 31 (DESIGN CHOICE). -/
def State.translate (s : State) (g p ctx va : Nat) : Walk × State :=
  let w := s.walkCtx p ctx va
  let (r, s) := match s.cached g p ctx va with
    | none => (w.1, s.walkNote g p w)
    | some c => if c == w.1 then (c, s) else
        let (f, s) := s.fresh
        if f % 2 == 0 then (c, s) else (w.1, s.walkNote g p w)
  match r with
  | .page d sh wr =>
    let s := { s with tlb := s.tlb.filter (fun e => !(e.core == g && e.ctxPart == p && e.ctx == ctx && e.va == va / 2 ^ e.shift))
                              ++ [{ core := g, ctxPart := p, ctx := ctx, va := va / 2 ^ sh, shift := sh, dpa := d, writable := wr }] }
    (r, s)
  | .fail _ => (r, s)

/-- An access's outcome before its data: a canonical DPA, or the subcode of MOV_XLATE (9: uncorrectable table). -/
inductive Xlat where
  | ok (dpa : Nat)
  | fail (sub : Nat)
  deriving DecidableEq, Repr

/-- Translate for a row access: the page's DPA with the offset, in the tenancy (subcode 3) and, for a write, writable
(subcode 2). -/
def State.xlat (s : State) (g p ctx va : Nat) (write : Bool) : Xlat × State :=
  match s.translate g p ctx va with
  | (.fail k, s) => (.fail k, s)
  | (.page d sh w, s) =>
    if write && !w then (.fail 2, s)
    else
      match s.tenantDpa p (d + va % 2 ^ sh) with
      | none => (.fail 3, s)
      | some c => (.ok c, s)

/-! ## Remote-data cache (R189 to R191) -/

/-- Drop every line of a partition's cache; fills on their way install no line (R191). -/
def State.rdcInvalidate (s : State) (p : Nat) : State :=
  { s with rdc := s.rdc.filter (fun l => l.part != p),
           rdcFills := s.rdcFills.map (fun f => if f.part == p then { f with stale := true } else f) }

/-- Lines a partition's cache can hold: the rows of its carve-out (R189). Log: 32 (DEDUCED). -/
def State.rdcLines (s : State) (p : Nat) : Nat := 144 * 128 * s.carve p

/-- Data of a row as partition `p` reads it, and the state after: a remote row comes from its line when the cache holds one
(or from its home, where the spec leaves open whether a line that differs is still held), and a miss starts a fill. A line with an
uncorrectable error is dropped, fetched again and counted (R198). -/
def State.rdcRead (s : State) (p row : Nat) : List Byte × State :=
  let home := s.mem.rdN row 512
  if s.ownerOf row == p || decide (cmBase ≤ row) || s.rdcLines p == 0 then (home, s)
  else
    match s.rdc.find? (fun l => l.part == p && l.row == row) with
    | some l =>
      if l.bad then
        (home, { (s.inc F.partMemUncorr_rdcRefetch p) with
          rdc := s.rdc.filter (fun x => x != l), rdcFills := s.rdcFills ++ [{ part := p, row := row, data := home }] })
      else if l.data == home then (home, s)
      else
        let (f, s) := s.fresh
        (if f % 2 == 0 then l.data else home, s)
    | none => (home, { s with rdcFills := s.rdcFills ++ [{ part := p, row := row, data := home }] })

/-- A write by partition `p` updates a line that is present, or on its way, and never allocates one (R190). -/
def State.rdcWrite (s : State) (p row : Nat) (data : List Byte) : State :=
  { s with rdc := s.rdc.map (fun l => if l.part == p && l.row == row then { l with data := data, bad := false } else l),
           rdcFills := s.rdcFills.map (fun f => if f.part == p && f.row == row then { f with data := data } else f) }

/-! ## Tracked lines of the host (R407, R408) -/

/-- Whether a row holds a line the host must give up first: any tracked line for a write, one the host may hold exclusive
for a read. Log: 41 (DESIGN CHOICE). -/
def State.heldByHost (s : State) (row : Nat) (write : Bool) : List Nat :=
  if hbmEnd ≤ row then []
  else (s.tracked.filter (fun t => t.line * 64 / 512 * 512 == row && (write || t.excl))).map (·.line)

/-- A back-invalidate of a line is sent: BISnpInv or BISnpData. -/
def State.snoopLine (s : State) (l : Nat) (inv eng : Bool) : State :=
  let s := s.incUnit F.hfHdmSf_bisnpK 0 1024 1
  { s with snoops := s.snoops ++ [{ line := l, since := s.up, inv := inv, eng := eng }], sent := s.sent ++ [.bisnp l (!inv)] }

/-- Send the back-invalidates an access to a row needs, once each. Log: 41 (DESIGN CHOICE). -/
def State.snoop (s : State) (row : Nat) (write : Bool) : State :=
  (s.heldByHost row write).foldl (fun s l =>
    if s.snoops.any (fun x => x.line == l) then
      { s with snoops := s.snoops.map (fun (x : Snoop) => if x.line == l then { x with eng := true } else x) }
    else s.snoopLine l write true) s

/-- Whether a back-invalidate of the row has gone unanswered: the access ends as an uncorrectable error (R408). -/
def State.snoopLost (s : State) (row : Nat) : Bool := s.snoopDead.any (fun l => l * 64 / 512 * 512 == row)

/-! ## Refused rows -/

/-- Why a row does not answer: 2 fenced or unpowered core or dark partition (NACK_FENCED, R314, R318), 3 a unit in reset (NACK_RESET,
R491). Log: 37 (DEDUCED). -/
def State.nack (s : State) (g row : Nat) : Option Nat :=
  let p := s.ownerOf row
  if s.partDark p then some 2
  else
    match cmHolder row with
    | some h =>
      if h == g then none else if s.coreInReset h then some 3 else if s.fenced h || !s.cluOn h then some 2 else none
    | none =>
      if row < hbmEnd then none
      else if s.partInReset p && p != partOf g then some 3
      else none

/-! ## Paths of rows (R300, R304, R306, R308) -/

/-- Core `g` is the end of a route (R306). -/
def State.isEnd (s : State) (kind e g : Nat) : Bool :=
  (kind == 0 && bits e 0 13 == g)
  || (kind == 1 && (mget s.roles g).any (fun r => r.kind == 1 && r.bench == bits e 0 8 && r.index == bits e 8 13))

/-- The row at a canonical DPA lies at the end of a route (R306). -/
def State.rowIsEnd (s : State) (kind e d : Nat) : Bool :=
  match cmHolder d with
  | some h => s.isEnd kind e h
  | none => kind == 2 && decide (smBase ≤ d) && (d - smBase) / smPart == bits e 0 3 && (d - smBase) % smPart / smSlice == bits e 3 8

/-- The reserved route that carries rows between the engines of core `g` and the row at `d`: of the routes whose ends and direction
match, the one with the lowest record number, if it has not lost its reservation (R306, R316). -/
def State.routeFor (s : State) (g d : Nat) (read : Bool) : Option Route :=
  match s.active with
  | none => none
  | some l =>
    (l.routes.find? (fun (r : Route) =>
      if read then s.rowIsEnd r.srcKind r.src d && s.isEnd r.dstKind r.dst g
      else s.isEnd r.srcKind r.src g && s.rowIsEnd r.dstKind r.dst d)).filter (·.reserved)

/-- Classes of bulk packets (R308). -/
inductive BulkClass where
  | s | c | b
  deriving DecidableEq, Repr

/-- Class of a row between the mover of core `g` and the row at `d`: S on a reserved route, else B (Table 11-3). Log: 67 (DEDUCED). -/
def State.moverClass (s : State) (g d : Nat) (read : Bool) : BulkClass :=
  if cmHolder d != some g && decide (hbmEnd ≤ d) && (s.routeFor g d read).isSome then .s else .b

/-- A row that the mover of core `g` sends to `d` travels as Class S (R306, R308). Log: 67 (DEDUCED). -/
def State.classS (s : State) (g d : Nat) : Bool := s.moverClass g d false == .s

/-- Partition, position and router port at which a row leaves the network: the Local port of a core, the Slice port of a slice, or the S
port of row 5 that leads to an HBM controller (R300). Log: 140 (DESIGN CHOICE). -/
def State.rowPos (s : State) (d : Nat) : (Nat × Pos) × Nat :=
  match cmHolder d with
  | some h => (corePos h, 8)
  | none =>
    if d < hbmEnd then ((s.stackOf d / 2, (5, if s.stackOf d % 2 == 0 then 0 else 4)), 2)
    else ((s.ownerOf d, posOf ((d - smBase) % smPart / smSlice / 4)), 9)

/-- Ports and links that a row between core `g` and `d` passes under a map: its reserved route's, or those of its default path (R304);
what a read asks for travels as the data it returns (R306). Log: 140 (DESIGN CHOICE). -/
def State.rowPath (s : State) (n : NetMap) (g d : Nat) (read : Bool) : Option (List Nat) :=
  let (e, k) := s.rowPos d
  let a := corePos g
  let ends := [portKey a.1 a.2 8, portKey e.1 e.2 k]
  (match s.routeFor g d read with
   | some r => routePath n s.roles r
   | none => if read then defaultPath n e a else defaultPath n a e).map (fun l => ends ++ l)

/-- Link `d` of partition `p` trains at either of its ends (R310). -/
def State.linkTrains (s : State) (p d : Nat) : Bool :=
  let at_ := fun (p d : Nat) => s.rd F.partD2dLink_state (p * 18 + d) == 1
  at_ p d || (decide (d < 6) && at_ ((p + 7) % 8) (d + 6)) || (decide (6 ≤ d) && decide (d < 12) && at_ ((p + 1) % 8) (d - 6))

/-- The link of a port or link number trains. -/
def State.keyTrains (s : State) (k : Nat) : Bool :=
  let d := k % 4096
  decide (3072 ≤ d) && s.linkTrains (k / 4096) (if d < 3072 + 32 then d - 3072 else 12 + d - 3072 - 32)

/-- Traffic on a path waits: a link of it trains (R310), the transit clock of a partition it passes stands (R299), or it is being recomputed, and neighbours hold traffic toward what has failed
(R315), or no path is left. `f` gives the path under a map. Log: 140 (DESIGN CHOICE). -/
def State.pathHeld (s : State) (f : NetMap → Option (List Nat)) : Bool :=
  match f s.net with
  | none => true
  | some l => (s.net != s.netWant && f s.netWant != some l) || l.any (fun k => s.keyTrains k || s.transitHold.contains (k / 4096))

/-- A row between core `g` and `d` waits in the network, or behind the stopped clock of the core that holds it (R291). -/
def State.rowHeld (s : State) (g d : Nat) (read : Bool) : Bool :=
  cmHolder d != some g
  && ((cmHolder d).any (fun h => s.clockStopped (cluIdx h)) || s.pathHeld (fun n => s.rowPath n g d read))

/-! ## Row accesses -/

/-- What reading a row gives. -/
inductive RowRead where
  | data (l : List Byte)
  | wait
  | unc
  | net (sub : Nat)
  deriving DecidableEq, Repr

/-- Core `g` reads the row at a canonical DPA: it waits behind its fence (R313), may wait for the host, be refused by the network, or meet an
uncorrectable error; the state counts what it met. -/
def State.rowRead (s : State) (g row : Nat) : RowRead × State :=
  if s.fenced g && cmHolder row != some g then (.wait, s)
  else if s.homeDark row then (.unc, s.inc F.partNetErr_nacks (partOf g))
  else
  match s.nack g row with
  | some k =>
    (.net k, if k == 3 then s.inc F.partRstStat_absorbed (s.ownerOf row)
             else s.inc F.partNetErr_nacks (partOf g))
  | none =>
    if s.sliceLost row then (.unc, s)
    else if s.rowHeld g row true then (.wait, s)
    else if s.snoopLost row then (.unc, { s with snoopDead := s.snoopDead.filter (fun l => l * 64 / 512 * 512 != row) })
    else if !(s.heldByHost row false).isEmpty then (.wait, s.snoop row false)
    else if s.mem.hurt row 512 then (.unc, s)
    else
      let (l, s) := (s.corr row 512).rdcRead (partOf g) row
      (.data l, s)

/-- Core memory rows of a core's own, read by its engines. -/
def State.cmRead (s : State) (g r : Nat) : List Byte := s.mem.rdN (cmRow g r) 512

/-- Whether a row of a core's own memory holds an uncorrectable error. -/
def State.cmHurt (s : State) (g r : Nat) : Bool := s.mem.hurt (cmRow g r) 512

/-- Write a row of core memory, where the results of a sampled command are not locked (R459). -/
def State.cmWrite (s : State) (g r : Nat) (l : List Byte) : State :=
  { s with mem := s.mem.wrN (cmRow g r) l }

/-- Whether `n` bytes of memory from a canonical DPA on are results an Assay unit has locked (R459). Log: 160 (DEDUCED). -/
def State.lockedMem (s : State) (d n : Nat) : Bool :=
  s.samples.any (fun x => x.phase == .comparing && x.lockMem.any (fun r => decide (d < r.2) && decide (r.1 < d + n)))

/-- Whether `n` bytes of the private buffers are results an Assay unit has locked (R459). Log: 160 (DEDUCED). -/
def State.lockedBuf (s : State) (a n : Nat) : Bool :=
  s.samples.any (fun x => x.phase == .comparing && x.lockBuf.any (fun r => decide (a < r.2) && decide (r.1 < a + n)))

/-- What writing a row gives. -/
inductive RowWrite where
  | done
  | wait
  | unc
  | net (sub : Nat)
  deriving DecidableEq, Repr

/-- A whole row that core `g` has sent reaches its canonical DPA. -/
def State.rowPut (s : State) (g row : Nat) (l : List Byte) : RowWrite × State :=
  if s.homeDark row then (.unc, s.inc F.partNetErr_nacks (partOf g))
  else
  match s.nack g row with
  | some k =>
    (.net k, if k == 3 then s.inc F.partRstStat_absorbed (s.ownerOf row)
             else s.inc F.partNetErr_nacks (partOf g))
  | none =>
    if s.sliceLost row then (.unc, s)
    else if s.rowHeld g row false then (.wait, s)
    else if s.snoopLost row then (.unc, { s with snoopDead := s.snoopDead.filter (fun l => l * 64 / 512 * 512 != row) })
    else if !(s.heldByHost row true).isEmpty then (.wait, s.snoop row true)
    else if s.lockedMem row 512 then (.wait, s)
    else (.done, { (s.rdcWrite (partOf g) row l) with mem := s.mem.wrN row l })

/-- Core `g` writes a whole row at a canonical DPA; behind its fence it waits (R313). -/
def State.rowWrite (s : State) (g row : Nat) (l : List Byte) : RowWrite × State :=
  if s.fenced g && cmHolder row != some g then (.wait, s) else s.rowPut g row l

end Sys2Proof.Machine
end

