-- ==== Sys2Proof/Machine/HostGate.lean ====
section
/-! DEFINITION. What a function of the host reaches of BAR0 (R398 to R400, R483, R512, R535, R536), the host error counters
and log, and the access codes of registers (R8 to R10). -/

namespace Sys2Proof.Machine

/-- Number of a function in registers: 0 PF0, 1 + k VF k (Tables 15-10, 15-12). -/
def funcNum : Func → Nat
  | .pf0 => 0
  | .vf k => 1 + k.val

/-- The BAR0 address of register `i` of a name (R535, Tables 21-1 to 21-6). -/
def regAddr (r : RegName) (i : Nat) : Nat :=
  let f := r.info
  match f.blk with
  | .headframe => f.off + f.stride * i
  | .hbm => 0x1000000 + i * 0x10000 + f.off
  | .lamp => 0x1100000 + (i / f.count) * 0x1000 + f.off + f.stride * (i % f.count)
  | .port => 0x2000000 + (i / f.count) * 0x10000 + f.off + f.stride * (i % f.count)
  | .part => 0x20000000 + (i / f.count) * 0x4000000 + f.off + f.stride * (i % f.count)
  | .clu => 0x20000000 + (i / 36) * 0x4000000 + 0x100000 + (i % 36) * 0x10000 + f.off
  | .core => 0x20000000 + partOf i * 0x4000000 + 0x1000000 + logicalOf i * 0x10000 + f.off
  | .queue =>
    if i < 18432 then
      0x20000000 + partOf (i / 4) * 0x4000000 + 0x1000000 + logicalOf (i / 4) * 0x10000 + 0x1000 + (i % 4) * 0x100 + f.off
    else if i < 18440 then 0x20000000 + (i - 18432) * 0x4000000 + 0x70000 + f.off
    else 0x100000 + (i - 18456) / 4 * 0x400 + (i - 18456) % 4 * 0x100 + f.off

/-- The block, its number and the offset in it that an offset of BAR0 falls in (Tables 15-2, 15-3, 21-1); queue windows come first. -/
def placeAt (off : Nat) : List (Place × Nat × Nat) :=
  if off < 0x1000000 then
    if 0x100000 ≤ off && off < 0x140000 then [(.queue, 18456 + (off - 0x100000) / 0x100, off % 0x100)] else [(.headframe, 0, off)]
  else if off < 0x1100000 then [(.hbm, (off - 0x1000000) / 0x10000, off % 0x10000)]
  else if off < 0x1108000 then [(.lamp, (off - 0x1100000) / 0x1000, off % 0x1000)]
  else if 0x2000000 ≤ off && off < 0x2400000 then [(.port, (off - 0x2000000) / 0x10000, off % 0x10000)]
  else if 0x20000000 ≤ off && off < 0x40000000 then
    let p := (off - 0x20000000) / 0x4000000
    let l := off % 0x4000000
    if l < 0x100000 then [(.queue, 18432 + p, l - 0x70000), (.part, p, l)].filter (fun x => x.1 != .queue || decide (0x70000 ≤ l))
    else if l < 0x340000 then [(.clu, 36 * p + (l - 0x100000) / 0x10000, l % 0x10000)]
    else if 0x1000000 ≤ l && l < 0x3400000 then
      let g := 576 * p + (l - 0x1000000) / 0x10000
      let m := l % 0x10000
      [(.queue, 4 * g + (m - 0x1000) / 0x100, m % 0x100), (.core, g, m)].filter (fun x =>
        x.1 != .queue || (decide (0x1000 ≤ m) && decide (m < 0x1400)))
    else []
  else []

/-- Index of register `r` of a block at an offset in it. -/
def RegInfo.at_ (r : RegInfo) (unit off : Nat) : Option Nat :=
  if off < r.off then none
  else if r.stride == 0 then (if off == r.off then some (unit * r.count) else none)
  else
    let d := off - r.off
    if d % r.stride == 0 && decide (d / r.stride < r.count) then some (unit * r.count + d / r.stride) else none

/-- A queue has register `r` (Table 8-6): qBench lies in core queues, qMember in bench queues. -/
def queueHas (r : RegName) (u : Nat) : Bool := (r != .qBench || decide (u < 18432)) && (r != .qMember || decide (18456 ≤ u))

/-- The register at an offset of BAR0, with its index. -/
def regAt (off : Nat) : Option (RegName × Nat) :=
  (placeAt off).findSome? (fun x =>
    allRegs.findSome? (fun r =>
      if r.info.blk == x.1 && queueHas r x.2.1 then (r.info.at_ x.2.1 x.2.2).map (fun i => (r, i)) else none))

/-- Offset of the payload window (R417). Log: 94 (DEDUCED). -/
def payloadBase : Nat := 0x510000

/-- An offset in the payload window, which takes any width at any byte (Table 21-2). Log: 94 (DEDUCED). -/
def inPayload (off w : Nat) : Bool := decide (payloadBase ≤ off) && decide (off + w ≤ payloadBase + 65536)

/-- An access of `w` bytes at an offset breaks R7: its width is no register's, it is not aligned, or a register it touches has another
width. The payload window holds no register. -/
def breaksR7 (off w : Nat) : Bool :=
  !inPayload off w
  && (!(w == 4 || w == 8) || off % w != 0
  || (regAt off).any (fun x => x.1.info.width != 8 * w)
  || (w == 4 && off % 8 == 4 && (regAt (off - 4)).any (fun x => x.1.info.width == 64))
  || (w == 8 && (regAt off).isNone && (regAt (off + 4)).isSome))

/-- What a register belongs to: the partition whose tenancy reaches it, and its core or cluster. -/
structure Owner where
  part : Option Nat := none
  bench : Option Nat := none
  core : Option Nat := none
  clu : Option Nat := none
  deriving DecidableEq, Repr

/-- Owner of register `i` of a name. -/
def regOwner (r : RegName) (i : Nat) : Owner :=
  let f := r.info
  match f.blk with
  | .part => { part := some (i / f.count) }
  | .clu => { part := some (i / 36), clu := some i }
  | .core => { part := some (partOf i), core := some i }
  | .queue =>
    if i < 18432 then { part := some (partOf (i / 4)), core := some (i / 4) }
    else if i < 18440 then { part := some (i - 18432) }
    else { bench := some ((i - 18456) / 4) }
  | _ => {}

/-- Tenancy number a VF serves, if the VF and its tenancy exist (R394). -/
def State.vfTenancy (s : State) (k : Nat) : Option Nat :=
  if k < s.rd F.hfHostLink_vfs 0 then
    match s.active with
    | none => none
    | some l => if k < l.tenancies.length then some k else none
  else none

/-- Partition `p` is of the tenancy VF `k` serves. -/
def State.vfHasPart (s : State) (k p : Nat) : Bool :=
  match s.vfTenancy k, s.active with
  | some t, some l => bitAt (l.tenancies.getD t 0) p
  | _, _ => false

/-- Bench `b` of the active layout is of the tenancy VF `k` serves. -/
def State.vfHasBench (s : State) (k b : Nat) : Bool :=
  match s.vfTenancy k, s.active with
  | some t, some l => (l.benches[b]?).any (fun x => x.tenancy == t)
  | _, _ => false

/-- Functions a partition's block answers to. -/
def State.reaches (s : State) (f : Func) (o : Owner) : Bool :=
  match f with
  | .pf0 => true
  | .vf k =>
    match o.part, o.bench with
    | some p, _ => s.vfHasPart k.val p
    | none, some b => s.vfHasBench k.val b
    | none, none => false

/-- A capture of HF_HOST_ERRLOG while it holds none, with source 86 (Table 15-5). -/
def State.errlog (s : State) (addr func kind space : Nat) : State :=
  if s.flag F.hfHostErrlog_valid 0 then s
  else
    let s := s.wr F.hfHostErrlog_addr 0 addr
    let s := s.wr F.hfHostErrlog_func 0 func
    let s := s.wr F.hfHostErrlog_kind 0 kind
    let s := s.wr F.hfHostErrlog_space 0 space
    (s.wr F.hfHostErrlog_valid 0 1).raise 86

/-- An access outside a function's view: counted in denied and logged (R398). -/
def State.deny (s : State) (f : Func) (addr space : Nat) : State :=
  (s.inc F.hfHostErr_denied 0).errlog addr (funcNum f) 2 space

/-- An access to a unit in reset or dark: counted in ca and logged (R400, R403). -/
def State.abortAccess (s : State) (f : Func) (addr space : Nat) : State :=
  (s.inc F.hfHostErr_ca 0).errlog addr (funcNum f) 3 space

/-- Whether BAR0 blocks respond: management ready, or stopped after it (R482, R484). -/
def State.serves (s : State) : Bool := (4 ≤ s.stage && s.stage ≤ 8) && s.board.powered && s.board.perstN

/-- Whether a register answers in recovery mode (R512). -/
def answersInRecovery (r : RegName) : Bool :=
  r == .hfMboxCmd || r == .hfMboxStatus || r == .hfMboxBuf || r == .hfFwStatus || r == .hfBootStatus

/-- How an access to a register is answered. -/
inductive Gate where
  | ok
  | silent
  | denied
  | abort
  deriving DecidableEq, Repr

/-- The unit of a register is in reset, or its compute rail is dark or off (R400, R431). Log: 90 (DEDUCED). -/
def State.unitDown (s : State) (o : Owner) : Bool :=
  (match o.core with
   | some g => s.coreInReset g || s.cluState (cluIdx g) != 2
   | none => false)
  || (match o.clu with
      | some c => s.resets.any (fun r => (r.kind == 1 && r.part == c / 36 && r.target == c % 36) || r.coversPart (c / 36))
                  || s.cluState c != 2
      | none => false)
  || (match o.part with
      | some p => s.partDark p
      | none => false)

/-- R398 to R400, R483, R512 and R536 for one register and direction. Log: 87 (DEDUCED). -/
def State.gate (s : State) (f : Func) (r : RegName) (i : Nat) (write : Bool) : Gate :=
  let o := regOwner r i
  if s.stage == 9 && s.board.powered then (if answersInRecovery r && f == .pf0 then .ok else .silent)
  else if !s.serves then .silent
  else
    let copy := r == .partXltReq || r == .partXltArg0 || r == .partXltArg1
    let viewed :=
      if copy then (match f with
        | .pf0 => i % 2 == 0
        | .vf _ => i % 2 == 1 && s.reaches f o)
      else match r.info.reach with
        | .pf0 => f == .pf0
        | .vf => s.reaches f o
        | .vfRead => f == .pf0 || !write
    if !viewed then .denied else if s.unitDown o then .abort else .ok

/-- An offset without a register lies in the block of a unit that is in reset or dark (R400). -/
def State.offsetDown (s : State) (off : Nat) : Bool :=
  match (placeAt off).getLast? with
  | some (.part, p, _) => s.unitDown { part := some p }
  | some (.clu, c, _) => s.unitDown { part := some (c / 36), clu := some c }
  | some (.core, g, _) => s.unitDown { part := some (partOf g), core := some g }
  | _ => false

/-- An offset lies in the function's MSI-X table or pending-bit array (Table 15-2, R414). -/
def inMsix (f : Func) (off : Nat) : Bool :=
  let n := if f == .pf0 then 1024 else 128
  (decide (0x600000 ≤ off) && decide (off < 0x600000 + 16 * n)) || (decide (0x604000 ≤ off) && decide (off < 0x604000 + n / 8))

/-- An access of a function to an offset is outside its view (R398). -/
def State.outside (s : State) (f : Func) (off : Nat) (write : Bool) : Bool :=
  match regAt off with
  | some (r, i) => s.gate f r i write == .denied
  | none =>
    match f with
    | .pf0 => false
    | .vf k => !inMsix f off && !(decide (0x100000 ≤ off) && decide (off < 0x140000) && s.vfHasBench k.val ((off - 0x100000) / 0x400))
      && !(decide (0x20000000 ≤ off) && decide (off < 0x40000000) && s.vfHasPart k.val ((off - 0x20000000) / 0x4000000))

/-- Run a host access to a register through the gate. -/
def State.host (s : State) (f : Func) (r : RegName) (i : Nat) (write : Bool) (eff : State → State) : State :=
  match s.gate f r i write with
  | .ok => eff s
  | .silent => s
  | .denied => s.deny f (regAddr r i) 0
  | .abort => s.abortAccess f (regAddr r i) 0

/-- What a software write does to a field under its access code (Table 0-3, R8). -/
def Fld.softWrite (fl : Fld) (old v : Nat) : Nat :=
  let o := bits old fl.lo fl.len
  let n := bits v fl.lo fl.len
  match fl.acc with
  | .rw => putBits old fl.lo fl.len n
  | .w1c => putBits old fl.lo fl.len (o &&& (2 ^ fl.len - 1 - n))
  | .w1s => putBits old fl.lo fl.len (o ||| n)
  | .ro | .wo | .rc => old

/-- A register after a software write: each field by its access code, reserved bits as they are (R8, R10). -/
def softWrite (r : RegName) (old v : Nat) : Nat := r.flds.foldl (fun w fl => fl.softWrite w v) old

/-- A software write that has no effect beyond the register's own fields. -/
def State.softWr (s : State) (r : RegName) (i v : Nat) : State := s.setReg r i (softWrite r (s.reg r i) v)

/-- What a read returns of a field: WO fields read 0 (Table 0-3). -/
def softRead (r : RegName) (w : Nat) : Nat :=
  r.flds.foldl (fun acc fl => if fl.acc == .wo then putBits acc fl.lo fl.len 0 else acc) w

/-- A register after a software read: RC fields are cleared (R8, R61). -/
def afterRead (r : RegName) (w : Nat) : Nat :=
  r.flds.foldl (fun acc fl => if fl.acc == .rc then putBits acc fl.lo fl.len 0 else acc) w

end Sys2Proof.Machine
end

