-- ==== Sys2Proof/Machine/Rings.lean ====
section
/-! DEFINITION. Rings (R178 to R181): slots, pointers, waits in arrival order, timeouts and resets. -/

namespace Sys2Proof.Machine

/-- The ring of a number in a partition of the active layout. -/
def State.ringDef (s : State) (p n : Nat) : Option Ring :=
  match s.active with
  | none => none
  | some l => l.rings.find? (fun r => r.part == p && r.number == n)

/-- The core that holds index `i` of bench `b` now (R246, R266). -/
def State.memberOf (s : State) (b i : Nat) : Option Nat :=
  (s.roles.find? (fun e => e.2.kind == 1 && e.2.bench == b && e.2.index == i)).map (·.1)

/-- The core whose core memory holds a ring; none for a shared-memory ring (R249). -/
def State.ringCore (s : State) (r : Ring) : Option Nat :=
  if r.place == 0 then some (bits r.holder 0 13)
  else if r.place == 1 then s.memberOf (bits r.holder 0 8) (bits r.holder 8 13)
  else none

/-- Key of a ring's hardware state. -/
def ringKey (p n : Nat) : Nat := p * 4096 + n

/-- Hardware state of a ring (R178). -/
def State.ringSt (s : State) (p n : Nat) : RingState := mgetD s.rings (ringKey p n) {}

/-- Store a ring's hardware state. -/
def State.setRing (s : State) (p n : Nat) (r : RingState) : State :=
  { s with rings := mputD s.rings (ringKey p n) r {} }

/-- A slot's state. -/
def RingState.slot (r : RingState) (i : Nat) : Slot := mgetD r.slots i {}

/-- The slot at the pointer of a direction is in the state that direction needs: EMPTY and unclaimed to write, FULL and
unclaimed to read. -/
def RingState.ok (r : RingState) (write : Bool) : Bool :=
  if write then (let t := r.slot r.wp; !t.full && !t.claimed) else (let t := r.slot r.rp; t.full && !t.claimed)

/-- Claim the slot at the pointer; the pointer advances at the claim (R178). -/
def RingState.claim (r : RingState) (n : Nat) (write : Bool) : Nat × RingState :=
  let i := if write then r.wp else r.rp
  let t := r.slot i
  let r := { r with slots := mputD r.slots i { t with claimed := true } {} }
  (i, if write then { r with wp := (i + 1) % n } else { r with rp := (i + 1) % n })

/-- The slot's rows are written, or read: it becomes FULL, or EMPTY, and unclaimed (R178). -/
def State.ringRelease (s : State) (p n i : Nat) (write : Bool) : State :=
  let r := s.ringSt p n
  s.setRing p n { r with slots := mputD r.slots i { full := write, claimed := false } {} }

/-- Answer to an access that asks for a slot. -/
inductive RingGrant where
  | slot (i : Nat)
  | wait
  | fault
  deriving DecidableEq, Repr

/-- An access asks for its slot at tick `now` (R178, R179): a slot already claimed for it by RING_SLOT_CLAIM is taken; otherwise it
claims at once when no earlier access waits and the slot is in the needed state, faults in STRICT mode, or waits. -/
def State.ringAsk (s : State) (r : Ring) (write : Bool) (who : Who) (now : Nat) : RingGrant × State :=
  let mine := fun (w : RingWait) => w.part == r.part && w.ring == r.number && w.write == write && w.who == who
  let same := fun (w : RingWait) => w.part == r.part && w.ring == r.number && w.write == write && w.slot.isNone
  match s.ringWaits.find? mine with
  | some w =>
    match w.slot with
    | some i => (.slot i, { s with ringWaits := s.ringWaits.filter (fun x => !mine x) })
    | none => (.wait, s)
  | none =>
    let st := s.ringSt r.part r.number
    let resetting := s.ringResets.any (fun x => x == (r.part, r.number))
    if !resetting && !s.ringWaits.any same && st.ok write then
      let (i, st) := st.claim r.slots write
      (.slot i, s.setRing r.part r.number st)
    else if r.strict && !resetting then (.fault, s)
    else
      (.wait, { s with ringWaits := s.ringWaits ++ [{ part := r.part, ring := r.number, write := write, who := who, since := now }] })

/-- A slot claimed for an access that has to wait before it uses it stays that access's own. -/
def State.keepSlot (s : State) (r : Ring) (write : Bool) (who : Who) (now i : Nat) : State :=
  { s with ringWaits := s.ringWaits ++
      [{ part := r.part, ring := r.number, write := write, who := who, since := now, slot := some i }] }

/-- Core whose engine makes a ring access. -/
def Who.core : Who → Nat
  | .cmd q _ => q / 4
  | .gang g _ => g

/-- Tick at which a waiting access faults; none without a limit (R179). -/
def RingWait.deadline (w : RingWait) (r : Ring) : Option Nat := if r.timeout == 0 then none else some (w.since + r.timeout)

/-- DPA of a row of a ring slot (R250). -/
def State.ringRow (s : State) (r : Ring) (slot row : Nat) : Option Nat :=
  let k := r.first + slot * r.slotRows + row
  if r.place == 2 then some (ilRow r.part k) else (s.ringCore r).map (fun g => cmRow g k)

/-- A ring's slots EMPTY and unclaimed and its pointers at slot 0 (R181). -/
def State.ringClear (s : State) (p n : Nat) : State := s.setRing p n {}

/-- Every ring held by core memory of core `g` back at its start (R181, a reset of the unit holding it). -/
def State.ringsClearCore (s : State) (g : Nat) : State :=
  match s.active with
  | none => s
  | some l => (l.rings.filter (fun r => s.ringCore r == some g)).foldl (fun s r => s.ringClear r.part r.number) s

/-- Every shared-memory ring of a partition back at its start. -/
def State.ringsClearPart (s : State) (p : Nat) : State :=
  match s.active with
  | none => s
  | some l => (l.rings.filter (fun r => r.part == p && r.place == 2)).foldl (fun s r => s.ringClear r.part r.number) s

end Sys2Proof.Machine
end

