-- ==== Sys2Proof/Machine/Queues.lean ====
section
/-! DEFINITION. Command queues (chapter 8): header fields, fetch, checks, start conditions, completion, halts, stops,
discards, marks, tallies and bench queues. -/

namespace Sys2Proof.Machine

/-! ## Header fields (Table 8-1) -/

/-- Opcode of a command. -/
def Cmd.opcode (c : Cmd) : Nat := bits c.w0 0 8
/-- Fence scope. -/
def Cmd.fence (c : Cmd) : Nat := bits c.w0 8 3
/-- FT gate enabled. -/
def Cmd.gateEn (c : Cmd) : Bool := bitAt c.w0 11
/-- Signal even when LATE. -/
def Cmd.lateSignal (c : Cmd) : Bool := bitAt c.w0 12
/-- Completion tally requested. -/
def Cmd.tallyEn (c : Cmd) : Bool := bitAt c.w0 13
/-- Tally ring. -/
def Cmd.tallyRing (c : Cmd) : Nat := bits c.w0 14 3
/-- Mark wait enabled. -/
def Cmd.waitEn (c : Cmd) : Bool := bitAt c.w0 17
/-- Mark waited on. -/
def Cmd.waitMark (c : Cmd) : Nat := bits c.w0 18 12
/-- Mark signal enabled. -/
def Cmd.sigEn (c : Cmd) : Bool := bitAt c.w0 30
/-- Mark signalled. -/
def Cmd.sigMark (c : Cmd) : Nat := bits c.w0 31 12
/-- Amount added. -/
def Cmd.sigAdd (c : Cmd) : Nat := bits c.w0 43 8
/-- Bench-index substitution enabled. -/
def Cmd.subEn (c : Cmd) : Bool := bitAt c.w0 51
/-- Body word of the substituted field. -/
def Cmd.subWord (c : Cmd) : Nat := bits c.w0 52 2
/-- Lowest bit of the substituted field. -/
def Cmd.subLsb (c : Cmd) : Nat := bits c.w0 54 6
/-- Width minus 1 of the substituted field. -/
def Cmd.subWidth (c : Cmd) : Nat := bits c.w0 60 4
/-- Body word `i`, 0 for W4 to 3 for W7. -/
def Cmd.body (c : Cmd) (i : Nat) : Nat := [c.w4, c.w5, c.w6, c.w7].getD i 0

/-- A command from its 64 bytes (R209). -/
def Cmd.ofBytes (l : List Byte) : Cmd :=
  let w := fun i => leNat ((l.drop (8 * i)).take 8)
  { w0 := w 0, w1 := w 1, w2 := w 2, w3 := w 3, w4 := w 4, w5 := w 5, w6 := w 6, w7 := w 7 }

/-- Bench-index substitution (R225): the field becomes `(field + i_b) mod 2^w`. -/
def Cmd.substitute (c : Cmd) (i : Nat) : Cmd :=
  if !c.subEn then c
  else
    let w := c.subWidth + 1
    let f := fun x => putBits x c.subLsb w ((bits x c.subLsb w + i) % 2 ^ w)
    if c.subWord == 0 then { c with w4 := f c.w4 }
    else if c.subWord == 1 then { c with w5 := f c.w5 }
    else if c.subWord == 2 then { c with w6 := f c.w6 }
    else { c with w7 := f c.w7 }

/-! ## Queue registers -/

/-- Queue `u` is a core queue. -/
def isCoreQ (u : Nat) : Bool := decide (u < 18432)
/-- Queue `u` is a bench queue. -/
def isBenchQ (u : Nat) : Bool := decide (18456 ≤ u)
/-- Engine kind of a queue; 4 for a collective queue. -/
def kindOf (u : Nat) : Nat := if isCoreQ u then u % 4 else if isBenchQ u then (u - 18456) % 4 else 4
/-- Partition of a queue: a core's, a collective engine's, or ctx_part of a bench queue (R217, R233). -/
def State.queuePart (s : State) (u : Nat) : Nat :=
  if isCoreQ u then partOf (u / 4) else if isBenchQ u then s.rd F.qCtrl_ctxPart u else u - 18432

/-- What queue `u` holds besides its registers. -/
def State.q (s : State) (u : Nat) : Queue := mgetD s.queues u {}

/-- Whether a queue holds no command. -/
def Queue.quiet (q : Queue) : Bool := q.waiting.isEmpty && q.started.isEmpty && q.jump.isNone

/-- Store what queue `u` holds; its idle bit follows (Table 8-6). -/
def State.setQ (s : State) (u : Nat) (q : Queue) : State :=
  let s := { s with queues := mputD s.queues u q {} }
  s.wr F.qState_idle u (ofBool q.quiet)

/-- Queue state: 0 STOPPED, 1 RUNNING, 2 HALTED. -/
def State.qst (s : State) (u : Nat) : Nat := s.rd F.qState_state u
/-- The run field reads 1 exactly while the queue is RUNNING (R216). -/
def State.setQst (s : State) (u v : Nat) : State :=
  (s.wr F.qState_state u v).wr F.qCtrl_run u (ofBool (v == 1))
/-- A core queue in mode BENCH (R224). -/
def State.benchMode (s : State) (u : Nat) : Bool := isCoreQ u && s.flag F.qCtrl_mode u

/-- The bench queue that the queue of a member core belongs to, in either mode (R223, R226). -/
def State.benchOf (s : State) (u : Nat) : Option Nat :=
  if isCoreQ u && s.flag F.qBench_member u then some (unitBench (s.rd F.qBench_bench u) (u % 4)) else none

/-- Address context of a command: its bench queue's (R223), or its queue's own. -/
def State.cmdCtx (s : State) (u : Nat) (e : Entry) : Nat × Nat :=
  match e.bench with
  | some b => (b.ctxPart, b.ctx)
  | none => (s.queuePart u, s.rd F.qCtrl_ctx u)

/-- Core whose translation cache a queue uses; queues outside the cores have caches of their own. -/
def tlbCore (u : Nat) : Nat := if isCoreQ u then u / 4 else 4608 + u

/-- Clear the wait bits of STATE. Log: 43 (DEDUCED). -/
def State.clearWaits (s : State) (u : Nat) : State :=
  ((s.wr F.qState_markWait u 0).wr F.qState_gateWait u 0).wr F.qState_fenceWait u 0

/-! ## Marks (R227 to R230) -/

/-- Index of a mark's register. -/
def markIdx (p m : Nat) : Nat := p * 4096 + m
/-- Value of a mark. -/
def State.mark (s : State) (p m : Nat) : Nat := s.rd F.partMark_value (markIdx p m)
/-- Values of a mark since the host last set it, oldest first, with the stamps of what gave them. -/
def State.markHist (s : State) (i : Nat) : List (Nat × Nat) := mgetD s.markStamp i [(0, 0)]
/-- Apply an add to a mark, modulo 2^64, and keep the stamp of its message (R227, R237). -/
def State.markAdd (s : State) (a : MarkAdd) : State :=
  let i := markIdx a.part a.mark
  let v := (s.mark a.part a.mark + a.add) % 2 ^ 64
  { (s.wr F.partMark_value i v) with markStamp := mput s.markStamp i (s.markHist i ++ [(v, a.stamp)]) }
/-- Stamp of the add that satisfied a wait for `v`: the first of the latest run of values that reach it. -/
def satisfiedAt (v : Nat) (h : List (Nat × Nat)) : Nat :=
  ((h.reverse.takeWhile (fun e => decide (v ≤ e.1))).getLast?.map (·.2)).getD 0

/-- Signals of queue `u` whose earlier writes are complete and whose samples are closed set out (R229, R460). -/
def State.flushHeld (s : State) (u : Nat) : State :=
  let q := s.q u
  let undone := (q.started.filter (fun x => x.done.isNone)).map (·.id)
  let free := fun (h : HeldAdd) =>
    !h.after.any (fun i => undone.contains i)
    && !s.bulk.any (fun (b : BulkRow) => b.unit == u && h.rows.contains b.id)
    && !h.samples.any (fun i => s.samples.any (fun x => unitEng x.core x.eng == u && x.id == i))
  let s := s.setQ u { q with held := q.held.filter (fun h => !free h) }
  (q.held.filter free).foldl (fun s h => s.sendAdd h.add) s

/-- Commands of queue `u` with rows on the bulk network that are not acknowledged. -/
def State.cmdRows (s : State) (u : Nat) : List Nat := (s.bulk.filter (fun (b : BulkRow) => b.unit == u)).map (·.id)

/-- A mark signal of command `id` of queue `u` with release semantics. -/
def State.signal (s : State) (u id : Nat) (a : MarkAdd) : State :=
  let q := s.q u
  let after := (q.started.filter (fun x => x.done.isNone && decide (x.id < id))).map (·.id)
  let smp := (s.samples.filter (fun x => unitEng x.core x.eng == u && decide (x.id ≤ id))).map (·.id)
  (s.setQ u { q with held := q.held ++ [{ add := a, after := after, rows := s.cmdRows u, samples := smp }] }).flushHeld u

/-- An add a running command `id` of queue `u` sends of itself: it waits for the verdicts of the queue's sampled commands (R460), so
that no consumer ordered by marks reads results that are not checked. -/
def State.signalNow (s : State) (u id : Nat) (a : MarkAdd) : State :=
  let q := s.q u
  let smp := (s.samples.filter (fun x => unitEng x.core x.eng == u && decide (x.id ≤ id))).map (·.id)
  (s.setQ u { q with held := q.held ++ [{ add := a, after := [], samples := smp }] }).flushHeld u

/-! ## Discards and halts (R216, R217, R540) -/

/-- Discard the fetched commands that have not started; HEAD returns to the first of them, and with it the list it came from
when a JUMP has replaced that list since (R540). A core queue in mode BENCH discards nothing (R224). -/
def State.discard (s : State) (u : Nat) : State :=
  if s.benchMode u then s
  else
    let q := s.q u
    match q.waiting ++ q.jump.toList with
    | [] => s
    | e :: _ =>
      let s' := s.setQ u { q with waiting := [], jump := none }
      match (if e.gen == q.gen then none else q.left.find? (fun l => l.gen == e.gen)) with
      | none => s'.wr F.qHead_head u e.index
      | some l =>
        let s' := s'.wr F.qTail_pendTail u (s.rd F.qTail_tail u)
        let s' := s'.wr F.qTail_pendTag u (s.rd F.qCtrl_tag u)
        let s' := s'.wr F.qState_pendValid u 1
        let s' := s'.wr F.qBase_base u (bits l.base 9 48)
        let s' := s'.wr F.qCtrl_sizeLog2 u l.sizeLog2
        let s' := s'.wr F.qCtrl_tag u l.tag
        let s' := s'.wr F.qHead_head u e.index
        let s' := s'.wr F.qTail_tail u l.tail
        s'.setQ u { s'.q u with gen := l.gen, left := q.left.filter (fun x => decide (x.gen < l.gen)) }

/-- A queue becomes STOPPED as under R216: what has started goes on, what has not is discarded. -/
def State.stopQueue (s : State) (u : Nat) : State := ((s.discard u).setQst u 0).clearWaits u

/-- A core queue that is not RUNNING takes a mode; a change of mode empties its entries (R224). -/
def State.setMode (s : State) (u m : Nat) : State :=
  if s.rd F.qCtrl_mode u == m then s
  else
    let q := s.q u
    (s.setQ u { q with waiting := [], jump := none, left := [] }).wr F.qCtrl_mode u m

/-- Payload bytes 16 to 23 of a completion tally (R232). -/
def payload (index tag opcode sub : Nat) : Nat := index + tag * 2 ^ 16 + opcode * 2 ^ 32 + sub * 2 ^ 40

/-- Write a HALT record (Table 8-6). -/
def State.setHalt (s : State) (u status opcode sub index tag : Nat) : State :=
  let s := s.wr F.qHalt_status u status
  let s := s.wr F.qHalt_opcode u opcode
  let s := s.wr F.qHalt_subcode u sub
  let s := s.wr F.qHalt_index u index
  s.wr F.qHalt_htag u tag

/-- Payload of the QUEUE_HALT and QUEUE_RESUME tallies, from the HALT record (Table 8-11). -/
def State.haltPayload (s : State) (u : Nat) : Nat :=
  payload (s.rd F.qHalt_index u) (s.rd F.qHalt_htag u) (s.rd F.qHalt_opcode u) (s.rd F.qHalt_subcode u)

/-- QUEUE_HALT of one queue without what its bench queue does: discard, HALTED, the HALT record, the tally to the fault_ring of the
queue's partition, with the halt status (Table 8-9) and a stamp not below `at_`, and source 64 + p. -/
def State.haltOne (s : State) (u status opcode sub index tag hi : Nat) (at_ : Nat := 0) : State :=
  let s := s.discard u
  let s := (s.setQst u 2).clearWaits u
  let p := s.queuePart u
  let r := s.rd F.partTallyCtrl_faultRing p
  let s := (s.setHalt u status opcode sub index tag).setQ u { s.q u with haltHi := hi, haltPart := p, haltRing := r }
  (s.tallyAt (max (s.ftUnit u) at_) p r u 0x0200 (s.rd F.qHalt_status u) (s.haltPayload u) hi).raise (64 + p)

/-- QUEUE_RESUME: to the ring its QUEUE_HALT went to, with the same payload (R217). Log: 38 (DEDUCED). -/
def State.resumeNote (s : State) (u : Nat) : State :=
  let q := s.q u
  s.tallyAt (s.ftUnit u) q.haltPart q.haltRing u 0x0201 0 (s.haltPayload u) q.haltHi

/-- BENCH_QUEUE_HALT (R226): the bench queue of member core `g` stops broadcasting, enters HALTED, records the member and copies its HALT
record; a bench queue already HALTED keeps its first member. Its tally is stamped after the member's halt at tick `at_` (R237). -/
def State.benchHalt (s : State) (bu g mu : Nat) (at_ : Nat := 0) : State :=
  if s.qst bu == 2 then s
  else
    let s := s.wr F.qMember_hcore bu g
    let s := s.wr F.qMember_hvalid bu 1
    let s := s.wr F.qState_creditWait bu 0
    s.haltOne bu (s.rd F.qHalt_status mu) (s.rd F.qHalt_opcode mu) (s.rd F.qHalt_subcode mu)
      (s.rd F.qHalt_index mu) (s.rd F.qHalt_htag mu) (s.q mu).haltHi (max (s.ftUnit mu) at_ + 1)

/-- QUEUE_HALT (R217), with the bench queue of a member (R226). A queue already HALTED keeps its record. -/
def State.halt (s : State) (u status opcode sub index tag : Nat) (hi : Nat := 0) (at_ : Nat := 0) : State :=
  if s.qst u == 2 then s
  else
    let b := s.benchOf u
    let s := s.haltOne u status opcode sub index tag hi at_
    match b with
    | none => s
    | some bu => s.benchHalt bu (u / 4) u at_

/-- A halt that no command of the queue caused (R217): the record names the first command not started, or the next entry to
fetch, with the opcode of that entry where it has been fetched. A member queue's next entry is that of its bench queue's list. Log: 118 (DEDUCED). -/
def State.haltBare (s : State) (u status sub : Nat) : State :=
  let held := fun (v : Nat) => (s.q v).waiting ++ (s.q v).jump.toList
  let src := if (held u).isEmpty && s.benchMode u then (s.benchOf u).getD u else u
  match held src with
  | e :: _ => s.halt u status e.cmd.opcode sub e.index e.tag
  | [] => s.halt u status 0 sub (s.rd F.qHead_head src) (s.rd F.qCtrl_tag src)

/-! ## Completion (R221, R222, R229, R232) -/

/-- Statuses that halt the queue (Tables 3-9, 4-4, 6-8, 7-6, 8-7, 13-5). -/
def haltsQueue (st : Nat) : Bool :=
  st == 0x04 || st == 0x08 || st == 0x09 || st == 0x38 || st == 0x39 || (0x48 ≤ st && st ≤ 0x4E) || st == 0x53 || st == 0x58
  || (0x78 ≤ st && st ≤ 0x7C) || (0x88 ≤ st && st ≤ 0x8F)

/-- The engine's error register after a failing command (Tables 3-13, 4-6, 6-9, 7-8, 13-10). -/
def State.engErr (s : State) (u st opcode sub : Nat) : State :=
  let g := u / 4
  if st < 0x30 then s
  else if st < 0x40 then
    ((s.wr F.coreMmErr_lastCode g st).wr F.coreMmErr_lastOpcode g opcode).inc F.coreMmErr_errCount g
  else if st < 0x50 then
    ((s.wr F.coreVecErr_lastCode g st).wr F.coreVecErr_lastOpcode g opcode).inc F.coreVecErr_errCount g
  else if st < 0x60 then
    ((s.wr F.coreUpdErr_lastCode g st).wr F.coreUpdErr_lastOpcode g opcode).inc F.coreUpdErr_errCount g
  else if st < 0x80 then
    (((s.wr F.coreMovErr_lastCode g st).wr F.coreMovErr_lastOpcode g opcode).wr F.coreMovErr_subcode g sub).inc F.coreMovErr_errCount g
  else
    let p := u - 18432
    ((s.wr F.partCeErr_lastCode p st).wr F.partCeErr_subcode p sub).inc F.partCeErr_errCount p

/-- A completion at tick `stamp` of a command started at tick `at_` counts for the slacks of its partition (R439). Log: 64 (DEDUCED). -/
def State.slackDone (s : State) (p at_ stamp : Nat) : State :=
  { s with slackRuns := s.slackRuns.map (fun r =>
      if r.part == p && decide (r.start ≤ at_) && decide (at_ ≤ r.ref) then { r with done := max r.done stamp } else r) }

/-- A command completes with a status: CERR, the engine's record, its tally, its mark signal, and the halt if the status
halts the queue. `id` is its number, `at_` the stamp of its start, `hi` payload bytes 24 to 31, `always` whether the status
writes a tally unrequested. `now` is the tick of a limit that expired while the clock stood (R294). -/
def State.complete (s : State) (u id : Nat) (e : Entry) (at_ st sub : Nat) (hi : Nat := 0) (event : Nat := 0x0100)
    (now : Option Nat := none) : State :=
  let c := e.cmd
  let p := s.queuePart u
  let s := if 1 ≤ st && st ≤ 9 then s.wr F.qCerr_lastCode u st else s
  let s := if st == 1 then s.inc F.qCerr_lateCount u else s
  let s := if 2 ≤ st && st ≤ 9 then s.inc F.qCerr_errCount u else s
  let s := s.engErr u st c.opcode sub
  let stamp := max (now.getD (s.ftUnit u)) at_
  let s := s.slackDone p at_ stamp
  let ring := if c.tallyEn then c.tallyRing else s.rd F.partTallyCtrl_faultRing p
  let s :=
    if c.tallyEn || st == 1 || haltsQueue st then
      s.tallyAt stamp p ring u (event + st) st (payload e.index e.tag c.opcode sub) hi
    else s
  let s :=
    if c.sigEn && (st == 0 || (st == 1 && c.lateSignal)) then
      s.signal u id { part := p, mark := c.sigMark, add := c.sigAdd, stamp := stamp, src := u }
    else s
  if haltsQueue st then s.halt u st c.opcode sub e.index e.tag hi stamp else s

/-! ## Common checks (Table 8-7) -/

/-- Opcodes a queue accepts (R210, Tables 3-3, 4-2 and chapters 6, 7, 13). Log: 40 (DEDUCED). -/
def accepts (kind op : Nat) : Bool :=
  op == 0 || op == 2
  || (kind == 0 && (op == 0x20 || op == 0x21 || op == 0x22))
  || (kind == 1 && (op == 0x40 || op == 0x41))
  || (kind == 2 && op == 0x60)
  || (kind == 3 && op == 0x70)
  || (kind == 4 && op == 0x80)

/-- HDR_FIELD (R209, Table 8-7). -/
def hdrFieldBad (e : Entry) : Bool :=
  let c := e.cmd
  let userEvent := c.opcode == 2 && bits c.w6 0 16 != 0
  (!c.gateEn && c.w1 != 0)
  || (!c.waitEn && (c.waitMark != 0 || c.w3 != 0))
  || (!c.sigEn && (c.sigMark != 0 || c.sigAdd != 0 || c.lateSignal))
  || (!c.subEn && (c.subWord != 0 || c.subLsb != 0 || c.subWidth != 0))
  || (!c.tallyEn && c.tallyRing != 0 && !userEvent)
  || (c.opcode == 0 && (c.w4 != 0 || c.w5 != 0 || c.w6 != 0 || c.w7 != 0))
  || c.fence == 6
  || (c.sigEn && c.sigAdd == 0)
  || (c.gateEn && c.w2 != 0 && decide (c.w2 ≤ c.w1))
  || (c.subEn && e.bench.isNone)
  || (c.subEn && decide (64 < c.subLsb + c.subWidth + 1))

/-- SYNC_FIELD (R211). -/
def State.syncFieldBad (s : State) (u : Nat) (c : Cmd) : Bool :=
  let remote := bitAt c.w4 0
  let ev := bits c.w6 0 16
  bits c.w4 16 48 != 0 || bits c.w6 16 48 != 0
  || (!remote && (bits c.w4 1 15 != 0 || c.w5 != 0))
  || (ev == 0 && c.w7 != 0)
  || (ev != 0 && decide (ev < 0x8000))
  || (remote && !bitAt (s.tenancyMask (s.queuePart u)) (bits c.w4 1 3))

/-- JUMP_FIELD (Table 8-7, Table 8-4). -/
def jumpFieldBad (c : Cmd) : Bool :=
  let sz := bits c.w5 0 5
  c.w0 != 1 || c.w1 != 0 || c.w2 != 0 || c.w3 != 0
  || bits c.w4 0 9 != 0 || bits c.w4 57 7 != 0 || bits c.w5 53 11 != 0 || c.w6 != 0 || c.w7 != 0
  || decide (sz < 3) || decide (16 < sz)
  || decide (2 ^ sz ≤ bits c.w5 5 16) || decide (2 ^ sz ≤ bits c.w5 21 16)

/-! ## Fetch (R213, R214) -/

/-- The entry of a row of fetched bytes. -/
def entryOf (row : List Byte) (index tag gen : Nat) : Entry :=
  { cmd := Cmd.ofBytes ((row.drop (index % 8 * 64)).take 64), index := index, tag := tag, gen := gen }

/-- Take entries of one fetched row into the queue: up to TAIL, the end of the row, a JUMP, or 16 held commands. -/
def takeEntries (row : List Byte) (tail n tag gen : Nat) : Nat → Nat → Queue → Nat × Queue
  | 0, i, q => (i, q)
  | f + 1, i, q =>
    if i == tail || decide (16 ≤ q.waiting.length) then (i, q)
    else
      let e := entryOf row i tag gen
      let next := (i + 1) % n
      if e.cmd.opcode == 1 then (next, { q with jump := some e })
      else
        let q := { q with waiting := q.waiting ++ [e] }
        if i % 8 == 7 then (next, q) else takeEntries row tail n tag gen f next q

/-- A command of a core's queue whose entry into the prefetch of its engine gives the regulator notice: any of the matrix engine (R82), a
launch (R91), an update (R167). -/
def Cmd.givesNotice (c : Cmd) (eng : Nat) : Bool := eng == 0 || (eng == 1 && c.opcode == 0x40) || (eng == 2 && c.opcode == 0x60)

/-- Commands that enter the prefetch of a core's engine give its cluster's regulator the load-step notice (R430). -/
def State.queueNotice (s : State) (u : Nat) (es : List Entry) : State :=
  if isCoreQ u && es.any (fun e => e.cmd.givesNotice (u % 4)) then s.notice (cluIdx (u / 4)) else s

/-- Bench `b` exists in the active layout (R260). -/
def State.benchExists (s : State) (b : Nat) : Bool :=
  match s.active with
  | none => false
  | some l => decide (b < l.benches.length)

/-- Core whose own memory a fetch reaches without the network; no core for the queues outside the cores. -/
def fetchCore (u : Nat) : Nat := if isCoreQ u then u / 4 else 4608

/-- The records of an uncorrectable error, or of a row that cannot be reached, that a fetch of queue `u` meets (R197, R199, R472). Log: 35 (DEDUCED). -/
def State.fetchUnc (s : State) (u d : Nat) : State :=
  if isCoreQ u then s.engUnc (u / 4) (u % 4) 0 d
  else
    let s := if s.mem.hurt d 512 then (s.memUnc d).softEntry d else s
    if isBenchQ u then s
    else s.report 0x03 { s.blank u with part := u - 18432, detail := [storeCode d, d] }

/-- Queue `u` fetches the row that HEAD stands in (R213); no bench queue exists without its bench (R260). A row of the list that is refused
or held in the network is asked for again at the next fetch (R314). A translation fault or an uncorrectable error belongs to the first
entry of the row, which completes with it when it comes to the head (R222). Log: 141 (DESIGN CHOICE). -/
def State.fetchRow (s : State) (u : Nat) : State :=
  let q := s.q u
  let head := s.rd F.qHead_head u
  let tail := s.rd F.qTail_tail u
  let sz := s.rd F.qCtrl_sizeLog2 u
  let tag := s.rd F.qCtrl_tag u
  let n := 2 ^ sz
  if s.qst u != 1 || s.benchMode u || (isBenchQ u && !s.benchExists ((u - 18456) / 4)) || q.jump.isSome || q.waiting.any (fun e => e.err.isSome)
     || head == tail || decide (16 ≤ q.waiting.length) then s
  else
    let va := (s.rd F.qBase_base u * 512 + 64 * head) / 512 * 512
    let fail := fun (s : State) (st sub : Nat) =>
      let e : Entry := { cmd := {}, index := head, tag := tag, gen := q.gen, err := some (st, sub) }
      (s.setQ u { q with waiting := q.waiting ++ [e] }).wr F.qHead_head u ((head + 1) % n)
    match s.xlat (tlbCore u) (s.queuePart u) (s.rd F.qCtrl_ctx u) va false with
    | (.fail k, s) => if k == 9 then fail s 0x09 0 else fail s 0x08 k
    | (.ok d, s) =>
      let refused := if s.homeDark d then none else s.nack (fetchCore u) d
      if refused.isSome then
        (if refused == some 3 then s.inc F.partRstStat_absorbed (s.ownerOf d) else s.inc F.partNetErr_nacks (s.queuePart u))
      else if isCoreQ u && !s.homeDark d && !s.sliceLost d && s.rowHeld (u / 4) d true then s
      else if !(s.heldByHost d false).isEmpty then s.snoop d false
      else if s.mem.hurt d 512 || s.snoopLost d || s.sliceLost d || s.homeDark d then
        let s := { s with snoopDead := s.snoopDead.filter (fun l => l * 64 / 512 * 512 != d) }
        let s := if s.homeDark d then s.inc F.partNetErr_nacks (s.queuePart u) else s
        fail (s.fetchUnc u d) 0x09 0
      else
        let (h, q') := takeEntries (s.mem.rdN d 512) tail n tag q.gen 8 head q
        (((s.corr d 512).setQ u q').wr F.qHead_head u h).queueNotice u (q'.waiting.drop q.waiting.length)

/-- The fetch unit consumes a JUMP (R214): a bad one stands in the queue with JUMP_FIELD, any other installs its list. -/
def State.takeJump (s : State) (u : Nat) : State :=
  let q := s.q u
  match q.jump with
  | none => s
  | some e =>
    let c := e.cmd
    if s.qst u != 1 then s
    else if jumpFieldBad c then
      s.setQ u { q with jump := none, waiting := q.waiting ++ [{ e with err := some (0x04, 0) }] }
    else
      let old : LeftList := { gen := q.gen, base := s.rd F.qBase_base u * 512, sizeLog2 := s.rd F.qCtrl_sizeLog2 u,
                              tag := s.rd F.qCtrl_tag u, tail := s.rd F.qTail_tail u }
      let tag := bits c.w5 37 16
      let usePend := s.flag F.qState_pendValid u && s.rd F.qTail_pendTag u == tag
      let tail := if usePend then s.rd F.qTail_pendTail u else bits c.w5 21 16
      let keep := q.left.filter (fun l => q.waiting.any (fun x => x.gen == l.gen))
      let s := s.setQ u { q with jump := none, gen := q.gen + 1, left := keep ++ [old] }
      let s := s.wr F.qBase_base u (bits c.w4 9 48)
      let s := s.wr F.qCtrl_sizeLog2 u (bits c.w5 0 5)
      let s := s.wr F.qHead_head u (bits c.w5 5 16)
      let s := s.wr F.qCtrl_tag u tag
      let s := s.wr F.qTail_tail u tail
      let s := s.wr F.qTail_pendTail u 0
      let s := s.wr F.qTail_pendTag u 0
      s.wr F.qState_pendValid u 0

/-! ## Start conditions (R219 to R221) -/

/-- The tick that a limit of core `g` that expired at tick `t` is stamped with (R294): `t` itself when the clock stood then. -/
def State.expired (s : State) (g t : Nat) : Option Nat :=
  let c := s.cluSt (cluIdx g)
  if c.stopAt ≤ t && decide (t < c.restartAt) then some t else none

/-- Local FT of a queue's engine. -/
def State.queueFt (s : State) (u : Nat) : Nat := s.ftUnit u

/-- The mark wait of a command is satisfied (R228). -/
def State.markOk (s : State) (u : Nat) (c : Cmd) : Bool :=
  !c.waitEn || decide (c.w3 ≤ s.mark (s.queuePart u) c.waitMark)

/-- Its FT gate has passed (R220). -/
def State.gateOk (s : State) (u : Nat) (c : Cmd) : Bool := !c.gateEn || decide (c.w1 ≤ s.queueFt u)

/-- Its header fence is complete: the writes of every earlier command of the queue are (R235). -/
def State.fenceOk (s : State) (u : Nat) (c : Cmd) : Bool := c.fence == 7 || ((s.q u).started.isEmpty && (s.cmdRows u).isEmpty)

/-- The deadline has been reached (R221). -/
def State.pastDeadline (s : State) (u : Nat) (c : Cmd) : Bool := c.w2 != 0 && decide (c.w2 ≤ s.queueFt u)

/-- At tick `t` of a unit's FT the instant of the pending swap has come (R262). -/
def State.swapHolds (s : State) (t : Nat) : Bool := s.swap.any (fun w => w.begun || decide (w.ft ≤ t))

/-- Whether the queue's unit may start commands: the queue RUNNING, the module READY, the core alive and serving no duplicate or
canary (R456), no swap at its instant (R262) and no activation at its instant (R506). Log: 40 (DEDUCED). -/
def State.mayStart (s : State) (u : Nat) : Bool :=
  s.qst u == 1 && s.ready && !s.swapHolds (s.queueFt u) && !(s.act.any (fun a => a.begun))
  && (if isCoreQ u then
        let g := u / 4
        s.alive g && s.runs g && !s.flag F.coreId_witness g && !s.flag F.coreId_canary g
      else !s.partInReset (s.queuePart u) && !s.partDark (s.queuePart u) && !s.transitHold.contains (s.queuePart u))

/-- Stamp of a start: not before the message that brought the command or satisfied its wait (R237). -/
def State.startStamp (s : State) (u : Nat) (e : Entry) : Nat :=
  let a := if e.bench.isSome then e.stamp + 1 else 0
  let b := if e.cmd.waitEn then satisfiedAt e.cmd.w3 (s.markHist (markIdx (s.queuePart u) e.cmd.waitMark)) + 1 else 0
  max (s.queueFt u) (max a b)

/-- Take the head of the queue out. -/
def State.popHead (s : State) (u : Nat) : State :=
  let q := s.q u
  (s.setQ u { q with waiting := q.waiting.drop 1 }).clearWaits u

/-- The started command of queue `u` with number `id`. -/
def State.startedOf (s : State) (u id : Nat) : Option Started := (s.q u).started.find? (fun x => x.id == id)

/-- Change a started command. -/
def State.modStarted (s : State) (u id : Nat) (f : Started → Started) : State :=
  let q := s.q u
  s.setQ u { q with started := q.started.map (fun x => if x.id == id then f x else x) }

/-- The operation of a started command is over, with OK. -/
def State.opDone (s : State) (u id : Nat) : State := s.modStarted u id (fun x => { x with done := some (0, 0) })

/-- A started command leaves the queue. -/
def State.dropStarted (s : State) (u id : Nat) : State :=
  let q := s.q u
  s.setQ u { q with started := q.started.filter (fun x => x.id != id) }

/-! ## Abandoned duplicates (R458, R461) -/

/-- CORE_ASSAY_LAST of the core of a sampled command (Table 17-11). -/
def State.assayLast (s : State) (x : Sample) (verdict cause : Nat) : State :=
  let g := x.core
  let s := s.wr F.coreAssayLast_verdict g verdict
  let s := s.wr F.coreAssayLast_kind g x.kind
  let s := s.wr F.coreAssayLast_abandon g cause
  let s := s.wr F.coreAssayLast_witness g x.witness
  match x.third with
  | some t => s.wr F.coreAssayLast_third g t
  | none =>
    let (f, s) := s.fresh
    s.wr F.coreAssayLast_third g f

/-- A sampled command's unit code. -/
def Sample.unit (x : Sample) : Nat := unitEng x.core x.eng

/-- Whether a sample is the one of started command `id` of queue `u`. -/
def Sample.isOf (x : Sample) (u id : Nat) : Bool := x.unit == u && x.id == id

/-- A sample ends: its record is gone and the cores that served it are free again. -/
def State.endSample (s : State) (x : Sample) : State :=
  let s := { s with samples := s.samples.filter (fun y => !y.isOf x.unit x.id) }
  (x.witness :: x.third.toList).foldl (fun s w =>
    (s.wr F.coreId_witness w 0).setClu (cluIdx w) { s.cluSt (cluIdx w) with busyAt := s.up }) s

/-- The duplicate of a sampled command is abandoned with a cause of Table 17-2 (R461): recorded and counted, a command whose copy
was on its way starts, and the deferred marks are released. From the mismatch on a verdict follows instead. Log: 161 (DESIGN CHOICE). -/
def State.abandon (s : State) (x : Sample) (cause : Nat) : State :=
  if x.phase == .repeating then s
  else
    let s := (s.assayLast x 6 cause).inc F.coreAssayCnt2_abandoned x.core
    let s := s.endSample x
    let s := if x.phase == .copying then s.modStarted x.unit x.id (fun y => { y with prog := { y.prog with ready := true } }) else s
    s.flushHeld x.unit

/-- Abandon the duplicate of a started command, if it has one. -/
def State.abandonOf (s : State) (u id cause : Nat) : State :=
  match s.samples.find? (fun x => x.isOf u id) with
  | none => s
  | some x => s.abandon x cause

/-- Abandon every duplicate that a predicate picks. -/
def State.abandonAll (s : State) (cause : Nat) (p : Sample → Bool) : State :=
  (s.samples.filter p).foldl (fun s x => s.abandon x cause) s

/-- Duplicates that core `g` is the original or the witness of end with its reset, retirement or fence (Table 17-2). -/
def State.abandonCore (s : State) (g : Nat) : State := s.abandonAll 5 (fun x => x.core == g || x.witness == g)

/-! ## Ends of started commands -/

/-- A started command ends with a status other than OK: it leaves the queue and completes with it; a
duplicate of it is abandoned (R461). -/
def State.opFail (s : State) (u : Nat) (x : Started) (st sub : Nat) (hi : Nat := 0) (now : Option Nat := none) : State :=
  let s := s.abandonOf u x.id 4
  let s := s.dropStarted u x.id
  let s := s.complete u x.id x.e x.at_ st sub hi 0x0100 now
  s.flushHeld u

/-- The oldest started command of queue `u` with an opcode, its operation not over, its capture sent (R457), and not waiting for a
ring slot that is not yet claimed for it. -/
def State.oldest (s : State) (u opcode : Nat) : Option Started :=
  (s.q u).started.find? (fun x =>
    x.e.cmd.opcode == opcode && x.done.isNone && x.prog.ready
    && !s.ringWaits.any (fun w => w.who == .cmd u x.id && w.slot.isNone))

/-- Every earlier started command of the queue has its operation over. Log: 40 (DEDUCED). -/
def State.earlierDone (s : State) (u id : Nat) : Bool :=
  (s.q u).started.all (fun x => decide (id ≤ x.id) || x.done.isSome)

/-! ## Bench queues (R223 to R226) -/

/-- Cores that hold an index of a bench; a retired one holds its until it is taken over or exhausted (R264 to R267). -/
def State.members (s : State) (b : Nat) : List Nat :=
  (s.roles.filter (fun e => e.2.kind == 1 && e.2.bench == b)).map (·.1)

/-- The lowest member of a bench whose queue of kind `e` is HALTED. -/
def State.haltedMember (s : State) (b e : Nat) : Option Nat :=
  (s.members b).find? (fun g => s.qst (unitEng g e) == 2)

/-- A bench queue sends its oldest fetched command to the queue of its kind in every member, when each holds a free entry;
otherwise credit_wait is set (R223, R224). A member in reset halts the bench queue (R491). A command that failed its fetch
halts the bench queue. -/
def State.broadcast (s : State) (b e : Nat) : State :=
  let u := unitBench b e
  let q := s.q u
  match q.waiting with
  | [] => s
  | x :: rest =>
    if s.qst u != 1 || !s.benchExists b || !s.ready then s
    else
      match x.err with
      | some (st, sub) => (s.popHead u).complete u s.nextId x 0 st sub
      | none =>
        let ms := s.members b
        match ms.find? (fun g => s.coreInReset g) with
        | some g =>
          let s := (s.wr F.qMember_hcore u g).wr F.qMember_hvalid u 1
          let s := s.inc F.partRstStat_absorbed (partOf g)
          s.haltOne u (s.rd F.qHalt_status (unitEng g e)) (s.rd F.qHalt_opcode (unitEng g e))
            (s.rd F.qHalt_subcode (unitEng g e)) (s.rd F.qHalt_index (unitEng g e)) (s.rd F.qHalt_htag (unitEng g e)) 0
        | none =>
          let free := ms.all (fun g =>
            s.benchMode (unitEng g e) && decide ((s.q (unitEng g e)).waiting.length < 16))
          if !free then s.wr F.qState_creditWait u 1
          else
            let s := (s.setQ u { q with waiting := rest }).wr F.qState_creditWait u 0
            let ctxPart := s.rd F.qCtrl_ctxPart u
            let ctx := s.rd F.qCtrl_ctx u
            let stamp := s.ft
            ms.foldl (fun s g =>
              let mu := unitEng g e
              let mq := s.q mu
              let t : BenchTag := { index := s.rd F.qBench_index mu, ctxPart := ctxPart, ctx := ctx }
              (s.setQ mu { mq with waiting := mq.waiting ++ [{ x with bench := some t, stamp := stamp, gen := mq.gen }] }).queueNotice mu [x]) s

end Sys2Proof.Machine
end

