-- ==== Sys2Proof/Machine/Repair.lean ====
section
/-! DEFINITION. Retirement of a core and what follows from it: fences (R313), takeovers, exhausted benches and the automatic
swap (R264 to R268, R465, R466). -/

namespace Sys2Proof.Machine

/-! ## Fences -/

/-- A core is fenced, or its fence is lifted; PART_NET_FENCE shows it (R313, Table 11-7). Log: 120 (DEDUCED). -/
def State.setFence (s : State) (g : Nat) (on : Bool) : State :=
  let i := partOf g * 9 + logicalOf g / 64
  let w := s.rd F.partNetFence_fenced i
  (s.wr F.coreId_fenced g (ofBool on)).wr F.partNetFence_fenced i (putBits w (logicalOf g % 64) 1 (ofBool on))

/-! ## Benches and pillars -/

/-- Pillars of bench `b` that hold no index and are in service (R264), in increasing global number. -/
def freePillars (roles : NMap Role) (retired : Nat → Bool) (b : Nat) : List Nat :=
  ((roles.filter (fun e => e.2.kind == 2 && e.2.bench == b)).map (·.1)).filter (fun g => !retired g)

/-- Partitions that hold a member of a bench. -/
def benchParts (roles : NMap Role) (b : Nat) : List Nat :=
  (List.range 8).filter (fun p => roles.any (fun e => e.2.kind == 1 && e.2.bench == b && partOf e.1 == p))

/-- Index `i` of bench `b` passes from core `g` to core `x`. -/
def moveIndex (roles : NMap Role) (g x b i : Nat) : NMap Role := mput (mdel roles g) x { kind := 1, bench := b, index := i }

/-- The pillar that R265 chooses for the index of core `g`: free, of its bench and partition, the lowest whose routes fit. -/
def pickPillar (n : NetMap) (routes : List Route) (roles : NMap Role) (retired : Nat → Bool) (g : Nat) : Option Nat :=
  match mget roles g with
  | some r =>
    if r.kind == 1 then
      ((freePillars roles retired r.bench).filter (fun x => partOf x == partOf g)).find?
        (fun x => routesFit n (moveIndex roles g x r.bench r.index) routes)
    else none
  | none => none

/-- A retirement applied to a layout's roles: who takes the index, or that nobody can. -/
structure Absorb where
  core : Nat
  bench : Nat
  index : Nat
  pillar : Option Nat
  deriving DecidableEq, Repr

/-- Retirements applied to the roles of a layout one after another (R268). -/
def absorbAll (n : NetMap) (routes : List Route) (retired : Nat → Bool) : List Nat → NMap Role → NMap Role × List Absorb
  | [], roles => (roles, [])
  | g :: rest, roles =>
    match mget roles g with
    | none => absorbAll n routes retired rest roles
    | some r =>
      if r.kind != 1 then absorbAll n routes retired rest (mdel roles g)
      else
        let x := pickPillar n routes roles retired g
        let roles := match x with
          | some x => moveIndex roles g x r.bench r.index
          | none => mdel roles g
        let out := absorbAll n routes retired rest roles
        (out.1, { core := g, bench := r.bench, index := r.index, pillar := x } :: out.2)

/-- HF_BENCH_STATE's count of free pillars follows the roles (Table 9-19). -/
def State.countPillars (s : State) (b : Nat) : State :=
  s.wr F.hfBenchState_pillarsFree b (freePillars s.roles s.retired b).length

/-- A tally of the layout engine to some partitions; the events of source 81 raise it (R269, Table 15-5). -/
def State.layoutNote (s : State) (ps : List Nat) (event lo hi : Nat) : State :=
  let s := s.noteEach ps unitLayout event lo hi
  if event == 0x0700 || event == 0x0701 || event == 0x0703 || event == 0x0704 then s.raise 81 else s

/-- Payload bytes 16 to 23 of TAKEOVER, REPAIR_EXHAUSTED and FALLBACK_FAILED (Table 9-15). -/
def repairPayload (b i g x : Nat) : Nat := b + i * 2 ^ 16 + g * 2 ^ 32 + x * 2 ^ 48

/-- Bench register of a core's four queues (Table 8-6). -/
def State.setBenchReg (s : State) (g b i member : Nat) : State :=
  loop 4 (fun e s =>
    let u := unitEng g e
    ((s.wr F.qBench_bench u b).wr F.qBench_index u i).wr F.qBench_member u member) s

/-- A canary run on a core ends without a result (R468). -/
def State.dropCanary (s : State) (g : Nat) : State :=
  { (s.wr F.coreId_canary g 0) with canaries := s.canaries.filter (fun c => c.core != g) }

/-! ## Takeover (R266) -/

/-- A pillar `x` holds index `i` of bench `b` in place of core `g`. -/
def State.takeover (s : State) (b i g x : Nat) : State :=
  let ps := benchParts s.roles b
  let s := s.abandonAll 7 (fun y => y.witness == x)
  let s := s.dropCanary x
  let s := { s with roles := moveIndex s.roles g x b i }
  let s := (s.setBenchReg g 0 0 0).setBenchReg x b i 1
  let s := loop 4 (fun e s => (s.stopQueue (unitEng x e)).setMode (unitEng x e) 1) s
  let s := match s.active with
    | none => s
    | some l =>
      (l.rings.filter (fun (r : Ring) => r.place == 1 && bits r.holder 0 8 == b && bits r.holder 8 13 == i)).foldl
        (fun s (r : Ring) => s.ringClear r.part r.number) s
  let s := (s.inc F.hfBenchState_takeovers b).countPillars b
  s.layoutNote ps 0x0702 (repairPayload b i g x) 0

/-! ## Swaps that the device makes by itself (R267) -/

/-- First shift boundary of the active layout at or after tick `t`. -/
def State.boundary (s : State) (t : Nat) : Nat :=
  let o := s.rd F.hfLayoutOrigin_origin 0
  match s.active with
  | none => t
  | some l => if t ≤ o then o else o + ceilDiv (t - o) l.shiftLen * l.shiftLen

/-- A switched-off cluster is to be switched on (R432). -/
def State.wake (s : State) (c : Nat) : State :=
  if s.cluState c == 0 then s.setClu c { s.cluSt c with wake := true } else s

/-- A swap at instant `ft` is accepted (R261, R262); clusters that the standby gives a member or a pillar are switched on (R432). Log: 51 (DEDUCED). -/
def State.acceptSwap (s : State) (ft cause : Nat) : State :=
  let s := (s.standby.elim [] (fun l => l.roles.map (fun e => cluIdx e.1))).foldl (fun s c => s.wake c) s
  let s := (s.wr F.hfLayoutStatus_swapPending 0 1).wr F.hfLayoutStatus_swapCode 0 0
  { s with swap := some { ft := ft, cause := cause } }

/-- What an exhausted index does when the standby is the fallback (R267, R268). Log: 51 (DEDUCED). -/
def State.fallback (s : State) (ps : List Nat) (b i g : Nat) : State :=
  if !s.flag F.hfLayoutCmd_fallback 0 || s.swap.isSome then s
  else
    match s.standby with
    | none => s.layoutNote ps 0x0704 (repairPayload b i g 0) 0
    | some l =>
      match (absorbAll s.net l.routes s.retired (sortNat s.sinceLoad) l.roles).2.find? (fun a => a.pillar.isNone) with
      | some a => s.layoutNote (benchParts l.roles a.bench) 0x0704 (repairPayload a.bench a.index a.core 0) 0
      | none => s.acceptSwap (s.boundary (s.ft + 20000)) 2

/-- Bench `b` lacks index `i` from now on (R267). Log: 119 (DEDUCED). -/
def State.exhaust (s : State) (b i g : Nat) : State :=
  let ps := benchParts s.roles b
  let s := { s with roles := mdel s.roles g }
  let s := s.setBenchReg g 0 0 0
  let s := (s.wr F.hfBenchState_exhausted b 1).wr F.hfLayoutStatus_exhausted 0 1
  let s := s.layoutNote ps 0x0703 (repairPayload b i g 0) 0
  s.fallback ps b i g

/-- The index of a retired core is served (R265): a pillar takes it, or the bench is exhausted. -/
def State.serveRepair (s : State) (g : Nat) : State :=
  match s.active, mget s.roles g with
  | some l, some r =>
    if r.kind != 1 then s
    else
      match pickPillar s.net l.routes s.roles s.retired g with
      | some x => s.takeover r.bench r.index g x
      | none => s.exhaust r.bench r.index g
  | _, _ => s

/-- Retirements recorded at least 20,000 ticks before a shift start, in increasing global number (R265). Log: 119 (DEDUCED). -/
def State.serveRepairs (s : State) (at_ : Nat) : State :=
  let due := (s.repairs.filter (fun e => decide (e.2 + 20000 ≤ at_))).map (·.1)
  let s := { s with repairs := s.repairs.filter (fun e => !decide (e.2 + 20000 ≤ at_)) }
  (sortNat due).foldl (fun s g => s.serveRepair g) s

/-! ## Retirement (R465, R466) -/

/-- The roles of a retired core change (R264): a free pillar leaves its bench; a held index waits for the shift start it is served at
(R265). Log: 119 (DEDUCED). -/
def State.retireRole (s : State) (g : Nat) : State :=
  match mget s.roles g with
  | some r =>
    if r.kind == 2 then ({ s with roles := mdel s.roles g }).countPillars r.bench
    else if r.kind == 1 then { s with repairs := s.repairs ++ [(g, s.ft)] }
    else s
  | none => s

/-- A core is retired with a cause of Table 17-4; `rep` is the number of the event's fault report (R466). Log: 118 (DEDUCED), 120 (DEDUCED). -/
def State.retire (s : State) (g cause rep : Nat) : State :=
  if s.retired g then s
  else
    let p := partOf g
    let s := s.setFence g true
    let s := loop 4 (fun e s => if s.qst (unitEng g e) == 1 then s.haltBare (unitEng g e) 0x0B cause else s) s
    let s := (s.wr F.coreId_retired g 1).wr F.coreId_retireCause g cause
    let s := (s.abandonCore g).dropCanary g
    let s := s.note p (unitPart p) 0x0603 (g + cause * 2 ^ 16) rep
    let s := (s.coreErr g 9 0 0).partErr p 5 (logicalOf g)
    let s := { s with retirePend := s.retirePend ++ [(g, cause, s.ft)],
                      sinceLoad := if s.standby.isSome || s.load.isSome then s.sinceLoad ++ [g] else s.sinceLoad }
    s.retireRole g

/-- Ticks of 24 hours of power-on time (R465). -/
def dayTicks : Nat := 86400000000000

/-- A core whose transient count of the last 24 hours has reached 3 is retired with cause REPEATED (Table 17-4). -/
def State.repeated (s : State) (g : Nat) : State :=
  let ts := (mgetD s.transientTimes g []).filter (fun t => decide (s.onNs < t + dayTicks))
  if 3 ≤ ts.length then s.retire g 2 s.reportCount else s

/-- The transient count of a core advances (R465). -/
def State.transient (s : State) (g : Nat) : State :=
  let s := { s with transientTimes := mput s.transientTimes g (mgetD s.transientTimes g [] ++ [s.onNs]) }
  (s.inc F.coreErrCount_transients g).repeated g

end Sys2Proof.Machine
end

