-- ==== Sys2Proof/Machine/Clocks.lean ====
section
/-! DEFINITION. Fabric Time, its reference, the shift schedule, operating points, droop and frequency changes (chapter 10). -/

namespace Sys2Proof.Machine

/-! ## Time line (R272) -/

/-- CRC-6 with polynomial 0x21 and initial value 0 over the low `n` bits of a word, most significant bit first. -/
def crc6 (n w : Nat) : Nat :=
  (List.range n).foldl (fun c i =>
    let b := ofBool (bitAt w (n - 1 - i))
    let top := c / 32 % 2
    let c := c * 2 % 64
    if (top + b) % 2 == 1 then c ^^^ 0x21 else c) 0

/-- A unit receives a frame: a good one loads its value as the local FT, which the compensated line keeps within one tick of the Headframe's, so
that two units are never more than two apart (R274); the fourth bad one in a row sets ft_unsync of a cluster. Log: 16 (DEDUCED). -/
def State.ftFrame (s : State) (u w : Nat) : State :=
  let v := bits w 0 58
  if bits w 58 6 == crc6 58 v then
    let d : Int := ((64 * v : Nat) : Int) - (s.ft : Int)
    let s := { s with frameFails := mputD s.frameFails u 0 0 }
    if decide (-1 ≤ d) && decide (d ≤ 1) then { s with skew := mputD s.skew u d 0 } else s
  else
    let n := mgetD s.frameFails u 0 + 1
    let s := { s with frameFails := mputD s.frameFails u n 0 }
    if n == 4 && u < 288 then s.stick F.cluClkSticky_ftUnsync u (u / 36) else s

/-! ## Correction (R275 to R277) -/

/-- Events of the Headframe go to the fault_ring of every partition; the four of Table 15-5 raise source 82. -/
def State.timeNote (s : State) (event lo hi : Nat) : State := (s.noteAll unitSeq event lo hi).raise 82

/-- A signed error as err_est shows it (Table 10-7). -/
def errEst (e : Int) : Nat := ofSigned 16 (max (-32767) (min 32767 e))

/-- FT is brought to its source's value, `e` ticks ahead of it (R277): a step, or a slew, which changes the length of ticks and
so leaves the count as it is; after a step backward no instant lies at or before the last write of HF_SCHED_TALLY any more (R283). Log: 59 (DEDUCED), 60 (DEDUCED). -/
def State.correct (s : State) (e : Int) : State :=
  let s := s.wr F.hfFtStatus_errEst 0 (errEst e)
  if s.active.isNone && s.flag F.hfFtCtrl_stepEn 0 && (decide (1000 < e) || decide (e < -1000)) then
    let old := s.ft
    let new := ((s.ft : Int) + e).toNat
    let m := new - new % 1000000000
    let skip := if old < m && m < new then some m else if new < old then none else s.pps.skip
    ({ s with ft := new, pps := { s.pps with skip := skip }, schedAt := if new < old then 0 else s.schedAt }).timeNote 0x0310 old new
  else if s.active.isSome && (decide (8 < e) || decide (e < -8)) then s.wr F.hfFtStatus_aligned 0 0
  else s

/-- A sync is good when the error it leaves is within the bound of a district (R274, R276): aligned is set and its time starts. Log: 57 (DEDUCED). -/
def State.goodSync (s : State) (e : Int) : State :=
  if decide (-8 ≤ e) && decide (e ≤ 8) then { (s.wr F.hfFtStatus_aligned 0 1) with syncAt := s.ft } else s

/-- The slew that one second of correction at 200 ppm can bring (R277). Log: 60 (DEDUCED). -/
def slewIn (e : Int) : Int := max (-200000) (min 200000 e)

/-- The reference is lost (R275). Log: 57 (DEDUCED). -/
def State.refLost (s : State) (cause : Nat) : State :=
  if s.pps.lost then s
  else
    let s := { s with pps := { s.pps with lost := true, locked := false, good := 0 } }
    let s := (s.wr F.hfFtStatus_sysScope 0 0).wr F.hfFtStatus_state 0 4
    s.timeNote 0x0311 cause 0

/-- Seconds after the next expected edge whose instant lies nearest tick `t`: each later edge stands for a further 10^9 ticks (R275). -/
def Pps.missed (p : Pps) (t : Nat) : Nat := (t + 500000000 - p.expect.getD t) / 1000000000

/-- PPS_EDGE (R275): it is held against the expected instant nearest to it, edges that did not come counting as passed. Log: 58 (DEDUCED). -/
def State.ppsEdge (s : State) : State :=
  if !s.flag F.hfFtCtrl_refEn 0 then s
  else
    let ahead := s.pps.missed s.ft * 1000000000
    let p := { s.pps with value := s.pps.value.map (· + ahead), expect := s.pps.expect.map (· + ahead) }
    let off : Int := (s.ft : Int) - ((p.expect.getD s.ft : Nat) : Int)
    let p := { p with last := s.ft }
    if decide (off < -100) || decide (100 < off) then
      let p := { p with rej := p.rej + 1, good := 0 }
      let s := ({ s with pps := p }).inc F.hfFtStatus_ppsReject 0
      if p.rej == 3 then s.refLost 1 else s
    else
      let v : Nat := p.value.getD s.ft
      let e : Int := ((v : Nat) : Int) - ((s.ft : Nat) : Int)
      let s := s.correct e
      let stepped : Int := (s.ft : Int) - (p.last : Int)
      let next := ((s.ft : Int) + 1000000000 + (if stepped == 0 then slewIn e else 0)).toNat
      let p := { p with rej := 0, good := p.good + 1, value := some (v + 1000000000), expect := some next, last := s.ft }
      let p := { p with skip := s.pps.skip }
      let s := ({ s with pps := p }).goodSync (e - stepped)
      if 3 ≤ p.good && !p.locked then
        let s := { s with pps := { s.pps with locked := true, lost := false } }
        ((s.wr F.hfFtStatus_sysScope 0 1).wr F.hfFtStatus_state 0 1).timeNote 0x0312 0 0
      else s

/-- PPS_TIMEOUT: two seconds without an edge (R275). -/
def State.ppsTimeout (s : State) : State :=
  if s.flag F.hfFtCtrl_refEn 0 && decide (s.pps.last + 2000000000 ≤ s.ft) then s.refLost 2 else s

/-- ALIGNED_TIMEOUT: 50 ms after the last good sync (R276). A master has no source to lose. Log: 57 (DEDUCED). -/
def State.alignedTimeout (s : State) : State :=
  if s.rd F.hfFtStatus_state 0 != 3 && s.syncAt + 50000000 ≤ s.ft then s.wr F.hfFtStatus_aligned 0 0 else s

/-- PPS_OUT: the output is high for 100,000 ticks from every multiple of 10^9 on that no step jumped over (R278). Log: 59 (DEDUCED). -/
def State.ppsOut (s : State) : State :=
  let r := s.ft % 1000000000
  { s with board := { s.board with ppsOut := decide (r < 100000) && s.pps.skip != some (s.ft - r) } }

/-! ## Operating points (R281 to R285, R292) -/

/-- Nominal voltage of a point in mV (Table 10-3). -/
def opMV (op : Nat) : Nat := [550, 580, 620, 660, 690, 720, 760, 800].getD op 550

/-- The phase whose points partition `p` runs at: its Deputy's current one, or the next once its move has started (R282). -/
def State.planPhase (s : State) (p : Nat) : Nat := (mget s.plan p).getD (((mget s.deputies p).map (·.2)).getD 0)

/-- Cluster `c` of the module holds a member or a pillar of some bench. -/
def State.cluUsed (s : State) (c : Nat) : Bool := s.roles.any (fun e => cluIdx e.1 == c && decide (1 ≤ e.2.kind))

/-- Request of Table 10-2 and what set it: 7 no layout, 2 idle_op, 1 override, 0 phase. Log: 53 (DEDUCED). -/
def State.request (s : State) (c : Nat) : Nat × Nat :=
  match s.active with
  | none => (3, 7)
  | some l =>
    if !s.cluUsed c then (l.idleOp, 2)
    else
      let ph := s.planPhase (c / 36)
      let ov := l.overrides.filter (fun (o : Override) =>
        o.phase == ph && s.roles.any (fun e => cluIdx e.1 == c && e.2.kind == 1 && e.2.bench == o.bench))
      match ov with
      | [] => ((l.phases.getD ph { offset := 0, op := 3, prio := 0x24, lead := 0, slackRef := 0 }).op, 0)
      | _ => (ov.foldl (fun m (o : Override) => max m o.op) 0, 1)

/-- Caps of Table 10-2 with the code CLU_OP gives each (Table 10-9). -/
def Clu.caps (x : Clu) : List (Nat × Nat) :=
  [(x.demote, 3), (x.power, 4), (x.thermal, 4), (x.forced, 4), (x.regulator, 5), (x.ageing, 6)]

/-- Lowest cap in force. -/
def Clu.cap (x : Clu) : Nat := x.caps.foldl (fun m e => min m e.1) 7

/-- What sets the point a cluster runs at: the request, or the binding cap; among several that bind the spec names none. Log: 54 (DESIGN CHOICE). -/
def State.opCause (s : State) (c : Nat) : Nat × State :=
  let (r, k) := s.request c
  let x := s.cluSt c
  if r ≤ x.cap then (k, s)
  else
    let l := ((x.caps.filter (fun e => e.1 == x.cap)).map (·.2)).eraseDups
    if l.length ≤ 1 then (l.getD 0 k, s)
    else
      let (f, s) := s.fresh
      (l.getD (f % l.length) k, s)

/-- Cluster `c` starts a change to a point, in a move with instant 0 at `at0` (R293); its regulator receives notice of the move (R282). -/
def State.startChange (s : State) (c target at0 : Nat) (rampEnd : Option Nat) : State :=
  let s := s.notice c
  let s := s.setClu c { s.cluSt c with fchg := some { target := target, zero := at0, rampEnd := rampEnd }, next := none }
  s.wr F.cluOp_fchgBusy c 1

/-- Supply voltage of a cluster at a point, in mV: the nominal voltage and the trim, which counts steps of 2 mV (R284, R285). -/
def Clu.supply (x : Clu) (op : Nat) : Nat := opMV op + 2 * x.trim

/-- Ticks that the regulator's ramp from one supply voltage up to another takes (R292). -/
def rampTicks (old new : Nat) : Nat := 1000 * (new - old) / 20

/-- Ticks of the ramp of cluster `c` to a point. -/
def State.rampTo (s : State) (c point : Nat) : Nat :=
  rampTicks ((s.cluSt c).supply (s.rd F.cluOp_curOp c)) ((s.cluSt c).supply point)

/-- The point a cluster runs at least at while one of its cores serves a duplicate: that of the original's cluster (R456). Log: 112 (DEDUCED). -/
def State.floorOp (s : State) (c : Nat) : Nat :=
  (s.samples.filter (fun x => cluIdx x.witness == c || x.third.any (fun t => cluIdx t == c))).foldl
    (fun m x => max m (s.rd F.cluOp_curOp (cluIdx x.core))) 0

/-- Clusters of a list are moved to the points that Table 10-2 selects (R281, R293, R294): in one move the voltages of those that
rise ramp together before instant 0; a change in progress keeps the latest target for its end. During the pause of an activation every cluster
holds its point (R506). -/
def State.moveClusters (s : State) (cs : List Nat) : State :=
  if s.act.any (fun (a : Activation) => a.c.isSome) then s else
  let on := cs.filter (fun c => s.cluState c == 2)
  let want := fun (s : State) c => min (max (s.request c).1 (s.floorOp c)) (s.cluSt c).cap
  let s := on.foldl (fun s c => (s.wr F.cluOp_targetOp c (s.request c).1).wr F.cluOp_capOp c (s.cluSt c).cap) s
  let free := on.filter (fun c => (s.cluSt c).fchg.isNone)
  let moving := free.filter (fun c => want s c != s.rd F.cluOp_curOp c)
  let ramp := moving.foldl (fun m c => max m (s.rampTo c (want s c))) 0
  let at0 := s.ft + ramp
  let s := on.foldl (fun s c =>
    match (s.cluSt c).fchg with
    | none => s
    | some f => s.setClu c { s.cluSt c with next := if want s c == f.target then none else some (want s c) }) s
  let s := moving.foldl (fun s c =>
    let rise := s.rampTo c (want s c)
    s.startChange c (want s c) at0 (if rise == 0 then none else some (s.ft + rise))) s
  (free.filter (fun c => !moving.contains c)).foldl (fun s c =>
    let (k, s) := s.opCause c
    s.wr F.cluOp_cause c k) s

/-- Select again for one cluster, as when one of its caps changes. -/
def State.select (s : State) (c : Nat) : State := s.moveClusters [c]

/-- Clusters of a partition. -/
def cluOfPart (p : Nat) : List Nat := (List.range 36).map (fun i => 36 * p + i)

/-- Select again for every cluster. -/
def State.selectAll (s : State) : State := loop 8 (fun p s => s.moveClusters (cluOfPart p)) s

/-- A change ends at a point: the cluster runs there, and the latest target that waited is applied (R294). Log: 56 (DEDUCED). -/
def State.endChange (s : State) (c point : Nat) : State :=
  let x := s.cluSt c
  let stop := s.ftAt c - ((x.fchg.map (·.stopped)).getD x.stopAt)
  let s := s.setClu c { x with fchg := none, next := none, restartAt := s.ftAt c, stretched := 0, droop := false }
  let s := (s.wr F.cluOp_curOp c point).wr F.cluOp_fchgBusy c 0
  let s := s.wr F.cluFchg_lastStop c (min stop 65535)
  let s := s.wr F.cluFchg_maxStop c (max (s.rd F.cluFchg_maxStop c) (min stop 65535))
  s.select c

/-- VOLTAGE_RAMP_DONE. -/
def State.rampDone (s : State) (c : Nat) : State :=
  match (s.cluSt c).fchg with
  | some f => if f.rampEnd.any (fun t => decide (t ≤ s.ft)) then s.setClu c { s.cluSt c with fchg := some { f with rampEnd := none } } else s
  | none => s

/-- FCHG_STOP: the clocks of the changing clusters of a grid row stop in the row's slot (R293); one that a droop hold had stopped already has
stood since that hold began (R294). -/
def State.fchgStop (s : State) (p row : Nat) : State :=
  (List.range 6).foldl (fun s i =>
    let c := 36 * p + 6 * row + i
    match (s.cluSt c).fchg with
    | some f =>
      if f.stage == 0 && f.rampEnd.isNone && decide (f.zero + 1250 * row ≤ s.ftAt c) then
        let x := s.cluSt c
        s.setClu c { x with fchg := some { f with stage := 1, stopped := s.ftAt c }, stopAt := if x.hold then x.stopAt else s.ftAt c }
      else s
    | none => s) s

/-- One stage of a stopped cluster's change follows another. Log: 56 (DEDUCED). -/
def State.fchgNext (s : State) (c stage : Nat) : State :=
  match (s.cluSt c).fchg with
  | some f => if f.stage == stage then s.setClu c { s.cluSt c with fchg := some { f with stage := stage + 1 } } else s
  | none => s

/-- FCHG_RESTART: relocked, and no droop since the stop that has not settled (R295). -/
def State.fchgRestart (s : State) (c : Nat) : State :=
  let x := s.cluSt c
  match x.fchg with
  | some f => if f.stage == 3 && !x.droop && !x.hold then (s.inc F.cluFchg_changes c).endChange c f.target else s
  | none => s

/-- A tally of a Deputy to its partition's fault_ring. -/
def State.deputyNote (s : State) (p event lo hi : Nat) : State := s.note p (unitDeputy p) event lo hi

/-- FCHG_ABORT: the stop has lasted 20,000 ticks under droop (R295). -/
def State.fchgAbort (s : State) (c : Nat) : State :=
  let x := s.cluSt c
  let old := s.rd F.cluOp_curOp c
  match x.fchg with
  | some f =>
    if 1 ≤ f.stage && x.droop && f.stopped + 20000 ≤ s.ftAt c then
      let point := min old f.target
      let s := (s.inc F.cluFchg_aborts c).stick F.cluClkSticky_fchgAbort c (c / 36)
      let s := s.deputyNote (c / 36) 0x0321 (c % 36 + old * 2 ^ 8 + f.target * 2 ^ 16 + point * 2 ^ 24) 0
      s.endChange c point
    else s
  | none => s

/-- A demotion by one point (R288): counted, and without effect at OP0. Log: 55 (DEDUCED). -/
def State.demote (s : State) (c cause : Nat) : State :=
  let x := s.cluSt c
  let old := min (s.rd F.cluOp_curOp c) x.demote
  let s := (s.inc F.cluClkStat_demotions c).setClu c { x with stretched := 0 }
  if old == 0 then s
  else
    let s := s.setClu c { s.cluSt c with demote := old - 1 }
    let s := s.deputyNote (c / 36) 0x0320 (c % 36 + old * 2 ^ 8 + (old - 1) * 2 ^ 16 + cause * 2 ^ 24) 0
    s.select c

/-- DROOP_DETECT: the lowest sensor stands `below` mV under its target, and the replica needs `need` thousandths of the nominal
period for `n` periods (R286 to R288, R429). -/
def State.droopDetect (s : State) (c below need n : Nat) : State :=
  if s.cluState c != 2 then s
  else
    let s := if 25 < below then s.inc F.partPwrClu_droops c else s
    let x := s.cluSt c
    if 1500 < need then
      if x.hold then s
      else
        let s := (s.inc F.cluClkStat_droopHolds c).stick F.cluClkSticky_droopHold c (c / 36)
        (s.setClu c { x with hold := true, droop := true, stopAt := if x.fchg.any (fun f => decide (1 ≤ f.stage)) then x.stopAt else s.ftAt c }).demote c 2
    else if 1000 < need then
      let s := s.setClu c { x with droop := x.fchg.any (fun f => decide (1 ≤ f.stage)), stretched := if 1030 ≤ need then x.stretched + n else 0 }
      if 1030 ≤ need then s.incUnit F.cluClkStat_stretchedK c 1024 n else s
    else s.setClu c { x with stretched := 0 }

/-- DROOP_DETECT of the transit clock of partition `p`: it has no operating point and is never demoted (R299). -/
def State.transitDroop (s : State) (p need : Nat) : State :=
  if s.partDark p || decide (need ≤ 1500) || s.transitHold.contains p then s
  else { (s.stick F.partNetSticky_transitHold p p) with transitHold := s.transitHold ++ [p] }

/-- DROOP_HOLD_END of the transit clock of partition `p`. -/
def State.transitEnd (s : State) (p : Nat) : State := { s with transitHold := s.transitHold.filter (· != p) }

/-- DROOP_HOLD_END: 64 ticks in a row at or below the nominal period (R287, R295). -/
def State.droopEnd (s : State) (c : Nat) : State :=
  let x := s.cluSt c
  s.setClu c { x with hold := false, droop := false, stretched := 0, restartAt := if x.hold then s.ftAt c else x.restartAt }

/-- DEMOTE: 64 stretched periods in a row (R288). -/
def State.demoteDue (s : State) (c : Nat) : State :=
  if 64 ≤ (s.cluSt c).stretched && s.cluState c == 2 then s.demote c 1 else s

/-- TRIM_READ: what the ageing monitors call for at each point, in mV (R285). -/
def State.trimRead (s : State) (c : Nat) (mv : List Nat) : State :=
  let x := s.cluSt c
  let high := lowest 8 (fun i => decide (30 < mv.getD i 0))
  let use := match high with
    | none => mv.take 8
    | some k => mv.take k
  let trim := max x.trim (ceilDiv (use.foldl max 0) 2)
  let s := (s.setClu c { x with trim := trim }).wr F.cluOp_trim c trim
  match high with
  | none => s
  | some k =>
    if k - 1 < x.ageing then
      let s := s.setClu c { s.cluSt c with ageing := k - 1 }
      let s := s.stick F.cluClkSticky_ageingCap c (c / 36)
      let s := s.deputyNote (c / 36) 0x0322 (c % 36 + (k - 1) * 2 ^ 8 + mv.getD k 0 % 256 * 2 ^ 16) 0
      s.select c
    else s

/-! ## Shifts and phases (R279 to R283) -/

/-- HF_SCHED_TALLY as it governs an instant (R283): a write takes effect from the tick after it. Log: 63 (DEDUCED). -/
def State.schedTally (s : State) (at_ : Nat) : Nat := if s.schedAt != 0 && at_ ≤ s.schedAt then s.schedPrev else s.reg .hfSchedTally 0

/-- A tally of the shift sequencer to the ring of HF_SCHED_TALLY of every partition. -/
def State.schedNote (s : State) (at_ ctl event lo hi : Nat) : State :=
  loop 8 (fun p s => s.tallyAt at_ p (bits ctl 2 3) unitSeq event 0 lo hi) s

/-- Start of shift `k` of a layout. -/
def State.shiftStart (s : State) (l : Layout) (k : Nat) : Nat := s.rd F.hfLayoutOrigin_origin 0 + k * l.shiftLen

/-- No shift or phase of the active layout starts at tick `t`: a swap whose instant is not later has been accepted (R262), or a reset of the
schedule runs (R488). -/
def State.noPhaseAt (s : State) (t : Nat) : Bool :=
  s.swap.any (fun w => w.begun || decide (w.ft ≤ t)) || s.resets.any (fun r => decide (3 ≤ r.kind))

/-- The shift and phase that follow those a Deputy runs: its first is phase 0 of the shift that is open or opens next (R279). -/
def State.nextPhase (s : State) (l : Layout) (p : Nat) : Nat × Nat :=
  match mget s.deputies p with
  | some (k, i) => if i + 1 < l.phases.length then (k, i + 1) else (k + 1, 0)
  | none => (if s.flag F.hfShift_open 0 then s.rd F.hfShift_shift 0 else s.nextShift, 0)

/-- SHIFT_OPEN: a shift of the active layout opens on time (R279, R280), and the retirements due are served (R265); none opens during a reset of
the schedule (R488). Log: 53 (DEDUCED). -/
def State.shiftOpen (s : State) : State :=
  match s.active with
  | none => s
  | some l =>
    let k := s.nextShift
    let t := s.shiftStart l k
    if s.noPhaseAt t || s.ft < t then s
    else
      let s := { s with nextShift := k + 1, phaseOn := false }
      let s := ((s.wr F.hfShift_shift 0 k).wr F.hfShift_phase 0 0).wr F.hfShift_open 0 1
      let ctl := s.schedTally t
      let s := if bitAt ctl 0 then s.schedNote t ctl 0x0300 k 0 else s
      s.serveRepairs t

/-- PHASE_START at the shift sequencer: phase 0 right after its shift has opened, and the others in order at their offsets (R279). Log: 17 (DEDUCED). -/
def State.phaseStart (s : State) : State :=
  match s.active with
  | none => s
  | some l =>
    let i := if s.phaseOn then s.rd F.hfShift_phase 0 + 1 else 0
    match l.phases[i]? with
    | none => s
    | some ph =>
      let k := s.rd F.hfShift_shift 0
      let t := s.shiftStart l k + ph.offset
      if !s.flag F.hfShift_open 0 || s.ft < t then s
      else
        let s := { (s.wr F.hfShift_phase 0 i) with phaseOn := true }
        let ctl := s.schedTally t
        if bitAt ctl 1 then s.schedNote t ctl 0x0301 i k else s

/-- PHASE_START at the Deputy of partition `p`, by its own local FT (R279): demotions end (R288), the slack of the phase is to be found (R439), and
the points of its clusters are selected again (R281). -/
def State.deputyPhase (s : State) (p : Nat) : State :=
  match s.active with
  | none => s
  | some l =>
    let (k, i) := s.nextPhase l p
    match l.phases[i]? with
    | none => s
    | some ph =>
      let t := s.shiftStart l k + ph.offset
      if s.noPhaseAt t || s.ftPart p < t then s
      else
        let s := { s with deputies := mput s.deputies p (k, i), plan := mdel s.plan p }
        let s := (cluOfPart p).foldl (fun s c => s.setClu c { s.cluSt c with demote := 7 }) s
        let s :=
          if ph.slackRef == 0 then s
          else { s with slackRuns := s.slackRuns ++ [{ part := p, phase := i, start := t, ref := s.shiftStart l k + ph.slackRef, done := t }] }
        s.moveClusters (cluOfPart p)

/-- PHASE_START: the phase begins at the shift sequencer, and at each Deputy whose own local FT has reached its start (R279). Log: 17 (DEDUCED). -/
def State.phasesStart (s : State) : State := loop 8 (fun p s => s.deputyPhase p) s.phaseStart

/-- OP_MOVE_START: from phase start minus lead on, the Deputy of `p` moves its clusters to the next phase's points (R282). -/
def State.opMove (s : State) (p : Nat) : State :=
  match s.active with
  | none => s
  | some l =>
    let (k, i) := s.nextPhase l p
    match l.phases[i]? with
    | none => s
    | some ph =>
      let t := s.shiftStart l k + ph.offset
      if s.noPhaseAt t || s.ftPart p + ph.lead < t || (mget s.plan p).isSome then s
      else ({ s with plan := mput s.plan p i }).moveClusters (cluOfPart p)

/-! ## Events -/

/-- FT_FRAME. -/
def execFtFrame (u : Fin 296) (w : Word64) (s : State) : Host.Outcome State Fault Refusal := finish (s.ftFrame u w.toNat)
/-- PPS_EDGE. -/
def execPpsEdge (s : State) : Host.Outcome State Fault Refusal := finish s.ppsEdge
/-- PPS_TIMEOUT. -/
def execPpsTimeout (s : State) : Host.Outcome State Fault Refusal := finish s.ppsTimeout
/-- ALIGNED_TIMEOUT. -/
def execAlignedTimeout (s : State) : Host.Outcome State Fault Refusal := finish s.alignedTimeout
/-- PPS_OUT. -/
def execPpsOut (s : State) : Host.Outcome State Fault Refusal := finish s.ppsOut
/-- SHIFT_OPEN. -/
def execShiftOpen (s : State) : Host.Outcome State Fault Refusal := finish s.shiftOpen
/-- PHASE_START. -/
def execPhaseStart (s : State) : Host.Outcome State Fault Refusal := finish s.phasesStart
/-- OP_MOVE_START. -/
def execOpMoveStart (p : PartId) (s : State) : Host.Outcome State Fault Refusal := finish (s.opMove p)
/-- TRIM_READ. -/
def execTrimRead (p : PartId) (c : CluId) (mv : List Nat) (s : State) : Host.Outcome State Fault Refusal :=
  finish (s.trimRead (36 * p.val + c.val) mv)
/-- DROOP_DETECT. -/
def execDroopDetect (p : PartId) (c : Option CluId) (below need n : Nat) (s : State) : Host.Outcome State Fault Refusal :=
  finish (match c with
    | some c => s.droopDetect (36 * p.val + c.val) below need n
    | none => s.transitDroop p need)
/-- DROOP_HOLD_END. -/
def execDroopHoldEnd (p : PartId) (c : Option CluId) (s : State) : Host.Outcome State Fault Refusal :=
  finish (match c with
    | some c => s.droopEnd (36 * p.val + c.val)
    | none => s.transitEnd p)
/-- DEMOTE. -/
def execDemote (p : PartId) (c : CluId) (s : State) : Host.Outcome State Fault Refusal :=
  finish (s.demoteDue (36 * p.val + c.val))
/-- VOLTAGE_RAMP_DONE. -/
def execVoltageRampDone (p : PartId) (c : CluId) (s : State) : Host.Outcome State Fault Refusal :=
  finish (s.rampDone (36 * p.val + c.val))
/-- FCHG_STOP. -/
def execFchgStop (p : PartId) (row : Fin 6) (s : State) : Host.Outcome State Fault Refusal := finish (s.fchgStop p row)
/-- FCHG_DRAIN_DONE. -/
def execFchgDrainDone (p : PartId) (c : CluId) (s : State) : Host.Outcome State Fault Refusal :=
  finish (s.fchgNext (36 * p.val + c.val) 1)
/-- FCHG_RELOCK_DONE. -/
def execFchgRelockDone (p : PartId) (c : CluId) (s : State) : Host.Outcome State Fault Refusal :=
  finish (s.fchgNext (36 * p.val + c.val) 2)
/-- FCHG_RESTART. -/
def execFchgRestart (p : PartId) (c : CluId) (s : State) : Host.Outcome State Fault Refusal :=
  finish (s.fchgRestart (36 * p.val + c.val))
/-- FCHG_ABORT. -/
def execFchgAbort (p : PartId) (c : CluId) (s : State) : Host.Outcome State Fault Refusal :=
  finish (s.fchgAbort (36 * p.val + c.val))

end Sys2Proof.Machine
end

