-- ==== Sys2Proof/Machine/Hash.lean ====
section
/-! DEFINITION. CRC-32C (Table 9-1, R328), SHA-384 (R242) and SHA-256 (R498). -/

namespace Sys2Proof.Machine

/-- One byte into a CRC-32C register (polynomial 0x1EDC6F41, reflected). -/
def crcByte (c : Nat) (b : Byte) : Nat :=
  loop 8 (fun _ c => if c % 2 == 1 then c / 2 ^^^ 0x82F63B78 else c / 2) (c ^^^ b.toNat)

/-- CRC-32C of a byte string, initial value and final XOR all ones. Log: 10 (DESIGN CHOICE). -/
def crc32c (l : List Byte) : Nat := l.foldl crcByte 0xFFFFFFFF ^^^ 0xFFFFFFFF

/-! ## SHA-384 and SHA-256: constants are fractions of roots of the first primes, and a block is a history of two words a round -/

/-- The primes below 410: the first 80. -/
def firstPrimes : List Nat :=
  (List.range 410).filter (fun n => decide (2 ≤ n) && (List.range 21).all (fun d => decide (d < 2) || decide (n ≤ d) || n % d != 0))

/-- The first 64 bits of the fraction of the `k`-th root of `n`, whose integer part is below 16. -/
def rootBits (k n : Nat) : Nat :=
  loop 68 (fun i r => let t := r + 2 ^ (67 - i); if t ^ k ≤ n * 2 ^ (64 * k) then t else r) 0 % 2 ^ 64

/-- What sets the two functions apart: the bits of a word, the rounds, the words a message starts from, and the distances of their rotations. -/
structure HashShape where
  bits : Nat
  rounds : Nat
  start : List Nat
  early : List Nat
  earlyDrop : Nat
  late : List Nat
  lateDrop : Nat
  old : List Nat
  new_ : List Nat
  deriving DecidableEq, Repr

/-- SHA-384: it starts from the square roots of the ninth to the sixteenth prime. -/
def shape384 : HashShape :=
  { bits := 64, rounds := 80, start := ((firstPrimes.drop 8).take 8).map (rootBits 2), early := [1, 8], earlyDrop := 7, late := [19, 61],
    lateDrop := 6, old := [14, 18, 41], new_ := [28, 34, 39] }

/-- SHA-256: it starts from the square roots of the first eight primes. -/
def shape256 : HashShape :=
  { bits := 32, rounds := 64, start := (firstPrimes.take 8).map (fun p => rootBits 2 p / 2 ^ 32), early := [7, 18], earlyDrop := 3,
    late := [17, 19], lateDrop := 10, old := [6, 11, 25], new_ := [2, 13, 22] }

/-- What each round adds: fractions of cube roots. -/
def HashShape.adds (h : HashShape) : List Nat := (firstPrimes.take h.rounds).map (fun p => rootBits 3 p / 2 ^ (64 - h.bits))

/-- XOR of a word rotated right by each of some distances. -/
def HashShape.turns (h : HashShape) (x : Nat) (l : List Nat) : Nat :=
  l.foldl (fun y n => y ^^^ ((x + 2 ^ h.bits * x) / 2 ^ n % 2 ^ h.bits)) 0

/-- The words, one a round, that a block's 16 become. -/
def HashShape.spread (h : HashShape) (w : List Nat) : List Nat :=
  loop (h.rounds - 16) (fun i w =>
    let x := w.getD (i + 1) 0
    let y := w.getD (i + 14) 0
    w ++ [(w.getD i 0 + (h.turns x h.early ^^^ x / 2 ^ h.earlyDrop) + w.getD (i + 9) 0
      + (h.turns y h.late ^^^ y / 2 ^ h.lateDrop)) % 2 ^ h.bits]) w

/-- One round: the newest pair of words from the last four pairs, newest first, and what the round adds. -/
def HashShape.churn (h : HashShape) (p : List (Nat × Nat)) (k : Nat) : List (Nat × Nat) :=
  let x := fun i => (p.getD i (0, 0)).1
  let y := fun i => (p.getD i (0, 0)).2
  let pick := y 2 ^^^ (y 0 &&& (y 1 ^^^ y 2))
  let most := (x 0 &&& x 1) ||| (x 2 &&& (x 0 ||| x 1))
  let t := y 3 + h.turns (y 0) h.old + pick + k
  ((t + h.turns (x 0) h.new_ + most) % 2 ^ h.bits, (x 3 + t) % 2 ^ h.bits) :: p.take 3

/-- One block of sixteen words into the eight words. -/
def HashShape.block (h : HashShape) (v : List Nat) (blk : List Byte) : List Nat :=
  let w := h.spread ((chunks (h.bits / 8) 16 blk).map (fun c => leNat c.reverse))
  let p := (List.zipWith (· + ·) h.adds w).foldl h.churn ((v.take 4).zip (v.drop 4))
  List.zipWith (fun a b => (a + b) % 2 ^ h.bits) v (p.map (·.1) ++ p.map (·.2))

/-- The eight words of a byte string, padded with its length in two words, as bytes. -/
def HashShape.run (h : HashShape) (l : List Byte) : List Byte :=
  let n := 2 * h.bits
  let tail := [0x80] ++ List.replicate ((2 * n - 1 - n / 8 - l.length % n) % n) 0 ++ (leBytes (n / 8) (8 * l.length)).reverse
  let m := l ++ tail
  ((chunks n (m.length / n) m).foldl h.block h.start).flatMap (fun x => (leBytes (h.bits / 8) x).reverse)

/-- SHA-384 of a byte string, as 48 bytes. Log: 10 (DESIGN CHOICE). -/
def sha384 (l : List Byte) : List Byte := (shape384.run l).take 48

/-- SHA-256 of a byte string, as 32 bytes (R498). Log: 10 (DESIGN CHOICE). -/
def sha256 (l : List Byte) : List Byte := shape256.run l

/-- The six words a hash is reported in (Table 9-18): byte 8j in bits 7 to 0 of word j. -/
def hashWords (l : List Byte) : List Nat := (chunks 8 6 l).map leNat

end Sys2Proof.Machine
end

