-- ==== Sys2Proof/Machine/Image.lean ====
section
/-! DEFINITION. Layout images: format and validation (R240 to R256, R538, R539, Tables 9-1 to 9-12). -/

namespace Sys2Proof.Machine

/-- A check's outcome: a value, or the rejection. -/
abbrev Check (α : Type) := Except Reject α

/-- A condition that must hold, or the image is rejected with a code at a place (R538). -/
def need (ok : Bool) (code sect rec_ : Nat) : Check Unit := if ok then .ok () else .error ⟨code, sect, rec_⟩

/-- Little-endian number of image bytes. -/
def imgLE (img : List Byte) (off n : Nat) : Nat := leNat ((img.drop off).take n)

/-- What validation compares an image with: its length and the running manifest, the retired cores and dark partitions at the load
write (R259), the fixed interleave, and the network's paths. -/
structure ImgEnv where
  len : Nat
  manifest : Nat
  retired : List Nat
  dark : Nat
  mode : Option Nat
  net : NetMap
  deriving DecidableEq, Repr

/-- Header checks (R256 step 2): the code of the first that fails, 0 if none. -/
def headerCheck (img : List Byte) (env : ImgEnv) : Nat :=
  let size := imgLE img 8 4
  if img.take 4 != [0x4A, 0x4C, 0x49, 0x31] then 0x01
  else if imgLE img 4 2 != 1 || imgLE img 6 2 != 0 then 0x02
  else if size % 512 != 0 || decide (size < 4096) || decide (67108864 < size) || size != env.len then 0x03
  else if crc32c (img.take 12 ++ [0, 0, 0, 0] ++ img.drop 16) != imgLE img 12 4 then 0x04
  else if (img.drop 32).take 4 != [0x42, 0x52, 0x38, 0x00] || decide (env.manifest < imgLE img 20 4) then 0x05
  else if bits (imgLE img 16 2) 2 14 != 0 || ((img.drop 36).take 220).any (· != 0) then 0x08
  else 0

/-- A section (Table 9-2): its entry in the table, kind, count and offset. -/
structure Sect where
  entry : Nat
  kind : Nat
  count : Nat
  off : Nat
  len : Nat
  deriving DecidableEq, Repr

/-- Record size of a kind (Table 9-3). -/
def recSize (kind : Nat) : Nat := [0, 8, 16, 16, 4, 16, 16, 16, 16, 8, 16, 1].getD kind 0
/-- Lowest and highest count of a kind (Table 9-3). -/
def recCount (kind : Nat) : Nat × Nat :=
  [(0, 0), (1, 8), (1, 1), (1, 256), (4608, 4608), (0, 32768), (0, 32768), (1, 1), (1, 64), (0, 4096), (1, 1),
   (0, 2 ^ 32 - 1)].getD kind (0, 0)
/-- Required kinds, in order. -/
def requiredKinds : List Nat := [1, 2, 3, 4, 7, 8, 10]

/-- One entry of the section table. -/
def sectAt (img : List Byte) (i : Nat) : Sect :=
  let e := 256 + 16 * i
  { entry := i, kind := imgLE img e 2, count := imgLE img (e + 4) 4, off := imgLE img (e + 8) 4, len := imgLE img (e + 12) 4 }

/-- Whether an entry is as R240, R241 and Table 9-3 ask, given the entries before it. -/
def sectOk (img : List Byte) (n : Nat) (before : List Sect) (x : Sect) : Bool :=
  let c := recCount x.kind
  decide (1 ≤ x.kind) && decide (x.kind ≤ 11) && !before.any (fun y => y.kind == x.kind)
  && imgLE img (256 + 16 * x.entry + 2) 2 == 0
  && x.off % 64 == 0 && x.len == x.count * recSize x.kind && decide (c.1 ≤ x.count) && decide (x.count ≤ c.2)
  && decide (x.off + x.len ≤ imgLE img 8 4)
  && (x.len == 0 || (decide (256 + 16 * n ≤ x.off)
        && !before.any (fun y => y.len != 0 && decide (x.off < y.off + y.len) && decide (y.off < x.off + x.len))))

/-- The section table (R256 step 3). -/
def tableCheck (img : List Byte) : Check (List Sect) :=
  let n := imgLE img 18 2
  if n < 7 || 11 < n then .error ⟨0x06, 0xFF, 0⟩
  else
    let xs := (List.range n).map (sectAt img)
    match (List.range n).find? (fun i => !sectOk img n (xs.take i) (sectAt img i)) with
    | some i => .error ⟨0x06, i, 0⟩
    | none =>
      match requiredKinds.find? (fun k => !xs.any (fun x => x.kind == k)) with
      | some k => .error ⟨0x07, 0xFF, k⟩
      | none => .ok xs

/-- A record: its number, section entry and words. -/
structure Rec where
  num : Nat
  entry : Nat
  w0 : Nat
  w1 : Nat
  deriving DecidableEq, Repr

/-- Records of a kind. -/
def recsOf (img : List Byte) (xs : List Sect) (kind : Nat) : List Rec :=
  match xs.find? (fun x => x.kind == kind) with
  | none => []
  | some x =>
    let sz := recSize kind
    (List.range x.count).map (fun i =>
      { num := i, entry := x.entry, w0 := imgLE img (x.off + sz * i) (min 8 sz),
        w1 := if sz == 16 then imgLE img (x.off + sz * i + 8) 8 else 0 })

/-- The section-table entry of a kind. -/
def entryOfKind (xs : List Sect) (kind : Nat) : Nat := ((xs.find? (fun x => x.kind == kind)).map (·.entry)).getD 0xFF

/-- A condition on a record. -/
def Rec.need (r : Rec) (ok : Bool) (code : Nat) : Check Unit := Machine.need ok code r.entry r.num

/-- TENANCY records (R243): the masks so far. -/
def tenancyStep (acc : List Nat) (r : Rec) : Check (List Nat) := do
  r.need (bits r.w0 8 56 == 0) 0x08
  let m := bits r.w0 0 8
  r.need (m != 0 && acc.all (fun x => x &&& m == 0)) 0x10
  return acc ++ [m]

/-- MEMORY record (R244). -/
def memoryCheck (env : ImgEnv) (tens : List Nat) (r : Rec) : Check Unit := do
  r.need (bits r.w0 1 63 == 0) 0x08
  r.need ((List.range 8).all (fun p => decide (bits r.w1 (8 * p) 8 ≤ 227))) 0x15
  r.need (!(bitAt r.w0 0 && decide (1 < tens.length))) 0x12
  r.need (env.mode.all (fun m => m == bits r.w0 0 1)) 0x14

/-- BENCH records (R245). -/
def benchStep (tens : List Nat) (acc : List Bench) (r : Rec) : Check (List Bench) := do
  let b : Bench := { members := bits r.w0 0 13, pillars := bits r.w0 13 13, tenancy := bits r.w0 26 3, weight := r.w1 }
  r.need (bits r.w0 29 35 == 0) 0x08
  r.need (decide (1 ≤ b.members) && decide (b.members ≤ 4608) && decide (b.pillars ≤ 4607)) 0x20
  r.need (decide (b.tenancy < tens.length)) 0x11
  return acc ++ [b]

/-- Tenancy of a partition in a list of masks. -/
def tenOf (tens : List Nat) (p : Nat) : Option Nat := indexWhere (fun m => bitAt m p) tens

/-- How many roles of a kind name a bench. -/
def countRoles (roles : NMap Role) (kind b : Nat) : Nat := (roles.filter (fun e => e.2.kind == kind && e.2.bench == b)).length

/-- ROLE records (R246), with R18 and the dark partitions; the records come in rising core number. Log: 46 (DEDUCED). -/
def roleStep (env : ImgEnv) (tens : List Nat) (benches : List Bench) (acc : NMap Role) (r : Rec) : Check (NMap Role) := do
  let kind := bits r.w0 0 3
  let b := bits r.w0 3 8
  let i := bits r.w0 11 13
  let bn := benches.getD b { members := 0, pillars := 0, tenancy := 0, weight := 0 }
  r.need (bits r.w0 24 8 == 0) 0x08
  r.need (decide (kind ≤ 2) && (kind == 1 || i == 0) && (kind != 0 || b == 0)) 0x22
  if kind == 0 then return acc
  r.need (decide (b < benches.length)
    && (kind != 1 || (decide (i < bn.members) && !acc.any (fun e => e.2.kind == 1 && e.2.bench == b && e.2.index == i)))
    && (kind != 2 || decide (countRoles acc 2 b < bn.pillars))) 0x21
  r.need (tenOf tens (partOf r.num) == some bn.tenancy) 0x11
  r.need (!env.retired.contains r.num) 0x23
  r.need (!bitAt env.dark (partOf r.num)) 0x24
  return acc ++ [(r.num, { kind := kind, bench := b, index := i })]

/-- The lowest bench with a missing index or too few pillars (R538). Log: 46 (DEDUCED). -/
def shortBench (benches : List Bench) (roles : NMap Role) : Option Nat :=
  lowest benches.length (fun b =>
    let bn := benches.getD b { members := 0, pillars := 0, tenancy := 0, weight := 0 }
    decide (countRoles roles 1 b < bn.members) || decide (countRoles roles 2 b < bn.pillars))

/-- The core of a route end of kind 0 or 1. -/
def endCore (roles : NMap Role) (kind e : Nat) : Option Nat :=
  if kind == 0 then some (bits e 0 13)
  else if kind == 1 then
    (roles.find? (fun x => x.2.kind == 1 && x.2.bench == bits e 0 8 && x.2.index == bits e 8 13)).map (·.1)
  else none

/-- A route end names something that exists (Table 9-8). Log: 49 (DEDUCED). -/
def endOk (roles : NMap Role) (kind e : Nat) : Bool :=
  if kind == 0 then decide (bits e 0 13 < 4608)
  else if kind == 1 then (endCore roles 1 e).isSome
  else kind == 2 && decide (bits e 3 8 < 144)

/-- Reserved bits of a route end are 0. Log: 49 (DEDUCED). -/
def endClean (kind e : Nat) : Bool := (kind != 0 || bits e 13 8 == 0) && (kind != 2 || bits e 11 10 == 0)

/-- ROUTE records (R248): the routes so far and what ports and links carry. Log: 49 (DEDUCED). -/
def routeStep (env : ImgEnv) (tens : List Nat) (roles : NMap Role) (acc : List Route × NMap Nat) (r : Rec) :
    Check (List Route × NMap Nat) := do
  let x : Route := { srcKind := bits r.w0 0 2, dstKind := bits r.w0 2 2, bw := bits r.w0 4 5, pathSel := bits r.w0 9 1,
                     via := bits r.w0 10 1, src := bits r.w0 16 21, dst := bits r.w0 37 21 }
  let a := endPos roles x.srcKind x.src
  let b := endPos roles x.dstKind x.dst
  let pa := (a.map (·.1)).getD 0
  let pb := (b.map (·.1)).getD 0
  let ca := endCore roles x.srcKind x.src
  let cb := endCore roles x.dstKind x.dst
  r.need (bits r.w0 11 5 == 0 && bits r.w0 58 6 == 0 && r.w1 == 0 && endClean x.srcKind x.src && endClean x.dstKind x.dst) 0x08
  r.need (endOk roles x.srcKind x.src && endOk roles x.dstKind x.dst
    && !(if ca.isSome then ca == cb else x.srcKind == x.dstKind && x.src == x.dst)) 0x31
  r.need (decide (1 ≤ x.bw) && decide (x.bw ≤ 16)) 0x32
  r.need (tenOf tens pa == tenOf tens pb) 0x11
  r.need (!ca.any env.retired.contains && !cb.any env.retired.contains) 0x23
  r.need (!bitAt env.dark pa && !bitAt env.dark pb && !(x.via == 0 && (ringParts pa pb).any (bitAt env.dark))) 0x24
  let mine := (acc.1.filter (fun (y : Route) => ((endPos roles y.srcKind y.src).map (·.1)) == some pa)).length
  r.need (decide (mine < 4096)) 0x30
  match routePath env.net roles x with
  | none => .error ⟨0x34, r.entry, r.num⟩
  | some path =>
    match addLoad env.net x.bw path acc.2 with
    | none => .error ⟨0x33, r.entry, r.num⟩
    | some m => return (acc.1 ++ [x], m)

/-- Rows a ring occupies in every memory that holds it (R250): a memory's number, its first row and its last. -/
def ringSpans (roles : NMap Role) (x : Ring) : List (Nat × Nat × Nat) :=
  let last := x.first + x.slots * x.slotRows - 1
  if x.place == 2 then [(4608 + x.part, x.first, last)]
  else if x.place == 0 then [(bits x.holder 0 13, x.first, last)]
  else
    let b := bits x.holder 0 8
    let c := endCore roles 1 x.holder
    let ps := (roles.filter (fun e => e.2.kind == 2 && e.2.bench == b && partOf e.1 == x.part)).map (·.1)
    (c.toList ++ ps).map (fun g => (g, x.first, last))

/-- RING records (R249, R250): the rings so far and the rows they occupy. -/
def ringStep (env : ImgEnv) (debug : Bool) (carve : List Nat) (benches : List Bench) (roles : NMap Role)
    (acc : List Ring × List (Nat × Nat × Nat)) (r : Rec) : Check (List Ring × List (Nat × Nat × Nat)) := do
  let x : Ring := { number := bits r.w0 0 12, part := bits r.w0 12 3, place := bits r.w0 15 2, strict := bitAt r.w0 17,
                    first := bits r.w0 19 24, holder := bits r.w0 43 21, slots := bits r.w1 0 11, slotRows := bits r.w1 11 9,
                    timeout := bits r.w1 32 32 }
  let last := x.first + x.slots * x.slotRows - 1
  let core := if x.place == 0 then some (bits x.holder 0 13) else if x.place == 1 then endCore roles 1 x.holder else none
  r.need (!bitAt r.w0 18 && bits r.w1 20 12 == 0 && (x.place != 2 || x.holder == 0)
    && (x.place != 0 || bits x.holder 13 8 == 0)) 0x08
  r.need (x.place != 3 && decide (2 ≤ x.slots) && decide (x.slots ≤ 1024) && decide (1 ≤ x.slotRows)
    && decide (x.slotRows ≤ 256)) 0x38
  r.need (!acc.1.any (fun y => y.part == x.part && y.number == x.number)) 0x39
  r.need (if x.place == 2 then decide (last < 144 * (98304 - 128 * carve.getD x.part 0))
    else decide (last ≤ 3071) && core.any (fun g => decide (g < 4608) && partOf g == x.part)
      && (x.place == 0 || decide (bits x.holder 0 8 < benches.length))) 0x3A
  r.need (!core.any env.retired.contains) 0x23
  r.need (!bitAt env.dark x.part) 0x24
  let spans := ringSpans roles x
  r.need (!spans.any (fun s => acc.2.any (fun t => s.1 == t.1 && decide (s.2.1 ≤ t.2.2) && decide (t.2.1 ≤ s.2.2)))) 0x3B
  r.need (x.timeout != 0 || debug) 0x3C
  return (acc.1 ++ [x], acc.2 ++ spans)

/-- PHASE records (R252). -/
def phaseStep (shiftLen : Nat) (acc : List Phase) (r : Rec) : Check (List Phase) := do
  let x : Phase := { offset := bits r.w0 0 32, op := bits r.w0 32 3, prio := bits r.w0 36 6, lead := bits r.w0 48 16,
                     slackRef := bits r.w1 0 32 }
  r.need (!bitAt r.w0 35 && bits r.w0 42 6 == 0 && bits r.w1 32 32 == 0) 0x08
  r.need ((match acc.getLast? with
      | none => x.offset == 0
      | some y => decide (y.offset < x.offset))
    && decide (x.offset < shiftLen)
    && (x.slackRef == 0 || (decide (x.offset < x.slackRef) && decide (x.slackRef ≤ shiftLen)))) 0x41
  let c := [bits x.prio 0 2, bits x.prio 2 2, bits x.prio 4 2]
  r.need ([0, 1, 2].all (fun k => c.contains k)) 0x42
  return acc ++ [x]

/-- OP_OVERRIDE records (R253). -/
def overrideStep (phases benches : Nat) (acc : List Override) (r : Rec) : Check (List Override) := do
  let x : Override := { phase := bits r.w0 0 6, bench := bits r.w0 6 8, op := bits r.w0 14 3 }
  r.need (bits r.w0 17 47 == 0) 0x08
  r.need (decide (x.phase < phases) && decide (x.bench < benches)
    && !acc.any (fun y => y.phase == x.phase && y.bench == x.bench)) 0x43
  return acc ++ [x]

/-- ASSAY record (R254). -/
def assayCheck (debug : Bool) (r : Rec) : Check AssayPol := do
  let x : AssayPol := { kCmd := bits r.w0 0 5, kVec := bits r.w0 5 5, enable := bitAt r.w0 10, witness := bits r.w0 11 2,
                        canary := bitAt r.w0 13 }
  r.need (bits r.w0 14 50 == 0 && r.w1 == 0) 0x08
  r.need (decide (6 ≤ x.kCmd) && decide (x.kCmd ≤ 16) && decide (x.kCmd ≤ x.kVec) && decide (x.kVec ≤ 20)) 0x48
  r.need (x.witness != 3 && (x.enable || debug)) 0x49
  return x

/-- An empty record stands for a section that the table check has shown to be there. -/
def oneRec (l : List Rec) : Rec := l.getD 0 { num := 0, entry := 0xFF, w0 := 0, w1 := 0 }

/-- Validation of an image that could be read whole (R256): the layout, or the rejection. -/
def validate (img : List Byte) (env : ImgEnv) : Check Layout := do
  let code := headerCheck img env
  need (code == 0) code 0xFF 0
  let xs ← tableCheck img
  let recs := recsOf img xs
  let flags := imgLE img 16 2
  let debug := bitAt flags 0
  let tens ← (recs 1).foldlM tenancyStep []
  need ((List.range 8).all (fun p => tens.any (fun m => bitAt m p))) 0x10 (entryOfKind xs 1) 0xFFFF
  let mem := oneRec (recs 2)
  memoryCheck env tens mem
  let carve := (List.range 8).map (fun p => bits mem.w1 (8 * p) 8)
  let benches ← (recs 3).foldlM (benchStep tens) []
  let roles ← (recs 4).foldlM (roleStep env tens benches) []
  match shortBench benches roles with
  | some b => .error ⟨0x21, entryOfKind xs 3, b⟩
  | none =>
    let routes ← (recs 5).foldlM (routeStep env tens roles) ([], [])
    let rings ← (recs 6).foldlM (ringStep env debug carve benches roles) ([], [])
    let sched := oneRec (recs 7)
    sched.need (bits sched.w0 33 31 == 0 && bits sched.w1 3 61 == 0) 0x08
    let shiftLen := bits sched.w0 0 33
    sched.need (decide (1000 ≤ shiftLen) && decide (shiftLen ≤ 4294967296)) 0x40
    let phases ← (recs 8).foldlM (phaseStep shiftLen) []
    let overrides ← (recs 9).foldlM (overrideStep phases.length benches.length) []
    let assay ← assayCheck debug (oneRec (recs 10))
    return { id := imgLE img 24 8, debug := debug, sweep := bitAt flags 1, hash := hashWords (sha384 img), tenancies := tens,
             interleave := bits mem.w0 0 1, carve := carve, benches := benches, roles := roles, routes := routes.1,
             rings := rings.1, shiftLen := shiftLen, idleOp := bits sched.w1 0 3, phases := phases, overrides := overrides,
             assay := assay }

end Sys2Proof.Machine
end

