-- ==== Sys2Proof/Machine/Layout.lean ====
section
/-! DEFINITION. Loading and swapping layouts (R257 to R263, R268 to R270). -/

namespace Sys2Proof.Machine

/-- Indices at which a register stands off its reset value, with its contents. -/
def State.listed (s : State) (r : RegName) : List (Nat × Nat) :=
  (s.regs.filter (fun e => keyName e.1 == r.ctorIdx)).map (fun e => (keyIdx e.1, e.2.toNat))

/-- Retired cores (R18). -/
def State.retiredCores (s : State) : List Nat := ((s.listed .coreId).filter (fun e => bitAt e.2 23)).map (·.1)

/-- Queues that are not STOPPED. -/
def State.liveQueues (s : State) : List Nat := ((s.listed .qState).filter (fun e => bits e.2 0 2 != 0)).map (·.1)

/-! ## Loads (R256 to R259) -/

/-- LAYOUT_LOADED (Table 9-15), with the layout_id of the image's header; a load that was refused, or whose image could not be read, gives
none: that field is free. Log: 44 (DEDUCED). -/
def State.loadedNote (s : State) (code sect rec_ : Nat) (id : Option Nat) : State :=
  let s := ((s.wr F.hfLayoutStatus_loadCode 0 code).wr F.hfLayoutStatus_loadSection 0 sect).wr F.hfLayoutStatus_loadRecord 0 rec_
  let (i, s) := match id with
    | some i => (i, s)
    | none => s.fresh
  s.layoutNote (List.range 8) 0x0700 (code + sect * 2 ^ 8 + rec_ * 2 ^ 16) i

/-- Rows an image of `len` bytes at `src` lies in: its header's row at least. -/
def imageRows (src len : Nat) : List Nat := (List.range (max 1 (ceilDiv len 512))).map (fun i => src + 512 * i)

/-- SOURCE (Table 9-12): every row of the image lies in HBM or in shared memory outside the carve-out. -/
def State.sourceOk (s : State) (src len : Nat) : Bool :=
  src % 512 == 0 && (imageRows src len).all (fun d => (s.resolve d).any (fun c => decide (c < cmBase)))

/-- Bytes of an image as memory holds them. Log: 48 (DESIGN CHOICE). -/
def State.imageBytes (s : State) (src len : Nat) : List Byte :=
  ((imageRows src len).flatMap (fun d => match s.resolve d with
    | some c => s.mem.rdN c 512
    | none => [])).take (max len 512)

/-- The image's rows are read: what that corrects is counted (R195). -/
def State.imageCorr (s : State) (src len : Nat) : State :=
  (imageRows src len).foldl (fun s d => match s.resolve d with
    | some c => s.corr c 512
    | none => s) s

/-- Lines of the image that the host may hold exclusive and must give up before it is read (R407). Log: 48 (DESIGN CHOICE). -/
def State.imageHeld (s : State) (src len : Nat) : List Nat :=
  (imageRows src len).filter (fun d => !(s.heldByHost d false).isEmpty)

/-- A row of the image cannot be read: an uncorrectable error, a lost slice, or a dark partition (R256, R316). Log: 36 (DEDUCED). -/
def State.imageRowBad (s : State) (d : Nat) : Bool :=
  match s.resolve d with
  | none => false
  | some c => s.mem.hurt c 512 || s.sliceLost c || s.partDark (s.ownerOf c) || s.snoopLost c

/-- A load starts (R257): the standby is discarded with the fallback mark, and the image is read from now on. Log: 48 (DESIGN CHOICE). -/
def State.loadStart (s : State) : State :=
  let src := s.rd F.hfLayoutSrc_dpa 0 * 512
  let len := s.rd F.hfLayoutLen_len 0
  let held := s.imageHeld src len
  let s := held.foldl (fun s d => s.snoop d false) s
  let img := if held.isEmpty then some (s.imageBytes src len) else none
  let s := (s.wr F.hfLayoutStatus_standby 0 1).wr F.hfLayoutCmd_fallback 0 0
  let s := s.wr F.hfLayoutIdStandby_standbyId 0 0
  let s := loop 6 (fun j s => s.wr F.hfLayoutHashStandby_standbyHash j 0) s
  { s with standby := none, sinceLoad := [],
           load := some { src := src, len := len, retired := s.retiredCores, dark := s.rd F.hfPwrPart_dark 0, net := s.netWant, img := img } }

/-- A write of load = 1: refused while a load or a swap is pending, held until READY (R483), else started. -/
def State.loadWrite (s : State) : State :=
  if s.load.isSome || s.swap.isSome || s.heldLoad then
    (s.wr F.hfLayoutCmd_load 0 0).loadedNote 0x50 0xFF 0 none
  else if s.stage != 7 then { (s.wr F.hfLayoutCmd_load 0 1) with heldLoad := true }
  else (s.wr F.hfLayoutCmd_load 0 1).loadStart

/-- What validation says of a load (R256): the source, the header's row, the whole image, then its content. Log: 36 (DEDUCED). -/
def State.validateLoad (s : State) (l : LoadRun) (img : List Byte) : Check Layout :=
  let env : ImgEnv :=
    { len := l.len, manifest := s.rd F.hfFwStatus_manifestVersion 0, retired := l.retired, dark := l.dark,
      mode := if s.flag F.hfLayoutStatus_hbmFixed 0 then some (s.rd F.hfLayoutStatus_hbmMode 0) else none, net := l.net }
  if !s.sourceOk l.src l.len then .error ⟨0x09, 0xFF, 0⟩
  else if s.imageRowBad l.src then .error ⟨0x0A, 0xFF, 0⟩
  else if (imageRows l.src l.len).any s.imageRowBad && !(decide (1 ≤ headerCheck img env) && decide (headerCheck img env ≤ 3)) then
    .error ⟨0x0A, 0xFF, 0⟩
  else validate img env

/-- LAYOUT_VALIDATION_DONE. The image counts as it stood at the load write; where the host has written it since, the result is
undefined (R257): the content validated is then free. Log: 44 (DEDUCED), 45 (DEDUCED). -/
def State.validationDone (s : State) : State :=
  match s.load with
  | none => s
  | some l =>
    if l.passed.isSome then s
    else
      let held := s.imageHeld l.src l.len
      if l.img.isNone && !held.isEmpty then held.foldl (fun s d => s.snoop d false) s
      else
        let now := s.imageBytes l.src l.len
        let s := s.imageCorr l.src l.len
        let (img, s) := match l.img with
          | none => (now, s)
          | some b =>
            if b == now then (b, s)
            else ((List.range b.length).map (fun i => Config.residue s.freeCtr i), { s with freeCtr := s.freeCtr + 1 })
        let s := s.wr F.hfLayoutCmd_load 0 0
        match s.validateLoad l img with
        | .error e =>
          ({ (s.wr F.hfLayoutStatus_standby 0 0) with load := none }).loadedNote e.code e.sect e.rec_
            (if e.code == 0x09 || e.code == 0x0A then none else some (imgLE img 24 8))
        | .ok y => { (s.wr F.hfLayoutStatus_loadCode 0 0) with load := some { l with passed := some y } }

/-- LAYOUT_BROADCAST_DONE: the standby is READY (R258). -/
def State.broadcastDone (s : State) : State :=
  match s.load with
  | none => s
  | some l =>
    match l.passed with
    | none => s
    | some y =>
      let s := (s.wr F.hfLayoutStatus_standby 0 2).wr F.hfLayoutIdStandby_standbyId 0 y.id
      let s := loop 6 (fun j s => s.wr F.hfLayoutHashStandby_standbyHash j (y.hash.getD j 0)) s
      ({ s with load := none, standby := some y }).loadedNote 0 0 0 (some y.id)

/-! ## Swaps (R261 to R263) -/

/-- A write of swap = 1 (Table 9-13). Log: 52 (DEDUCED). -/
def State.swapWrite (s : State) : State :=
  let t := s.rd F.hfLayoutSwapFt_swapFt 0
  let off : Int := ((t : Nat) : Int) - ((s.rd F.hfLayoutOrigin_origin 0 : Nat) : Int)
  let code :=
    if s.rd F.hfLayoutStatus_standby 0 != 2 then 0x60
    else if t < s.ft + 2000 then 0x61
    else if s.active.any (fun (l : Layout) => off % (l.shiftLen : Int) != 0) then 0x62
    else if s.swap.isSome then 0x63 else 0
  let s := s.wr F.hfLayoutCmd_swap 0 0
  if code != 0 then s.wr F.hfLayoutStatus_swapCode 0 code else s.acceptSwap t 1

/-- A pending swap is withdrawn, with SWAP_CANCELLED. Log: 52 (DEDUCED). -/
def State.withdrawSwap (s : State) (w : Swap) : State :=
  let s := (s.wr F.hfLayoutStatus_swapPending 0 0).wr F.hfLayoutStatus_swapCode 0 0x64
  ({ s with swap := none }).layoutNote (List.range 8) 0x0705 0 w.ft

/-- A write of cancel = 1: it counts up to 1,000 ticks before the instant (R261). -/
def State.cancelWrite (s : State) : State :=
  match s.swap with
  | none => s
  | some w => if s.ft + 1000 ≤ w.ft then s.withdrawSwap w else s

/-- A write to HF_LAYOUT_CMD: the fallback mark as written, then load, swap and cancel, each when its bit is written as 1. Log: 47 (DEDUCED). -/
def State.layoutCmd (s : State) (v : Nat) : State :=
  let s := s.wr F.hfLayoutCmd_fallback 0 (bits v 3 1)
  let s := if bitAt v 0 then s.loadWrite else s
  let s := if bitAt v 1 then s.swapWrite else s
  if bitAt v 2 then s.cancelWrite else s

/-- The first retirement that the standby cannot absorb (R268). -/
def State.unabsorbed (s : State) : Option Absorb :=
  match s.standby with
  | none => none
  | some l => (absorbAll s.net l.routes s.retired (sortNat s.sinceLoad) l.roles).2.find? (fun a => a.pillar.isNone)

/-- SWAP_INSTANT: at S the open shift closes and no queue starts a command (Table 9-14). An automatic swap that would leave a
retirement unabsorbed is not made (R268). Log: 51 (DEDUCED). -/
def State.swapInstant (s : State) : State :=
  match s.swap with
  | none => s
  | some w =>
    if w.begun || s.ft < w.ft then s
    else
      match (if w.cause == 2 then s.unabsorbed else none) with
      | some a =>
        let ps := benchParts (s.standby.elim [] (·.roles)) a.bench
        ({ (s.wr F.hfLayoutStatus_swapPending 0 0) with swap := none }).layoutNote ps 0x0704
          (repairPayload a.bench a.index a.core 0) 0
      | none =>
        { (s.wr F.hfShift_open 0 0) with
          swap := some { w with begun := true },
          act := s.act.map (fun (a : Activation) => if a.begun then { a with swapped := true } else a) }

/-- Every started command of a core or collective queue has completed. -/
def State.quiesced (s : State) : Bool := s.queues.all (fun e => e.2.started.isEmpty)

/-- SWAP_QUIESCE: at Q every queue stops as under R216, queues of mode BENCH lose their entries (R224), and duplicates are
abandoned (R461). -/
def State.swapQuiesce (s : State) : State :=
  match s.swap with
  | none => s
  | some w =>
    if !w.begun || w.q.isSome || !s.quiesced then s
    else
      let s := s.liveQueues.foldl (fun s u => s.stopQueue u) s
      let s := (s.queues.map (·.1)).foldl (fun s u =>
        if s.benchMode u then s.setQ u { s.q u with waiting := [], jump := none } else s) s
      let s := s.abandonAll 6 (fun _ => true)
      { s with swap := some { w with q := some s.ft } }

/-- Bench queues at their reset values (R262). -/
def State.newBenchQueues (s : State) : State :=
  let names : List RegName := [.qBase, .qCtrl, .qHead, .qTail, .qState, .qHalt, .qCerr, .qMember]
  { s with regs := s.regs.filter (fun e => !(names.any (fun r => r.ctorIdx == keyName e.1) && decide (18456 ≤ keyIdx e.1))),
           queues := mdrop (fun u => decide (18456 ≤ u)) s.queues }

/-- Rows that leave a partition's carve-out hold undefined content (R263). Log: 8 (DEDUCED), 124 (DEDUCED). -/
def State.uncarve (s : State) (p old new : Nat) : State :=
  if old ≤ new then s
  else
    loop 144 (fun i s =>
      let base := smBase + smPart * p + smSlice * i
      { s with mem := s.mem.forget (base + 512 * (98304 - 128 * old)) (base + 512 * (98304 - 128 * new)) s.freeCtr,
               freeCtr := s.freeCtr + 1 }) s

/-- The interleave of the first active layout is fixed; under LOCAL every line of HBM then reaches other cells, whose content the
spec does not define (R194, R406). Log: 124 (DEDUCED). -/
def State.fixInterleave (s : State) (mode : Nat) : State :=
  if s.flag F.hfLayoutStatus_hbmFixed 0 then s
  else
    let s := (s.wr F.hfLayoutStatus_hbmFixed 0 1).wr F.hfLayoutStatus_hbmMode 0 mode
    if mode == 1 then s
    else
      let m := s.mem.forget 0 hbmEnd s.freeCtr
      { s with mem := { m with bad := m.bad.filter (fun k => decide (hbmEnd ≤ 32 * k)), weak := m.weak.filter (fun k => decide (hbmEnd ≤ 32 * k)) },
               freeCtr := s.freeCtr + 1 }

/-- BENCH registers follow a layout's roles (Table 8-6). -/
def State.showRoles (s : State) (old new : NMap Role) : State :=
  let s := old.foldl (fun s e => s.setBenchReg e.1 0 0 0) s
  new.foldl (fun s e => if e.2.kind == 1 then s.setBenchReg e.1 e.2.bench e.2.index 1 else s) s

/-- Partition an interrupt source belongs to (Table 15-5). -/
def sourcePart (src : Nat) : Option Nat := if src < 64 then some (src / 8) else if src < 80 then some (src % 8) else none

/-- Interrupt entries of virtual functions that no longer serve their source's partition are switched off (R416). Log: 135 (DEDUCED). -/
def State.dropIntMap (s : State) : State :=
  loop 80 (fun i s =>
    let f := s.rd F.hfIntMap_func i
    if f != 0 && !(sourcePart i).any (fun p => s.vfHasPart (f - 1) p) then s.wr F.hfIntMap_en i 0 else s) s

/-- The tallies of routes that lose their reservation, from the partition block of the source end (R316, Table 11-6). -/
def State.degradedNotes (s : State) (rs : List Route) (gone : List (Nat × Nat)) : State :=
  gone.foldl (fun s x =>
    let p := match rs[x.1]? with
      | some r => ((endPos s.roles r.srcKind r.src).map (·.1)).getD 0
      | none => 0
    (s.stick F.partNetSticky_routeDegraded p p).note p (unitPart p) 0x0683 (x.1 + x.2 * 2 ^ 16) 0) s

/-- LAYOUT_ACTIVE: the standby becomes the active layout (R262, R263, R268). -/
def State.layoutActive (s : State) : State :=
  match s.swap, s.standby with
  | some w, some l =>
    if w.q.isNone then s
    else
      let carve := fun p => (s.active.elim 0 (fun (o : Layout) => o.carve.getD p 0))
      let s := loop 8 (fun p s => s.uncarve p (carve p) (l.carve.getD p 0)) s
      let old := s.roles
      let (routes, gone) := degrade {} s.net l.roles l.routes
      let s := { s with active := some { l with routes := routes }, standby := none, swap := none, roles := l.roles, repairs := [],
                        rings := [], ringWaits := [], ringResets := [], icache := [], ifills := [], plan := [], deputies := [], phaseOn := false,
                        slackRuns := [] }
      let s := s.fixInterleave l.interleave
      let s := loop 8 (fun p s => s.rdcInvalidate p) s
      let s := (s.newBenchQueues).showRoles old l.roles
      let s := loop 256 (fun b s => s.resetReg .hfBenchState b) s
      let s := loop l.benches.length (fun b s => s.countPillars b) s
      let origin := w.ft + 50000
      let last := min (s.ft - w.ft) 0xFFFFFFFF
      let s := s.wr F.hfLayoutOrigin_origin 0 origin
      let s := { (s.wr F.hfShift_phase 0 0) with nextShift := ceilDiv (s.ft - origin) l.shiftLen }
      let s := (s.wr F.hfLayoutIdActive_activeId 0 l.id).wr F.hfLayoutIdStandby_standbyId 0 0
      let s := loop 6 (fun j s =>
        (s.wr F.hfLayoutHashActive_activeHash j (l.hash.getD j 0)).wr F.hfLayoutHashStandby_standbyHash j 0) s
      let s := (s.wr F.hfLayoutCmd_fallback 0 0).wr F.hfLayoutSwapTime_lastNs 0 last
      let s := s.inc F.hfLayoutSwapTime_swaps 0
      let s := ((s.wr F.hfLayoutStatus_standby 0 0).wr F.hfLayoutStatus_swapPending 0 0).wr F.hfLayoutStatus_swapCode 0 0
      let s := ((s.wr F.hfLayoutStatus_activeValid 0 1).wr F.hfLayoutStatus_activeDebug 0 (ofBool l.debug)).wr
        F.hfLayoutStatus_activeSweep 0 (ofBool l.sweep)
      let s := (s.wr F.hfLayoutStatus_exhausted 0 0).wr F.hfLayoutStatus_lastCause 0 w.cause
      let s := s.dropIntMap
      let s := s.layoutNote (List.range 8) 0x0701 (w.cause + last * 2 ^ 32) l.id
      let s := s.degradedNotes l.routes gone
      let due := sortNat s.sinceLoad
      let s := due.foldl (fun s g =>
        match mget s.roles g with
        | some r => if r.kind == 2 then ({ s with roles := mdel s.roles g }).countPillars r.bench else s.serveRepair g
        | none => s) { s with sinceLoad := [] }
      ({ s with genState := [], genSeed := s.freeCtr, freeCtr := s.freeCtr + 1 }).selectAll
  | _, _ => s

/-! ## Events -/

/-- LAYOUT_LOAD: a write of load to HF_LAYOUT_CMD. -/
def execLayoutLoad (f : Func) (v : Word64) (s : State) : Host.Outcome State Fault Refusal :=
  finish (if bitAt v.toNat 0 then s.host f .hfLayoutCmd 0 true (fun s => s.layoutCmd v.toNat) else s)
/-- LAYOUT_VALIDATION_DONE. -/
def execLayoutValidationDone (s : State) : Host.Outcome State Fault Refusal := finish s.validationDone
/-- LAYOUT_BROADCAST_DONE. -/
def execLayoutBroadcastDone (s : State) : Host.Outcome State Fault Refusal := finish s.broadcastDone
/-- SWAP_REQUEST: a write of swap to HF_LAYOUT_CMD. -/
def execSwapRequest (f : Func) (v : Word64) (s : State) : Host.Outcome State Fault Refusal :=
  finish (if bitAt v.toNat 1 then s.host f .hfLayoutCmd 0 true (fun s => s.layoutCmd v.toNat) else s)
/-- SWAP_CANCEL: a write of cancel to HF_LAYOUT_CMD. -/
def execSwapCancel (f : Func) (v : Word64) (s : State) : Host.Outcome State Fault Refusal :=
  finish (if bitAt v.toNat 2 then s.host f .hfLayoutCmd 0 true (fun s => s.layoutCmd v.toNat) else s)
/-- SWAP_INSTANT. -/
def execSwapInstant (s : State) : Host.Outcome State Fault Refusal := finish s.swapInstant
/-- SWAP_QUIESCE. -/
def execSwapQuiesce (s : State) : Host.Outcome State Fault Refusal := finish s.swapQuiesce
/-- LAYOUT_ACTIVE. -/
def execLayoutActive (s : State) : Host.Outcome State Fault Refusal := finish s.layoutActive

end Sys2Proof.Machine
end

