-- ==== Sys2Proof/Machine/Arith.lean ====
section
/-! DEFINITION. Number formats and arithmetic of chapter 2 (R27 to R57): exact values, rounding, conversions, IEEE
operations of the vector engine, the update engine's FP32, the matrix window sum and MX quantisation. -/

namespace Sys2Proof.Machine

/-- The element formats of Table 2-1 that hold one number each. -/
inductive Fmt where
  | fp64 | fp32 | bf16 | fp16 | e5m2 | e4m3 | e3m2 | e2m3 | e2m1 | int32 | int8 | int4
  deriving DecidableEq, Repr

/-- Exponent bits, fraction bits and bias of a floating format (Table 2-1); integer formats give zeros. -/
def Fmt.shape : Fmt → Nat × Nat × Int
  | .fp64 => (11, 52, 1023)
  | .fp32 => (8, 23, 127)
  | .bf16 => (8, 7, 127)
  | .fp16 => (5, 10, 15)
  | .e5m2 => (5, 2, 15)
  | .e4m3 => (4, 3, 7)
  | .e3m2 => (3, 2, 3)
  | .e2m3 => (2, 3, 1)
  | .e2m1 => (2, 1, 1)
  | .int32 | .int8 | .int4 => (0, 0, 0)

/-- Bits of an element (Table 2-1). -/
def Fmt.width : Fmt → Nat
  | .fp64 => 64 | .fp32 => 32 | .bf16 => 16 | .fp16 => 16 | .e5m2 => 8 | .e4m3 => 8 | .e3m2 => 6 | .e2m3 => 6
  | .e2m1 => 4 | .int32 => 32 | .int8 => 8 | .int4 => 4

/-- Whether a format holds integers. -/
def Fmt.isInt : Fmt → Bool
  | .int32 | .int8 | .int4 => true
  | _ => false

/-- Whether a floating format has infinities (Table 2-1). -/
def Fmt.hasInf : Fmt → Bool
  | .fp64 | .fp32 | .bf16 | .fp16 | .e5m2 => true
  | _ => false

/-- Bytes one element takes in memory; 4-bit formats pack two to a byte and answer 0 here (R28). -/
def Fmt.bytes : Fmt → Nat
  | .fp64 => 8 | .fp32 => 4 | .bf16 => 2 | .fp16 => 2 | .e5m2 => 1 | .e4m3 => 1 | .e3m2 => 1 | .e2m3 => 1
  | .e2m1 => 0 | .int32 => 4 | .int8 => 1 | .int4 => 0

/-- An exact value: a NaN (R30: sign and payload are ignored), an infinity, or `(-1)^neg * m * 2^e`, where `m = 0` is a
signed zero. -/
inductive FVal where
  | nan
  | inf (neg : Bool)
  | fin (neg : Bool) (m : Nat) (e : Int)
  deriving DecidableEq, Repr

/-- Positive zero. -/
def FVal.zero : FVal := .fin false 0 0

/-- The exact value of an integer. -/
def FVal.ofInt (v : Int) : FVal := .fin (decide (v < 0)) v.natAbs 0

/-- Decode a bit pattern (R29, R31, R41): every pattern that is no special value is a finite number at its exact value. -/
def Fmt.decode (f : Fmt) (w : Nat) : FVal :=
  if f.isInt then FVal.ofInt (signedOf f.width w)
  else
    let (eb, mb, bias) := f.shape
    let neg := bitAt w (eb + mb)
    let x := bits w mb eb
    let frac := bits w 0 mb
    if f.hasInf && x == 2 ^ eb - 1 then (if frac == 0 then .inf neg else .nan)
    else if f == .e4m3 && x == 15 && frac == 7 then .nan
    else if x == 0 then .fin neg frac (1 - bias - mb)
    else .fin neg (2 ^ mb + frac) (x - bias - mb)

/-- The canonical NaN of Table 2-2; formats without a NaN answer 0 (Table 2-3, NaN source). -/
def Fmt.nanBits : Fmt → Nat
  | .fp64 => 0x7FF8000000000000 | .fp32 => 0x7FC00000 | .bf16 => 0x7FC0 | .fp16 => 0x7E00 | .e5m2 => 0x7E
  | .e4m3 => 0x7F | _ => 0

/-- Whether a format can write a NaN. -/
def Fmt.hasNan (f : Fmt) : Bool := f.nanBits != 0

/-- Infinity of a format that has one (Table 2-2). -/
def Fmt.infBits (f : Fmt) (neg : Bool) : Nat :=
  let (eb, mb, _) := f.shape
  ofBool neg * 2 ^ (eb + mb) + (2 ^ eb - 1) * 2 ^ mb

/-- The largest finite encoding of a floating format, with a sign (Table 2-1). -/
def Fmt.maxBits (f : Fmt) (neg : Bool) : Nat :=
  let (eb, mb, _) := f.shape
  let top := if f.hasInf then 2 ^ (eb + mb) - 2 ^ mb - 1 else if f == .e4m3 then 0x7E else 2 ^ (eb + mb) - 1
  ofBool neg * 2 ^ (eb + mb) + top

/-- `m * 2^e` as a multiple of `2^q`, rounded to nearest with ties to even. -/
def rneAt (m : Nat) (e q : Int) : Nat :=
  if q ≤ e then m * 2 ^ (e - q).toNat
  else
    let d := (q - e).toNat
    let k := m / 2 ^ d
    let r := m % 2 ^ d
    let h := 2 ^ (d - 1)
    if r < h then k else if r > h then k + 1 else k + k % 2

/-- `floor(log2)` of a nonzero finite magnitude. -/
def magExp (m : Nat) (e : Int) : Int := (Nat.log2 m : Int) + e

/-- Round a magnitude to `p` significant bits with unbounded exponent (R35 step 7, R47). -/
def roundP (p : Nat) (m : Nat) (e : Int) : Nat × Int :=
  if m == 0 then (0, 0)
  else
    let q := magExp m e - ((p : Int) - 1)
    (rneAt m e q, q)

/-- What rounding a finite value to a floating format gives. -/
inductive Rounded where
  | ok (w : Nat)
  | over
  deriving DecidableEq, Repr

/-- Round a finite magnitude to a floating format, ties to even, with subnormals (R41); above the largest finite value,
taken with unbounded exponent, it is an overflow (R42, R43). -/
def Fmt.roundFin (f : Fmt) (neg : Bool) (m : Nat) (e : Int) : Rounded :=
  let (eb, mb, bias) := f.shape
  let sign := ofBool neg * 2 ^ (eb + mb)
  if m == 0 then .ok sign
  else
    let emin : Int := 1 - bias - mb
    let q := max (magExp m e - mb) emin
    let k := rneAt m e q
    let (k, q) := if k == 2 ^ (mb + 1) then (2 ^ mb, q + 1) else (k, q)
    let w := if k < 2 ^ mb then k else (q + bias + mb).toNat * 2 ^ mb + (k - 2 ^ mb)
    if w > f.maxBits false then .over else .ok (sign + w)

/-- A converted element and what it counts: clamps (conv_sat) and NaN sources written as zero (nan_lost), R44. -/
structure Conv where
  w : Nat
  sat : Nat := 0
  lost : Nat := 0
  deriving DecidableEq, Repr

/-- The value of a magnitude rounded to an integer, ties to even. -/
def rneInt (neg : Bool) (m : Nat) (e : Int) : Int :=
  let k : Int := rneAt m e 0
  if neg then -k else k

/-- Conversion of an exact value (R41 to R44, Table 2-3); `nonsat` is the conv_mode bit. Integer destinations take a
finite source through round-to-nearest-even and then saturate. An FP64 destination, which Table 2-3 does not list, follows its
FP32 row. Log: 137 (DESIGN CHOICE). -/
def Fmt.convert (f : Fmt) (nonsat : Bool) (v : FVal) : Conv :=
  if f.isInt then
    let lo : Int := -(2 ^ (f.width - 1) : Nat)
    let hi : Int := (2 ^ (f.width - 1) : Nat) - 1
    match v with
    | .nan => { w := 0, lost := 1 }
    | .inf neg => { w := ofSigned f.width (if neg then lo else hi), sat := 1 }
    | .fin neg m e =>
      let k := rneInt neg m e
      if k < lo then { w := ofSigned f.width lo, sat := 1 }
      else if k > hi then { w := ofSigned f.width hi, sat := 1 }
      else { w := ofSigned f.width k }
  else
    let spill (neg : Bool) : Conv :=
      if nonsat && f.hasInf then { w := f.infBits neg }
      else if nonsat && f == .e4m3 then { w := f.nanBits }
      else { w := f.maxBits neg, sat := 1 }
    match v with
    | .nan => if f.hasNan then { w := f.nanBits } else { w := 0, lost := 1 }
    | .inf neg => spill neg
    | .fin neg m e =>
      match f.roundFin neg m e with
      | .ok w => { w := w }
      | .over => spill neg

/-- IEEE rounding of an exact result (R45): overflow gives infinity, every NaN is canonical (R30), nothing is counted. -/
def Fmt.ieee (f : Fmt) (v : FVal) : Nat :=
  match v with
  | .nan => f.nanBits
  | .inf neg => f.infBits neg
  | .fin neg m e =>
    match f.roundFin neg m e with
    | .ok w => w
    | .over => f.infBits neg

namespace FVal

/-- Sign bit. -/
def neg? : FVal → Bool
  | .nan => false
  | .inf n => n
  | .fin n _ _ => n

/-- The value with its sign turned; a NaN stays a NaN. -/
def negate : FVal → FVal
  | .nan => .nan
  | .inf n => .inf !n
  | .fin n m e => .fin (!n) m e

/-- The magnitude. -/
def abs : FVal → FVal
  | .nan => .nan
  | .inf _ => .inf false
  | .fin _ m e => .fin false m e

/-- Whether the value is a zero of either sign. -/
def isZero : FVal → Bool
  | .fin _ m _ => m == 0
  | _ => false

/-- Whether the value is a NaN. -/
def isNan : FVal → Bool
  | .nan => true
  | _ => false

/-- Whether the value is an infinity. -/
def isInf : FVal → Bool
  | .inf _ => true
  | _ => false

/-- The signed integer `v * 2^-q`, for a finite value whose exponent is at least `q`. -/
def scaled (v : FVal) (q : Int) : Int :=
  match v with
  | .fin n m e =>
    let k : Int := (m * 2 ^ (e - q).toNat : Nat)
    if n then -k else k
  | _ => 0

/-- Exponent of a finite value. -/
def expo : FVal → Int
  | .fin _ _ e => e
  | _ => 0

/-- Exact product; infinity times zero is NaN; a product's sign is the exclusive OR of the signs (R36). -/
def mul : FVal → FVal → FVal
  | .nan, _ => .nan
  | _, .nan => .nan
  | .inf a, .inf b => .inf (a != b)
  | .inf a, .fin b m _ => if m == 0 then .nan else .inf (a != b)
  | .fin a m _, .inf b => if m == 0 then .nan else .inf (a != b)
  | .fin a m e, .fin b k f => .fin (a != b) (m * k) (e + f)

/-- Exact sum; infinities of both signs give NaN; an exact zero is negative only when both are negative zeros. -/
def add : FVal → FVal → FVal
  | .nan, _ => .nan
  | _, .nan => .nan
  | .inf a, .inf b => if a == b then .inf a else .nan
  | .inf a, .fin _ _ _ => .inf a
  | .fin _ _ _, .inf b => .inf b
  | .fin a m e, .fin b k f =>
    let q := min e f
    let t := scaled (.fin a m e) q + scaled (.fin b k f) q
    if t == 0 then .fin (if m == 0 && k == 0 then a && b else false) 0 q
    else .fin (decide (t < 0)) t.natAbs q

/-- Exact difference. -/
def sub (x y : FVal) : FVal := add x (negate y)

/-- A quotient good enough to round to 53 bits or fewer: 128 quotient bits and one bit for the remainder. -/
def div : FVal → FVal → FVal
  | .nan, _ => .nan
  | _, .nan => .nan
  | .inf _, .inf _ => .nan
  | .inf a, .fin b _ _ => .inf (a != b)
  | .fin a _ _, .inf b => .fin (a != b) 0 0
  | .fin a m e, .fin b k f =>
    if k == 0 then (if m == 0 then .nan else .inf (a != b))
    else if m == 0 then .fin (a != b) 0 0
    else
      let sh := 128 + Nat.log2 k
      let q := m * 2 ^ sh / k
      let r := m * 2 ^ sh % k
      .fin (a != b) (2 * q + (if r == 0 then 0 else 1)) (e - f - sh - 1)

/-- Integer square root, one result bit for each step of fuel. -/
def isqrt (n : Nat) : Nat → Nat → Nat
  | 0, acc => acc
  | b + 1, acc =>
    let t := acc + 2 ^ b
    isqrt n b (if t * t ≤ n then t else acc)

/-- A square root good enough to round to 53 bits or fewer; of a negative number it is NaN, of -0 it is -0. -/
def sqrt : FVal → FVal
  | .nan => .nan
  | .inf n => if n then .nan else .inf false
  | .fin n m e =>
    if m == 0 then .fin n 0 0
    else if n then .nan
    else
      let sh : Nat := 128 + (if (e % 2 == 0 : Bool) then 0 else 1)
      let w := m * 2 ^ sh
      let r := isqrt w (Nat.log2 w / 2 + 1) 0
      .fin false (2 * r + (if r * r == w then 0 else 1)) ((e - sh) / 2 - 1)

/-- Exact order of two values that are no NaN. -/
def cmp (x y : FVal) : Ordering :=
  let side (v : FVal) : Int :=
    match v with
    | .nan => 0
    | .inf n => if n then -1 else 1
    | .fin _ _ _ => 0
  if side x != 0 || side y != 0 then compare (side x) (side y)
  else
    let q := min (expo x) (expo y)
    compare (scaled x q) (scaled y q)

end FVal

/-- Value of an FP32 bit pattern. -/
def f32 (w : Nat) : FVal := Fmt.fp32.decode w

/-- IEEE minimum or maximum with one NaN ignored is chapter 5's; this orders two non-NaN values with -0 below +0. -/
def FVal.below (x y : FVal) : Bool :=
  match FVal.cmp x y with
  | .lt => true
  | .eq => x.neg? && !y.neg?
  | .gt => false

/-- Directions of an integral rounding. -/
inductive RDir where
  | near | down | up | zero
  deriving DecidableEq, Repr

/-- Round to an integral value; an integral, infinite or NaN input is itself, and a zero result keeps the sign. -/
def FVal.toIntegral (d : RDir) : FVal → FVal
  | .nan => .nan
  | .inf n => .inf n
  | .fin n m e =>
    if 0 ≤ e then .fin n m e
    else
      let k := m / 2 ^ (-e).toNat
      let r := m % 2 ^ (-e).toNat
      let up := match d with
        | .near => false
        | .down => n
        | .up => !n
        | .zero => false
      let v := if d == .near then rneAt m e 0 else if r != 0 && up then k + 1 else k
      .fin n v 0

/-- An update-engine or matrix FP32 result: the value and whether it was flushed. -/
structure Flush where
  v : FVal
  flushed : Bool := false
  deriving DecidableEq, Repr

/-- R35 steps 7 to 10 and R47: round to 24 bits with unbounded exponent; above the largest finite value infinity; nonzero
below `2^-126` a zero of the sign of the exact value, which is a flush. -/
def flush32 (v : FVal) : Flush :=
  match v with
  | .fin n m e =>
    if m == 0 then ⟨.fin n 0 0, false⟩
    else
      let (k, q) := roundP 24 m e
      let x := magExp k q
      if x > 127 then ⟨.inf n, false⟩
      else if x < -126 then ⟨.fin n 0 0, true⟩
      else ⟨.fin n k q, false⟩
  | v => ⟨v, false⟩

/-- FP32 bits of a value that FP32 holds exactly. -/
def bits32 (v : FVal) : Nat := Fmt.fp32.ieee v

/-- R35 step 4: the largest exponent of the nonzero addends, if there is one. -/
def topExp : List FVal → Option Int
  | [] => none
  | v :: r =>
    match v, topExp r with
    | .fin _ m e, none => if m == 0 then none else some (magExp m e)
    | .fin _ m e, some x => if m == 0 then some x else some (max x (magExp m e))
    | _, x => x

/-- Magnitude of a finite addend as a multiple of `2^q`, truncated toward zero (R35 step 5), with its sign. -/
def truncAt (q : Int) : FVal → Int
  | .fin n m e =>
    let k : Nat := if q ≤ e then m * 2 ^ (e - q).toNat else m / 2 ^ (q - e).toNat
    if n then -(k : Int) else k
  | _ => 0

/-- Result of a window sum: the exact window sum (when every addend is finite), its exponent `e`, and the result. -/
structure Window where
  r : Flush
  sum : FVal := .zero
  e : Int := 0
  finite : Bool := false
  deriving DecidableEq, Repr

/-- R35 steps 2 to 10 on the addends, with the sign of an exact zero by R36. -/
def windowSum (as : List FVal) : Window :=
  if as.any FVal.isNan then { r := ⟨.nan, false⟩ }
  else
    let pos := as.any (fun v => v == .inf false)
    let ng := as.any (fun v => v == .inf true)
    if pos && ng then { r := ⟨.nan, false⟩ }
    else if pos || ng then { r := ⟨.inf ng, false⟩ }
    else
      let allNegZero := as.all (fun v => v.neg? && v.isZero)
      match topExp as with
      | none =>
        let z : FVal := .fin allNegZero 0 0
        { r := ⟨z, false⟩, sum := z, e := 0, finite := true }
      | some e =>
        let q := e - 29
        let t := as.foldl (fun acc v => acc + truncAt q v) 0
        let negz := as.all (fun v => v.neg? && truncAt q v == 0)
        let sum : FVal := if t == 0 then .fin negz 0 q else .fin (decide (t < 0)) t.natAbs q
        { r := flush32 sum, sum := sum, e := e, finite := true }

/-- R55: the bits of an addend of weight `2^(e-30)` down to `2^(e-59)`, truncated toward zero below that. -/
def tailBits (e : Int) (v : FVal) : FVal :=
  let hi := truncAt (e - 29) v
  let lo := truncAt (e - 59) v
  let t := lo - hi * (2 ^ 30 : Nat)
  .fin (v.neg?) t.natAbs (e - 59)

/-- R55: one instruction step of a pair accumulator: `ps` the products, `s`, `er` the incoming S and E. A rounding error that is
exactly zero is the addend +0. Log: 138 (DESIGN CHOICE). -/
def pairSum (ps : List FVal) (s er : FVal) : Flush × FVal :=
  let w := windowSum (ps ++ [s])
  if !w.finite then (w.r, .zero)
  else if w.r.flushed then (w.r, .zero)
  else
    match w.r.v with
    | .fin n m x =>
      let err := FVal.add w.sum (.fin (!n) m x)
      let ew := windowSum ((ps ++ [s]).map (tailBits w.e) ++ [err, er])
      (w.r, ew.r.v)
    | v => (⟨v, false⟩, .zero)

/-- R53: split an FP32 value into a BF16 pair (hi, lo); both conversions clamp as SAT does. -/
def splitPair (w : Nat) : Nat × Nat :=
  match f32 w with
  | .nan => (Fmt.bf16.nanBits, 0)
  | .inf n => (Fmt.bf16.infBits n, 0)
  | .fin n m e =>
    let hi := (Fmt.bf16.convert false (.fin n m e)).w
    let lo := (Fmt.bf16.convert false (FVal.sub (.fin n m e) (Fmt.bf16.decode hi))).w
    (hi, lo)

/-- The six element formats of MX (R32). -/
inductive MxFmt where
  | e5m2 | e4m3 | e3m2 | e2m3 | e2m1 | int8
  deriving DecidableEq, Repr

/-- emax_elem (R48). -/
def MxFmt.emax : MxFmt → Int
  | .e4m3 => 8 | .e5m2 => 15 | .e3m2 => 4 | .e2m3 => 2 | .e2m1 => 2 | .int8 => 0

/-- The plain format of an MX element. -/
def MxFmt.fmt : MxFmt → Fmt
  | .e5m2 => .e5m2 | .e4m3 => .e4m3 | .e3m2 => .e3m2 | .e2m3 => .e2m3 | .e2m1 => .e2m1 | .int8 => .int8

/-- Value of an MX element before its block scale (R33, R34): an MXINT8 element counts in units of `2^-6`. -/
def MxFmt.elem (f : MxFmt) (w : Nat) : FVal :=
  match f, f.fmt.decode w with
  | .int8, .fin n m e => .fin n m (e - 6)
  | _, v => v

/-- Value of an element under its scale byte (R33). -/
def MxFmt.value (f : MxFmt) (scale w : Nat) : FVal :=
  if scale == 255 then .nan
  else FVal.mul (f.elem w) (.fin false 1 ((scale : Int) - 127))

/-- Element of the input divided by `2^X`, rounded to nearest even and saturated (R49). -/
def MxFmt.quantElem (f : MxFmt) (x : FVal) (X : Int) : Nat :=
  match x with
  | .fin n m e =>
    match f with
    | .int8 =>
      let k := rneInt n m (e - X + 6)
      ofSigned 8 (max (-128) (min 127 k))
    | f => (f.fmt.convert false (.fin n m (e - X))).w
  | _ => 0

/-- Whether an element encoding is a zero of either sign. -/
def MxFmt.isZeroElem (f : MxFmt) (w : Nat) : Bool := (f.elem w).isZero

/-- One quantised MX block and what it counts (R49, R52). -/
structure MxBlock where
  scale : Nat
  q : List Nat
  zeroBlocks : Nat := 0
  vanished : Nat := 0
  deriving DecidableEq, Repr

/-- R49 and Table 2-5. -/
def MxFmt.quantise (f : MxFmt) (xs : List FVal) : MxBlock :=
  if xs.any (fun v => v.isNan || v.isInf) then { scale := 255, q := xs.map (fun _ => 0) }
  else
    match topExp xs with
    | none => { scale := 0, q := xs.map (fun _ => 0), zeroBlocks := 1 }
    | some t =>
      let X := max (-127) (min 127 (t - f.emax))
      let q := xs.map (fun x => f.quantElem x X)
      let gone := (xs.zip q).filter (fun p => !p.1.isZero && f.isZeroElem p.2)
      { scale := (X + 127).toNat, q := q, vanished := gone.length }

/-- R51: the compensating block of a quantised block; its counters are dropped (R52). -/
def MxFmt.residual (f : MxFmt) (xs : List FVal) (b : MxBlock) : MxBlock :=
  if b.scale == 255 then { scale := 255, q := xs.map (fun _ => 0) }
  else
    let rs := (xs.zip b.q).map (fun p => f32 (Fmt.fp32.ieee (FVal.sub p.1 (f.value b.scale p.2))))
    { f.quantise rs with zeroBlocks := 0, vanished := 0 }

end Sys2Proof.Machine
end

