-- ==== Sys2Proof/Machine/Flags.lean ====
section
/-! DEFINITION. Arithmetic counters and sticky flags of a core (Tables 2-7 to 2-10, R37, R38, R40, R44, R47, R52). -/

namespace Sys2Proof.Machine

/-- What an operation counts. -/
structure Counts where
  mmFtz : Nat := 0
  updFtz : Nat := 0
  sat : Nat := 0
  lost : Nat := 0
  zeroBlocks : Nat := 0
  vanished : Nat := 0
  intOvf : Bool := false
  nanOut : Bool := false
  infOut : Bool := false
  nanScale : Bool := false
  deriving DecidableEq, Repr

/-- Counts of two operations together. -/
def Counts.add (a b : Counts) : Counts :=
  { mmFtz := a.mmFtz + b.mmFtz, updFtz := a.updFtz + b.updFtz, sat := a.sat + b.sat, lost := a.lost + b.lost,
    zeroBlocks := a.zeroBlocks + b.zeroBlocks, vanished := a.vanished + b.vanished, intOvf := a.intOvf || b.intOvf,
    nanOut := a.nanOut || b.nanOut, infOut := a.infOut || b.infOut, nanScale := a.nanScale || b.nanScale }

/-- Counts of many operations. -/
def Counts.sum (l : List Counts) : Counts := l.foldl Counts.add {}

/-- Counts of a conversion (R44). -/
def Conv.counts (c : Conv) : Counts := { sat := c.sat, lost := c.lost }

/-- Set a bit of CORE_ARITH_STICKY when its event has occurred; no interrupt and no fault (Table 2-10). -/
def State.arithBit (s : State) (g : Nat) (f : Fld) (on : Bool) : State := if on then s.wr f g 1 else s

/-- Advance a counter of a core where something was counted. -/
def State.count (s : State) (g : Nat) (f : Fld) (n : Nat) : State := if n == 0 then s else s.inc f g n

/-- Record what an operation of core `g` counted. A core that serves a duplicate changes none of these (R456); a duplicate is not
run through here. -/
def State.counts (s : State) (g : Nat) (c : Counts) : State :=
  let s := s.count g F.coreArithFtz_mmFtz c.mmFtz
  let s := s.count g F.coreArithFtz_updFtz c.updFtz
  let s := s.count g F.coreArithConv_convSat c.sat
  let s := s.count g F.coreArithConv_nanLost c.lost
  let s := s.count g F.coreArithQuant_zeroBlocks c.zeroBlocks
  let s := s.count g F.coreArithQuant_vanishedElems c.vanished
  let s := s.arithBit g F.coreArithSticky_intOvf c.intOvf
  let s := s.arithBit g F.coreArithSticky_mmNanOut c.nanOut
  let s := s.arithBit g F.coreArithSticky_mmInfOut c.infOut
  let s := s.arithBit g F.coreArithSticky_ftzAny (c.mmFtz != 0)
  let s := s.arithBit g F.coreArithSticky_updFtzAny (c.updFtz != 0)
  let s := s.arithBit g F.coreArithSticky_convSatAny (c.sat != 0)
  let s := s.arithBit g F.coreArithSticky_nanLostAny (c.lost != 0)
  let s := s.arithBit g F.coreArithSticky_zeroBlockAny (c.zeroBlocks != 0)
  let s := s.arithBit g F.coreArithSticky_vanishedAny (c.vanished != 0)
  s.arithBit g F.coreArithSticky_nanScaleIn c.nanScale

end Sys2Proof.Machine
end

