-- ==== Sys2Proof/Machine/Matrix.lean ====
section
/-! DEFINITION. The matrix engine (chapter 3): field checks, instruction steps of MM, MM_LOAD and MM_STORE. -/

namespace Sys2Proof.Machine

/-! ## Formats (Table 3-5) -/

/-- Class of an operand format code: 0 float, 1 integer, 2 MX. -/
def mmClass (c : Nat) : Nat := if c == 6 || c == 8 then 1 else if 9 ≤ c && c ≤ 14 then 2 else 0
/-- Operand width of a format code. -/
def mmWidth (c : Nat) : Nat := if c ≤ 1 then 16 else if c == 7 || c == 8 || c == 14 then 4 else 8
/-- Element format of a code that is not MX. -/
def mmFmt (c : Nat) : Fmt := [.bf16, .fp16, .e4m3, .e5m2, .e3m2, .e2m3, .int8, .e2m1, .int4].getD c .bf16
/-- MX element format of codes 0x9 to 0xE. -/
def mxOf (c : Nat) : MxFmt := [.e4m3, .e5m2, .e3m2, .e2m3, .int8, .e2m1].getD (c - 9) .e4m3

/-- The MM body (Table 3-4). -/
structure MmCmd where
  mode : Nat
  accInit : Bool
  aFmt : Nat
  bFmt : Nat
  accTile : Nat
  mt : Nat
  nt : Nat
  kt : Nat
  aTile : Nat
  bTile : Nat
  aScale : Nat
  bScale : Nat
  deriving DecidableEq, Repr

/-- Read the MM body. -/
def MmCmd.of (c : Cmd) : MmCmd :=
  { mode := bits c.w4 0 2, accInit := bitAt c.w4 2, aFmt := bits c.w4 4 4, bFmt := bits c.w4 8 4,
    accTile := bits c.w4 12 6, mt := bits c.w4 24 7, nt := bits c.w4 32 7, kt := bits c.w4 40 9,
    aTile := bits c.w5 0 8, bTile := bits c.w5 8 8, aScale := bits c.w5 16 12, bScale := bits c.w5 28 12 }

/-- Pair modes. -/
def MmCmd.pair (m : MmCmd) : Bool := m.mode == 1 || m.mode == 3
/-- Complex modes. -/
def MmCmd.complex (m : MmCmd) : Bool := decide (2 ≤ m.mode)
/-- Units of an operand tile position (R65). -/
def MmCmd.u (m : MmCmd) : Nat := [1, 2, 2, 4].getD m.mode 1
/-- Accumulator tiles of an output position (Table 3-2). -/
def MmCmd.w (m : MmCmd) : Nat := [1, 2, 2, 4].getD m.mode 1
/-- The formats are MX. -/
def MmCmd.mx (m : MmCmd) : Bool := !m.pair && mmClass m.aFmt == 2
/-- Operand width. -/
def MmCmd.width (m : MmCmd) : Nat := if m.pair then 16 else mmWidth m.aFmt
/-- K of one step (Table 3-1). -/
def MmCmd.kStep (m : MmCmd) : Nat := if m.width == 16 then 8 else if m.width == 8 then 16 else 32
/-- Scale blocks of a panel (R66). -/
def MmCmd.nb (m : MmCmd) : Nat := if m.width == 4 then m.kt else m.kt / 2

/-- Two byte ranges overlap. -/
def overlaps (a n b k : Nat) : Bool := decide (a < b + k) && decide (b < a + n)

/-- Checks 0x30 to 0x33 of MM (R78, Table 3-9). Log: 147 (DESIGN CHOICE). -/
def mmCheck (c : Cmd) : Nat :=
  let m := MmCmd.of c
  let anyMx := !m.pair && (mmClass m.aFmt == 2 || mmClass m.bFmt == 2)
  if bitAt c.w4 3 || bits c.w4 18 6 != 0 || bitAt c.w4 31 || bitAt c.w4 39 || bits c.w4 49 15 != 0
     || bits c.w5 40 24 != 0 || c.w6 != 0 || c.w7 != 0
     || m.aFmt == 15 || m.bFmt == 15 || (m.pair && (decide (1 < m.aFmt) || decide (1 < m.bFmt)))
     || m.mt == 0 || decide (64 < m.mt) || m.nt == 0 || decide (64 < m.nt) || m.kt == 0 || decide (256 < m.kt)
     || (!anyMx && (m.aScale != 0 || m.bScale != 0)) then 0x30
  else if !m.pair && (mmWidth m.aFmt != mmWidth m.bFmt || mmClass m.aFmt != mmClass m.bFmt || (m.complex && m.mx)) then 0x31
  else if m.accTile % m.w != 0 || (m.mx && m.width == 8 && m.kt % 2 == 1) then 0x32
  else
    let stripA := 16 * m.nb * m.mt
    let stripB := 16 * m.nb * m.nt
    if decide (256 < m.aTile + m.u * m.mt * m.kt) || decide (256 < m.bTile + m.u * m.nt * m.kt)
       || decide (64 < m.accTile + m.w * m.mt * m.nt)
       || (m.mx && (decide (65536 < 16 * m.aScale + stripA) || decide (65536 < 16 * m.bScale + stripB)
            || overlaps (16 * m.aScale) stripA (256 * m.aTile) (256 * m.u * m.mt * m.kt)
            || overlaps (16 * m.bScale) stripB (256 * m.bTile) (256 * m.u * m.nt * m.kt))) then 0x33
    else 0

/-- Checks of MM_LOAD. -/
def mmLoadCheck (c : Cmd) : Nat :=
  let acc := bits c.w4 0 6
  let fmt := bits c.w4 6 2
  let count := bits c.w4 8 7
  let row := bits c.w4 16 12
  let rows := if fmt == 0 then 2 * count else if fmt == 1 then count else ceilDiv count 8
  if bitAt c.w4 15 || bits c.w4 28 36 != 0 || c.w5 != 0 || c.w6 != 0 || c.w7 != 0 || fmt == 3 || count == 0
     || decide (64 < count) then 0x30
  else if decide (64 < acc + count) || decide (3072 < row + rows) then 0x33
  else 0

/-- Rows MM_STORE writes (Table 3-8). -/
def mmFoot (fmt count : Nat) : Nat :=
  if fmt == 0 || fmt == 6 then 2 * count else if fmt == 1 || fmt == 2 || fmt == 7 then count else count / 2

/-- Checks of MM_STORE; with dst_kind 1 the ring is a core-memory ring held in this core's own core memory (R77). -/
def State.mmStoreCheck (s : State) (g : Nat) (c : Cmd) : Nat :=
  let acc := bits c.w4 0 6
  let fmt := bits c.w4 8 4
  let count := bits c.w4 12 7
  let dst := bits c.w4 20 12
  if bits c.w4 32 32 != 0 || c.w5 != 0 || c.w6 != 0 || c.w7 != 0 || decide (8 ≤ fmt) || count == 0 || decide (64 < count) then 0x30
  else if (decide (3 ≤ fmt) && count % 2 == 1) || (decide (6 ≤ fmt) && acc % 2 == 1) then 0x32
  else if decide (64 < acc + count) then 0x33
  else if bitAt c.w4 19 then
    match s.ringDef (partOf g) dst with
    | none => 0x33
    | some r => if r.place == 2 || s.ringCore r != some g || decide (r.slotRows < mmFoot fmt count) then 0x33 else 0
  else if decide (3072 < dst + mmFoot fmt count) then 0x33
  else 0

/-! ## Instruction steps (R35, R40, R55, R73, R79) -/

/-- One pass of a K step (Table 3-10): imaginary halves of A and B, low halves of a pair, which complex part it accumulates
into, and the negation of the second complex pass. -/
structure Pass where
  aIm : Bool := false
  bIm : Bool := false
  aLo : Bool := false
  bLo : Bool := false
  im : Bool := false
  neg : Bool := false
  deriving DecidableEq, Repr

/-- The three pair passes of a pass (R54). -/
def Pass.pairs (p : Pass) : List Pass := [p, { p with bLo := true }, { p with aLo := true }]

/-- The four complex passes (R57). -/
def complexPasses : List Pass :=
  [{}, { aIm := true, bIm := true, neg := true }, { bIm := true, im := true }, { aIm := true, im := true }]

/-- Passes of a K step by mode, in order (Table 3-10). -/
def MmCmd.passes (m : MmCmd) : List Pass :=
  if m.mode == 0 then [{}] else if m.mode == 1 then Pass.pairs {} else if m.mode == 2 then complexPasses
  else complexPasses.flatMap Pass.pairs

/-- Bits of element `k` of row (or column) `r` of a real tile at byte `base` of a buffer (R64). -/
def tileElem (st : Store) (width base r k : Nat) : Nat :=
  if width == 16 then st.rdLE (base + 16 * r + 2 * k) 2
  else if width == 8 then st.rdLE (base + 16 * r + k) 1
  else bits (st.rdLE (base + 16 * r + k / 2) 1) (4 * (k % 2)) 4

/-- Value of element `k` of row `r` of an operand position (R64, R65, R53): `lo` reads the low half of a pair element. -/
def MmCmd.operand (m : MmCmd) (st : Store) (fmt base : Nat) (im lo : Bool) (r k : Nat) : FVal :=
  if m.pair then
    let w := st.rdLE (base + (if im then 512 else 0) + 32 * r + 4 * k) 4
    let (h, l) := if fmt == 0 then (bits w 16 16, bits w 0 16) else splitPair w
    Fmt.bf16.decode (if lo then l else h)
  else
    let w := tileElem st m.width (base + (if im then 256 else 0)) r k
    if mmClass fmt == 2 then (mxOf fmt).elem w else (mmFmt fmt).decode w

/-- Scale byte of row `r` of a panel for K step `ki` (R66, R80). -/
def MmCmd.scale (m : MmCmd) (st : Store) (buf strip panel ki r : Nat) : Nat :=
  let j := if m.width == 4 then ki else ki / 2
  st.rdLE (buf + 16 * strip + 16 * (j + m.nb * panel) + r) 1

/-- The factor of a scale byte (R33). -/
def scaleVal (b : Nat) : FVal := if b == 255 then .nan else .fin false 1 ((b : Int) - 127)

/-- Result words and counts of one element of one step. -/
structure MmOut where
  s : Nat
  e : Nat
  n : Counts
  deriving DecidableEq, Repr

/-- One output element of one instruction step: `cs`, `ce` the words of its tiles before it. -/
def MmCmd.element (m : MmCmd) (g : Nat) (st : Store) (ki mi ni : Nat) (p : Pass) (r c cs ce : Nat) : MmOut :=
  let ab := abuf g + 256 * (m.aTile + m.u * (ki + m.kt * mi))
  let bb := bbuf g + 256 * (m.bTile + m.u * (ki + m.kt * ni))
  let as := (List.range m.kStep).map (fun k => m.operand st m.aFmt ab p.aIm p.aLo r k)
  let bs := (List.range m.kStep).map (fun k => m.operand st m.bFmt bb p.bIm p.bLo c k)
  let raw := (as.zip bs).map (fun x => FVal.mul x.1 x.2)
  let sa := m.scale st (abuf g) m.aScale mi ki r
  let sb := m.scale st (bbuf g) m.bScale ni ki c
  let scaled := if m.mx then raw.map (fun v => FVal.mul v (FVal.mul (scaleVal sa) (scaleVal sb))) else raw
  let prods := if p.neg then scaled.map FVal.negate else scaled
  let nanScale := m.mx && (sa == 255 || sb == 255)
  if !m.pair && mmClass m.aFmt == 1 then
    let t := prods.foldl (fun acc v => acc + v.scaled 0) (signedOf 32 cs)
    let ovf := decide (t < -(2 ^ 31 : Nat)) || decide ((2 ^ 31 : Nat) ≤ t)
    { s := ofSigned 32 t, e := ce, n := { intOvf := ovf } }
  else if m.pair then
    let (fs, fe) := pairSum prods (f32 cs) (f32 ce)
    { s := bits32 fs.v, e := bits32 fe,
      n := { mmFtz := ofBool fs.flushed, nanOut := fs.v.isNan || fe.isNan, infOut := fs.v.isInf || fe.isInf } }
  else
    let w := (windowSum (prods ++ [f32 cs])).r
    { s := bits32 w.v, e := ce,
      n := { mmFtz := ofBool w.flushed, nanOut := w.v.isNan, infOut := w.v.isInf, nanScale := nanScale } }

/-- One instruction step: every element of one output position, in its tile or its S and E tiles. -/
def State.mmStep (s : State) (g : Nat) (m : MmCmd) (ki : Nat) (p : Pass) (mi ni : Nat) : State :=
  let t := m.accTile + m.w * (ni + m.nt * mi) + (if p.im then m.w / 2 else 0)
  let st := s.bufs
  let outs : List MmOut := (List.range 256).map (fun i =>
    m.element g st ki mi ni p (i / 16) (i % 16) (s.accRd g t i) (if m.pair then s.accRd g (t + 1) i else 0))
  let s := { s with bufs := s.bufs.wrN (accWord g t 0) (outs.flatMap (fun (o : MmOut) => leBytes 4 o.s)) }
  let s := if m.pair then { s with bufs := s.bufs.wrN (accWord g (t + 1) 0) (outs.flatMap (fun (o : MmOut) => leBytes 4 o.e)) } else s
  s.counts g (Counts.sum (outs.map MmOut.n))

/-- Output positions of a command, numbered as their tiles lie. -/
def MmCmd.positions (m : MmCmd) : Nat := m.mt * m.nt
/-- First accumulator tile of position `k` (Table 3-2). -/
def MmCmd.tile (m : MmCmd) (k : Nat) : Nat := m.accTile + m.w * k

/-- The rounds of an MM command over some of its positions (R73): K step outermost, then pass, then positions by mi and ni. -/
def State.mmRounds (s : State) (g : Nat) (m : MmCmd) (ks : List Nat) : State :=
  loop m.kt (fun ki s =>
    m.passes.foldl (fun s p => ks.foldl (fun s k => s.mmStep g m ki p (k / m.nt) (k % m.nt)) s) s) s

/-- Operand units and scale strips of a command, as bytes of the private buffers. -/
def MmCmd.reads (m : MmCmd) (g : Nat) : List (Nat × Nat) :=
  [(abuf g + 256 * m.aTile, 256 * m.u * m.mt * m.kt), (bbuf g + 256 * m.bTile, 256 * m.u * m.nt * m.kt)]
    ++ (if m.mx then [(abuf g + 16 * m.aScale, 16 * m.nb * m.mt), (bbuf g + 16 * m.bScale, 16 * m.nb * m.nt)] else [])

/-- Accumulator tiles of some positions that their steps read (with acc_init 0). -/
def MmCmd.accReads (m : MmCmd) (g : Nat) (ks : List Nat) : List (Nat × Nat) :=
  if m.accInit then [] else ks.map (fun k => (accWord g (m.tile k) 0, 1024 * m.w))

/-- Whether anything an MM command reads for some positions holds an uncorrectable error: its operand units, its scale strips and,
with acc_init 0, its accumulator tiles (Table 3-9). -/
def State.mmHurt (s : State) (g : Nat) (m : MmCmd) (ks : List Nat) : Option Nat :=
  ((m.reads g ++ m.accReads g ks).find? (fun a => s.bufs.hurt a.1 a.2)).map (·.1)

/-- Accumulator tiles that a started matrix command has still to read or write, as first tile and count. -/
def Started.tilesLeft (x : Started) : List (Nat × Nat) :=
  let c := x.e.cmd
  if x.done.isSome then []
  else if c.opcode == 0x20 then
    let m := MmCmd.of c
    ((List.range m.positions).filter (fun k => !x.prog.did.contains k)).map (fun k => (m.tile k, m.w))
  else if c.opcode == 0x21 then [(bits c.w4 0 6, bits c.w4 8 7)]
  else if c.opcode == 0x22 then [(bits c.w4 0 6, bits c.w4 12 7)]
  else []

/-- An access to tiles `lo` to `hi - 1` waits for a matrix command started before `id` that has still to read or write one of them (R83). -/
def State.tileWait (s : State) (g id lo hi : Nat) : Bool :=
  (s.q (unitEng g 0)).started.any (fun x =>
    decide (x.id < id) && x.tilesLeft.any (fun t => overlaps lo (hi - lo) t.1 t.2))

/-- Positions of a started MM whose steps have not issued. -/
def MmCmd.todo (m : MmCmd) (did : List Nat) : List Nat := (List.range m.positions).filter (fun k => !did.contains k)
/-- Those of them that no earlier command holds back (R83). -/
def State.mmOpen (s : State) (g : Nat) (x : Started) : List Nat :=
  let m := MmCmd.of x.e.cmd
  (m.todo x.prog.did).filter (fun k => !s.tileWait g x.id (m.tile k) (m.tile k + m.w))

/-- Round gaps of a command (R81): with T positions a round starts `max(T, 8)` cycles after the one before it. -/
def MmCmd.depWait (m : MmCmd) : Nat :=
  let t := m.positions
  (m.kt * m.passes.length - 1) * (max t 8 - t)

/-- Steps of a command over `n` positions. -/
def MmCmd.steps (m : MmCmd) (n : Nat) : Nat := m.kt * m.passes.length * n

/-- A counter of core `g` advances by a wait of at most `n` cycles, of a length the spec leaves to timing. Log: 148 (DESIGN CHOICE). -/
def State.countWait (s : State) (g : Nat) (f : Fld) (n : Nat) : State :=
  if s.fresh.1 % (n + 1) == 0 then s.fresh.2 else s.fresh.2.inc f g (s.fresh.1 % (n + 1))

/-- The first steps of a command issue: a wait for the load-step notice (R82) and for the last round of the command before it (R81) is
counted, and the operands it reads are corrected and counted (R195). Log: 148 (DESIGN CHOICE). -/
def State.mmBegin (s : State) (g : Nat) (m : MmCmd) : State :=
  let s := (s.countWait g F.coreMmStall_noticeWait 256).countWait g F.coreMmAct_depWait 7
  (m.reads g).foldl (fun s a => s.corrBuf g a.1 a.2) s

/-- MM executes (R73) on every position that no earlier command holds back, the first started MM that has one first (R83); with an
uncorrectable error it ends with MM_UNCORR, of its steps a free number having issued, and leaves its tiles undefined, not before
earlier commands have done with them (R78, R197). Log: 12 (DEDUCED), 148 (DESIGN CHOICE). -/
def State.mmRun (s : State) (g : Nat) : State :=
  let u := unitEng g 0
  match (s.q u).started.find? (fun x => x.e.cmd.opcode == 0x20 && x.done.isNone && x.prog.ready && !(s.mmOpen g x).isEmpty) with
  | none => s
  | some x =>
    let m := MmCmd.of x.e.cmd
    let ks := s.mmOpen g x
    let todo := m.todo x.prog.did
    if !s.runs g || ks.any (fun k => s.lockedBuf (accWord g (m.tile k) 0) (1024 * m.w)) then s
    else
      match s.mmHurt g m ks with
      | some a =>
        if ks != todo then s
        else
          let s := s.bufUnc g 0 0x20 a
          let s := (s.fresh).2.incUnit F.coreMmAct_stepsK g 1024 ((s.fresh).1 % (m.steps ks.length + 1))
          let lo := accWord g m.accTile 0
          let s := { s with bufs := s.bufs.forget lo (lo + 1024 * m.w * m.positions) s.freeCtr, freeCtr := s.freeCtr + 1 }
          (s.opFail u x 0x39 0).repeated g
      | none =>
        let s := if x.prog.did.isEmpty then s.mmBegin g m else s
        let s := if m.accInit then
            ks.foldl (fun s k => { s with bufs := s.bufs.wrN (accWord g (m.tile k) 0) (List.replicate (1024 * m.w) 0) }) s
          else (m.accReads g ks).foldl (fun s a => s.corrBuf g a.1 a.2) s
        let s := s.mmRounds g m ks
        let s := s.incUnit F.coreMmAct_stepsK g 1024 (m.steps ks.length)
        if ks == todo then (s.count g F.coreMmAct_depWait m.depWait).opDone u x.id
        else s.modStarted u x.id (fun y => { y with prog := { y.prog with did := y.prog.did ++ ks } })

/-! ## MM_LOAD (R74) -/

/-- Words of accumulator tile `i` of an MM_LOAD. -/
def State.mmLoadTile (s : State) (g fmt row i : Nat) : List Nat :=
  if fmt == 0 then (List.range 256).map (fun k => s.mem.rdLE (cmRow g (row + 2 * i) + 4 * k) 4)
  else if fmt == 1 then
    (List.range 256).map (fun k => bits32 (Fmt.bf16.decode (s.mem.rdLE (cmRow g (row + i) + 2 * k) 2)))
  else (List.range 256).map (fun k => s.mem.rdLE (cmRow g (row + i / 8) + 64 * (i % 8) + 4 * (k % 16)) 4)

/-- A wait for the transfer port: MM_LOAD and MM_STORE run on it in queue order (R83). -/
def State.portWait (s : State) (g id : Nat) : Bool :=
  (s.q (unitEng g 0)).started.any (fun x =>
    decide (x.id < id) && x.done.isNone && (x.e.cmd.opcode == 0x21 || x.e.cmd.opcode == 0x22))

/-- MM_LOAD executes. Log: 149 (DESIGN CHOICE). -/
def State.mmLoadRun (s : State) (g : Nat) : State :=
  let u := unitEng g 0
  match s.oldest u 0x21 with
  | none => s
  | some x =>
    let c := x.e.cmd
    let acc := bits c.w4 0 6
    let fmt := bits c.w4 6 2
    let count := bits c.w4 8 7
    let row := bits c.w4 16 12
    let rows := if fmt == 0 then 2 * count else if fmt == 1 then count else ceilDiv count 8
    if !s.runs g || s.portWait g x.id || s.tileWait g x.id acc (acc + count)
       || s.lockedBuf (accWord g acc 0) (1024 * count) then s
    else if s.mem.hurt (cmRow g row) (512 * rows) then
      (s.engUnc g 0 0x21 (s.hurtRow (cmRow g row) rows)).opFail u x 0x39 0
    else
      let s := s.corr (cmRow g row) (512 * rows)
      let s := loop count (fun i s =>
        { s with bufs := s.bufs.wrN (accWord g (acc + i) 0) ((s.mmLoadTile g fmt row i).flatMap (leBytes 4)) }) s
      s.opDone u x.id

/-! ## MM_STORE (R75 to R77) -/

/-- Bytes and counts of the stored form of tile `t` (or of the pair of tiles from `t`) in a format (Table 3-8). Log: 150 (DESIGN CHOICE). -/
def State.mmStoreBytes (s : State) (g fmt : Nat) (nonsat : Bool) (t : Nat) : List Byte × Counts :=
  let conv := fun (f : Fmt) (n : Nat) (v : Nat → FVal) =>
    let cs := (List.range 256).map (fun i => f.convert nonsat (v i))
    (cs.flatMap (fun c => leBytes n c.w), Counts.sum (cs.map Conv.counts))
  if fmt == 0 then ((List.range 256).flatMap (fun i => leBytes 4 (s.accRd g t i)), {})
  else if fmt == 1 then conv .bf16 2 (fun i => f32 (s.accRd g t i))
  else if fmt == 2 then conv .fp16 2 (fun i => f32 (s.accRd g t i))
  else if fmt == 3 then conv .e4m3 1 (fun i => f32 (s.accRd g t i))
  else if fmt == 4 then conv .e5m2 1 (fun i => f32 (s.accRd g t i))
  else if fmt == 5 then conv .int8 1 (fun i => FVal.ofInt (signedOf 32 (s.accRd g t i)))
  else if fmt == 6 then
    ((List.range 256).flatMap (fun i => leBytes 4 (s.accRd g t i) ++ leBytes 4 (s.accRd g (t + 1) i)), {})
  else conv .fp32 4 (fun i => FVal.add (f32 (s.accRd g t i)) (f32 (s.accRd g (t + 1) i)))

/-- Tiles one stored group takes: two for the pair formats, two for the half-row formats, one else. -/
def mmGroup (fmt : Nat) : Nat := if fmt ≤ 2 then 1 else 2
/-- Rows of one group. -/
def mmGroupRows (fmt : Nat) : Nat := if fmt == 0 then 2 else if fmt ≤ 2 then 1 else if fmt ≤ 5 then 1 else if fmt == 6 then 4 else 2

/-- Bytes of one group of tiles. -/
def State.mmGroupBytes (s : State) (g fmt : Nat) (nonsat : Bool) (t : Nat) : List Byte × Counts :=
  let a := s.mmStoreBytes g fmt nonsat t
  if 3 ≤ fmt && fmt ≤ 5 then
    let b := s.mmStoreBytes g fmt nonsat (t + 1)
    (a.1 ++ b.1, a.2.add b.2)
  else a

/-- Store groups `i` below `n` from row `dst` on, clearing each tile after it is read when asked. -/
def State.mmStoreGroups (s : State) (g fmt acc dst n : Nat) (nonsat clear : Bool) : State :=
  loop n (fun i s =>
    let t := acc + mmGroup fmt * i
    let (l, c) := s.mmGroupBytes g fmt nonsat t
    let s := { s with mem := s.mem.wrN (cmRow g (dst + mmGroupRows fmt * i)) l }
    let s := s.counts g c
    if clear then { s with bufs := s.bufs.wrN (accWord g t 0) (List.replicate (1024 * mmGroup fmt) 0) } else s) s

/-- First tile of a range that holds an uncorrectable error. -/
def State.badTile (s : State) (g acc count : Nat) : Option Nat :=
  lowest count (fun i => s.bufs.hurt (accWord g (acc + i) 0) 1024)

/-- MM_STORE executes once the last results have landed in its tiles (R83): into rows, or, with dst_kind 1, into one slot it claims
first and keeps while its rows are locked (R459); ends with MM_RING or MM_UNCORR as R78
says. -/
def State.mmStoreRun (s : State) (g : Nat) : State :=
  let u := unitEng g 0
  match s.oldest u 0x22 with
  | none => s
  | some x =>
    let c := x.e.cmd
    let acc := bits c.w4 0 6
    let clear := bitAt c.w4 6
    let nonsat := bitAt c.w4 7
    let fmt := bits c.w4 8 4
    let count := bits c.w4 12 7
    let dst := bits c.w4 20 12
    let toRing := bitAt c.w4 19
    if !s.runs g || s.portWait g x.id || s.tileWait g x.id acc (acc + count) then s
    else
      let place : Option (Option (Ring × Nat) × Nat) × State :=
        if !toRing then (some (none, dst), s)
        else
          match s.ringDef (partOf g) dst with
          | none => (none, s.opFail u x 0x38 2)
          | some r =>
            match s.ringAsk r true (.cmd u x.id) (s.ftCore g) with
            | (.wait, s) => (none, s)
            | (.fault, s) => (none, s.opFail u x 0x38 2)
            | (.slot i, s) => (some (some (r, i), r.first + i * r.slotRows), s)
      match place with
      | (none, s) => s
      | (some (ring, row), s) =>
        if s.lockedMem (cmRow g row) (512 * mmFoot fmt count) then
          (match ring with
           | some (r, i) => s.keepSlot r true (.cmd u x.id) (s.ftCore g) i
           | none => s)
        else
          match s.badTile g acc count with
          | some b =>
            let s := s.mmStoreGroups g fmt acc row (b / mmGroup fmt) nonsat clear
            let s := if clear && b % mmGroup fmt == 1 then
              { s with bufs := s.bufs.wrN (accWord g (acc + b - 1) 0) (List.replicate 1024 0) } else s
            ((s.bufUnc g 0 0x22 (accWord g (acc + b) 0)).opFail u x 0x39 0).repeated g
          | none =>
            let s := s.corrBuf g (accWord g acc 0) (1024 * count)
            let s := s.mmStoreGroups g fmt acc row (count / mmGroup fmt) nonsat clear
            let s := match ring with
              | some (r, i) => s.ringRelease r.part r.number i true
              | none => s
            s.opDone u x.id

/-- The operand units and scale strips a started MM locks against the mover, until its steps have issued (R84). Log: 33 (DESIGN CHOICE). -/
def State.operandLocked (s : State) (g a n : Nat) : Bool :=
  (s.q (unitEng g 0)).started.any (fun x =>
    x.e.cmd.opcode == 0x20 && x.done.isNone &&
    (let m := MmCmd.of x.e.cmd
     overlaps a n (abuf g + 256 * m.aTile) (256 * m.u * m.mt * m.kt)
     || overlaps a n (bbuf g + 256 * m.bTile) (256 * m.u * m.nt * m.kt)
     || (m.mx && (overlaps a n (abuf g + 16 * m.aScale) (16 * m.nb * m.mt)
          || overlaps a n (bbuf g + 16 * m.bScale) (16 * m.nb * m.nt)))))

/-- MM: instruction steps over a tile region. -/
def execMm (g : CoreId) (s : State) : Host.Outcome State Fault Refusal := finish (s.mmRun g)
/-- MM_LOAD: accumulator tiles from core-memory rows. -/
def execMmLoad (g : CoreId) (s : State) : Host.Outcome State Fault Refusal := finish (s.mmLoadRun g)
/-- MM_STORE: accumulator tiles into core-memory rows or a ring slot. -/
def execMmStore (g : CoreId) (s : State) : Host.Outcome State Fault Refusal := finish (s.mmStoreRun g)

end Sys2Proof.Machine
end

