-- ==== Sys2Proof/Machine/Operands.lean ====
section
/-! DEFINITION. Vector instruction words (R126 to R133, Tables 5-1 to 5-13): fields, operations, and which words an operation
accepts. -/

namespace Sys2Proof.Machine

/-- The operations of the vector instruction set (Tables 5-4 to 5-13). -/
inductive VOp where
  | nop | jmp | brDiv | join | brAny | brAll | bz | bnz | fin
  | iadd | isub | imul | imulhi | imin | imax | band | bor | bxor | shl | shr | sar | clz | popc | icmp | sel
  | fadd | fsub | fmul | ffma | fmin | fmax | fcmp | frnd
  | cvt | mxpack | mxunpack | shfl | mov | vtos | movi
  | exp2 | log2 | rcp | rsq | sin | cos
  | ld | st | rowld | rowst | ringrd | ringwr | atom | atomcas
  | salu | scmp | malu | mtos | stom
  | bar | mwait | msig | fence | post | rdft
  deriving DecidableEq, Repr

/-- Operation of an opcode; none for an opcode that is not listed (R128). -/
def vecOp (c : Nat) : Option VOp :=
  [(0x00, VOp.nop), (0x01, .jmp), (0x02, .brDiv), (0x03, .join), (0x04, .brAny), (0x05, .brAll), (0x06, .bz), (0x07, .bnz),
   (0x08, .fin), (0x10, .iadd), (0x11, .isub), (0x12, .imul), (0x13, .imulhi), (0x14, .imin), (0x15, .imax), (0x16, .band),
   (0x17, .bor), (0x18, .bxor), (0x19, .shl), (0x1A, .shr), (0x1B, .sar), (0x1C, .clz), (0x1D, .popc), (0x1E, .icmp),
   (0x1F, .sel), (0x20, .fadd), (0x21, .fsub), (0x22, .fmul), (0x23, .ffma), (0x24, .fmin), (0x25, .fmax), (0x26, .fcmp),
   (0x27, .frnd), (0x30, .cvt), (0x31, .mxpack), (0x32, .mxunpack), (0x33, .shfl), (0x34, .mov), (0x35, .vtos), (0x36, .movi),
   (0x40, .exp2), (0x41, .log2), (0x42, .rcp), (0x43, .rsq), (0x44, .sin), (0x45, .cos), (0x50, .ld), (0x51, .st),
   (0x52, .rowld), (0x53, .rowst), (0x54, .ringrd), (0x55, .ringwr), (0x60, .atom), (0x61, .atomcas), (0x70, .salu),
   (0x71, .scmp), (0x72, .malu), (0x73, .mtos), (0x74, .stom), (0x80, .bar), (0x81, .mwait), (0x82, .msig), (0x83, .fence),
   (0x84, .post), (0x85, .rdft)].lookup c

/-! ## Fields (Tables 5-1 and 5-2) -/

/-- Opcode. -/
def vOpcode (w : Nat) : Nat := bits w 0 8
/-- Predicate mask, or branch mask mk. -/
def vPred (w : Nat) : Nat := bits w 8 3
/-- Predicate or branch mask inverted. -/
def vPneg (w : Nat) : Bool := bitAt w 11
/-- Destination. -/
def vD (w : Nat) : Nat := bits w 12 6
/-- Source a, or address register. -/
def vA (w : Nat) : Nat := bits w 18 6
/-- Source a, the address register, or d of movi is scalar. -/
def vSa (w : Nat) : Bool := bitAt w 24
/-- IMM format. -/
def vImm (w : Nat) : Bool := bitAt w 25
/-- Type code, source format of cvt, or atomic operation. -/
def vType (w : Nat) : Nat := bits w 26 4
/-- Source b. -/
def vB (w : Nat) : Nat := bits w 32 6
/-- Source c. -/
def vC (w : Nat) : Nat := bits w 38 6
/-- Source b is scalar. -/
def vSb (w : Nat) : Bool := bitAt w 44
/-- Source c is scalar. -/
def vSc (w : Nat) : Bool := bitAt w 45
/-- imm16 of the IMM format. -/
def vImm16 (w : Nat) : Nat := bits w 32 16
/-- imm32 of the LONG format. -/
def vImm32 (w : Nat) : Nat := bits w 32 32
/-- Width code of the MEM format. -/
def vWidth (w : Nat) : Nat := bits w 30 2
/-- Byte offset of the MEM format. -/
def vOffset (w : Nat) : Nat := bits w 46 17
/-- Join address. -/
def vJoin (w : Nat) : Nat := bits w 12 17
/-- Branch target. -/
def vTarget (w : Nat) : Nat := bits w 32 17
/-- Scalar tested by bz and bnz. -/
def vTest (w : Nat) : Nat := bits w 49 5
/-- Rows of a transfer. -/
def vCount (w : Nat) : Nat := bits w 24 8 + 1
/-- Scalar of the SYNC format. -/
def vSync (w : Nat) : Nat := bits w 12 5
/-- Mark of the SYNC format. -/
def vMark (w : Nat) : Nat := bits w 32 12
/-- Fence scope. -/
def vScope (w : Nat) : Nat := bits w 44 3
/-- imm17 of post. -/
def vImm17 (w : Nat) : Nat := bits w 47 17

/-! ## Which bits an operation uses (R127) -/

/-- Ones in bits `lo+len-1 : lo`. -/
def ones (lo len : Nat) : Nat := (2 ^ len - 1) * 2 ^ lo

/-- Opcode and predicate. -/
def mPred : Nat := ones 0 12
/-- d, a and its class, type. -/
def mUnary : Nat := ones 12 13 + ones 26 4
/-- Source b with its class in the REG format, or imm16 with the format bit. -/
def mB (w : Nat) : Nat := if vImm w then ones 25 1 + ones 32 16 else ones 32 6 + ones 44 1

/-- An integer type, a 64-bit type, and a floating type code of Table 5-3. -/
def vWide (t : Nat) : Bool := t == 2 || t == 3 || t == 5

/-- Sign-field bits for sources a, b and c of the REG format. -/
def mNeg (w : Nat) (a b c : Bool) : Nat :=
  if vImm w then 0
  else (if a then ones 46 1 + ones 49 1 else 0) + (if b then ones 47 1 + ones 50 1 else 0) + (if c then ones 48 1 else 0)

/-- The bits an operation uses; every other bit is reserved (R127). Log: 18 (DEDUCED). -/
def VOp.used (op : VOp) (w : Nat) : Nat :=
  match op with
  | .nop | .join | .fin => ones 0 8
  | .jmp => ones 0 8 + ones 32 17
  | .brDiv => mPred + ones 12 17 + ones 32 17
  | .brAny | .brAll => mPred + ones 32 17
  | .bz | .bnz => ones 0 8 + ones 32 17 + ones 49 5
  | .iadd | .isub | .imul | .imulhi | .imin | .imax | .band | .bor | .bxor | .shl | .shr | .sar => mPred + mUnary + mB w
  | .clz | .popc => mPred + mUnary + ones 25 1
  | .icmp => mPred + mUnary + mB w + ones 56 3
  | .sel => mPred + mUnary + mB w + ones 38 6
  | .fadd | .fsub | .fmul | .fmin | .fmax => mPred + mUnary + mB w + mNeg w true true false
  | .ffma => mPred + mUnary + mB w + ones 38 6 + ones 45 1 + mNeg w true true true
  | .fcmp => mPred + mUnary + mB w + mNeg w true true false + ones 56 3
  | .frnd => mPred + mUnary + mNeg w true false false + ones 56 2
  | .cvt => mPred + mUnary + mNeg w true false false + ones 52 12
  | .mxpack => mPred + mUnary + mNeg w true false false + ones 38 6 + ones 45 1 + ones 58 6
      + (if bitAt w 59 then ones 32 6 else 0)
  | .mxunpack => mPred + mUnary + ones 38 6 + ones 45 1 + ones 59 5
  | .shfl => mPred + mUnary + mB w + ones 56 2
  | .mov => mPred + ones 12 6 + ones 26 4 + ones 56 8 + (if bits w 56 8 == 0 then ones 18 7 else 0)
  | .vtos => ones 0 8 + mUnary + mB w
  | .movi => mPred + ones 12 6 + ones 24 1 + ones 32 32
  | .exp2 | .log2 | .rcp | .rsq | .sin | .cos => mPred + mUnary + mNeg w true false false
  | .ld => mPred + ones 12 13 + ones 26 1 + ones 30 2 + ones 46 17
  | .st => mPred + ones 18 7 + ones 30 2 + ones 32 6 + ones 44 1 + ones 46 17
  | .rowld | .rowst | .ringrd | .ringwr => mPred + ones 12 40
  | .atom => mPred + ones 12 13 + ones 26 6 + ones 32 6 + ones 44 1 + ones 46 17
  | .atomcas => mPred + ones 12 13 + ones 30 2 + ones 32 12 + ones 44 1 + ones 46 17
  | .salu => ones 0 8 + mUnary + mB w + ones 56 4
  | .scmp => ones 0 8 + mUnary + mB w + ones 56 3
  | .malu => ones 0 8 + ones 12 12 + ones 56 3 + (if 4 ≤ bits w 56 3 then 0 else ones 32 6)
  | .mtos => ones 0 8 + ones 12 6 + ones 56 2 + (if bits w 56 2 == 3 then 0 else ones 18 6)
  | .stom => ones 0 8 + ones 12 13
  | .bar => ones 0 8
  | .mwait | .msig => ones 0 8 + ones 12 5 + ones 32 12
  | .fence => ones 0 8 + ones 44 3
  | .post => ones 0 8 + ones 17 1 + ones 47 17 + (if bitAt w 17 then ones 12 5 else 0)
  | .rdft => ones 0 8 + ones 12 5

/-! ## Which values an operation accepts (R128, R129) -/

/-- A vector register field: even for a 64-bit value. -/
def vecReg (r : Nat) (wide : Bool) : Bool := !wide || r % 2 == 0
/-- A scalar register field: below 32, and even for a 64-bit value. -/
def scaReg (r : Nat) (wide : Bool) : Bool := decide (r < 32) && (!wide || r % 2 == 0)
/-- A mask register field. -/
def mskReg (r : Nat) : Bool := decide (r < 8)
/-- A source of either class. -/
def srcReg (sc : Bool) (r : Nat) (wide : Bool) : Bool := if sc then scaReg r wide else vecReg r wide
/-- Source b, which imm16 replaces in the IMM format. -/
def srcB (w : Nat) (wide : Bool) : Bool := vImm w || srcReg (vSb w) (vB w) wide

/-- Width in bits of a format code of Table 5-7; 0 for a reserved code. -/
def cvtWidth (f : Nat) : Nat := [32, 16, 16, 8, 8, 8, 8, 4, 64, 32, 32, 8, 8, 4].getD f 0
/-- Whether a format code of Table 5-7 is floating point. -/
def cvtFloat (f : Nat) : Bool := decide (f ≤ 8)
/-- Bound of an element selection for a width (R137). -/
def selBound (width : Nat) : Nat := if 32 ≤ width then 1 else 32 / width

/-- Whether an instruction word of an operation is defined (R128 to R133). The type field of mxpack names F32 by code 0x4 of Table 5-3
and BF16 by 0x6. Log: 18 (DEDUCED), 139 (DESIGN CHOICE). -/
def VOp.legal (op : VOp) (w : Nat) : Bool :=
  let t := vType w
  let wide := vWide t
  let unary := vecReg (vD w) wide && srcReg (vSa w) (vA w) wide
  let signs := bits w 46 5
  (w ||| op.used w) == op.used w &&
  match op with
  | .nop | .jmp | .brDiv | .join | .brAny | .brAll | .bz | .bnz | .fin | .bar => true
  | .iadd | .isub | .imin | .imax | .band | .bor | .bxor | .shl | .shr | .sar => decide (t ≤ 3) && unary && srcB w wide
  | .imul | .imulhi => decide (t ≤ 1) && unary && srcB w false
  | .clz | .popc => t == 0 && unary
  | .icmp => decide (t ≤ 3) && mskReg (vD w) && srcReg (vSa w) (vA w) wide && srcB w wide && decide (bits w 56 3 ≤ 5)
  | .sel => !vImm w && (t == 0 || t == 2) && unary && srcB w wide && mskReg (vC w)
  | .fadd | .fsub | .fmul | .fmin | .fmax =>
    decide (4 ≤ t) && decide (t ≤ 7) && unary && srcB w wide && !(vImm w && t == 5)
  | .ffma => !vImm w && decide (4 ≤ t) && decide (t ≤ 7) && unary && srcB w wide && srcReg (vSc w) (vC w) wide
  | .fcmp => (t == 4 || t == 5) && mskReg (vD w) && srcReg (vSa w) (vA w) wide && srcB w wide && !(vImm w && t == 5)
  | .frnd => (t == 4 || t == 5) && unary
  | .cvt =>
    let f := bits w 60 4
    cvtWidth t != 0 && cvtWidth f != 0
    && vecReg (vD w) (cvtWidth f == 64) && srcReg (vSa w) (vA w) (cvtWidth t == 64)
    && decide (bits w 52 3 < selBound (cvtWidth t)) && decide (bits w 56 3 < selBound (cvtWidth f))
    && (cvtFloat t || signs == 0)
  | .mxpack =>
    (t == 4 || t == 6) && srcReg (vSa w) (vA w) true && vSc w && scaReg (vC w) false
    && decide (9 ≤ bits w 60 4) && decide (bits w 60 4 ≤ 14) && vecReg (vB w) (bitAt w 59)
  | .mxunpack =>
    t == 4 && vecReg (vD w) true && srcReg (vSa w) (vA w) false && vSc w && scaReg (vC w) false
    && decide (9 ≤ bits w 60 4) && decide (bits w 60 4 ≤ 14)
  | .shfl => (t == 0 || t == 2) && unary && srcB w false
  | .mov => (t == 0 || t == 2) && decide (bits w 56 8 ≤ 1) && unary
  | .vtos => (t == 0 || t == 2) && scaReg (vD w) wide && srcReg (vSa w) (vA w) wide && (vImm w || (vSb w && scaReg (vB w) false))
  | .movi => !vSa w || scaReg (vD w) false
  | .exp2 | .log2 | .rcp | .rsq | .sin | .cos => t == 4 && unary
  | .ld => vecReg (vD w) (vWidth w == 3) && srcReg (vSa w) (vA w) false
  | .st => srcReg (vSa w) (vA w) false && srcReg (vSb w) (vB w) (vWidth w == 3)
  | .rowld | .rowst | .ringrd | .ringwr => (bitAt w 17 || bits w 12 5 == 0) && (bitAt w 23 || bits w 18 5 == 0)
  | .atom =>
    decide (2 ≤ vWidth w) && decide (t ≤ 9) && (t != 9 || vWidth w == 2) && vecReg (vD w) (vWidth w == 3)
    && srcReg (vSa w) (vA w) false && srcReg (vSb w) (vB w) (vWidth w == 3)
  | .atomcas =>
    decide (2 ≤ vWidth w) && vecReg (vD w) (vWidth w == 3) && srcReg (vSa w) (vA w) false
    && srcReg (vSb w) (vB w) (vWidth w == 3) && vecReg (vC w) (vWidth w == 3)
  | .salu =>
    decide (t ≤ 3) && vSa w && scaReg (vD w) wide && scaReg (vA w) wide && (vImm w || (vSb w && scaReg (vB w) wide))
    && decide (bits w 56 4 ≤ 10)
  | .scmp =>
    decide (t ≤ 3) && vSa w && scaReg (vD w) false && scaReg (vA w) wide && (vImm w || (vSb w && scaReg (vB w) wide))
    && decide (bits w 56 3 ≤ 5)
  | .malu => mskReg (vD w) && mskReg (vA w) && mskReg (vB w) && decide (bits w 56 3 ≤ 5)
  | .mtos => scaReg (vD w) false && mskReg (vA w)
  | .stom => mskReg (vD w) && vSa w && scaReg (vA w) false
  | .mwait | .msig | .rdft => vSync w % 2 == 0
  | .fence => decide (vScope w ≤ 5)
  | .post => true

/-- A vector register, with the odd one of its pair when it is wide. -/
def pairOf (r : Nat) (wide : Bool) : List Nat := if wide then [r, r + 1] else [r]

/-- Vector registers that an instruction reads in each of its lanes (Tables 5-4 to 5-13). -/
def VOp.reads (op : VOp) (w : Nat) : List Nat :=
  let wide := vWide (vType w)
  let mem := vWidth w == 3
  let a := fun (wide : Bool) => if vSa w then [] else pairOf (vA w) wide
  let b := fun (wide : Bool) => if vImm w || vSb w then [] else pairOf (vB w) wide
  match op with
  | .iadd | .isub | .imul | .imulhi | .imin | .imax | .band | .bor | .bxor | .shl | .shr | .sar | .icmp | .sel
  | .fadd | .fsub | .fmul | .fmin | .fmax | .fcmp => a wide ++ b wide
  | .ffma => a wide ++ b wide ++ (if vSc w then [] else pairOf (vC w) wide)
  | .clz | .popc | .frnd | .exp2 | .log2 | .rcp | .rsq | .sin | .cos | .vtos => a wide
  | .cvt => a (cvtWidth (vType w) == 64) ++ (if bitAt w 55 then pairOf (vD w) (cvtWidth (bits w 60 4) == 64) else [])
  | .mxpack => a true
  | .mxunpack => a false
  | .shfl => a wide ++ b false
  | .mov => if bits w 56 8 == 0 then a wide else []
  | .ld => a false
  | .st | .atom => a false ++ (if vSb w then [] else pairOf (vB w) mem)
  | .atomcas => a false ++ (if vSb w then [] else pairOf (vB w) mem) ++ pairOf (vC w) mem
  | .nop | .jmp | .brDiv | .join | .brAny | .brAll | .bz | .bnz | .fin | .movi | .rowld | .rowst | .ringrd | .ringwr
  | .salu | .scmp | .malu | .mtos | .stom | .bar | .mwait | .msig | .fence | .post | .rdft => []

/-! ## Registers and sources of a gang -/

/-- Vector register `r` of lane `l`. -/
def Gang.vr (q : Gang) (r l : Nat) : Nat := mgetD q.v (16 * r + l) 0
/-- Write vector register `r` of lane `l`; any error in the word is gone with it (R120). -/
def Gang.setVr (q : Gang) (r l x : Nat) : Gang :=
  { q with v := mputD q.v (16 * r + l) (x % 2 ^ 32) 0, errs := mdel q.errs (16 * r + l) }
/-- Scalar register `r`. -/
def Gang.sreg (q : Gang) (r : Nat) : Nat := mgetD q.sr r 0
/-- Write scalar register `r`. -/
def Gang.setSreg (q : Gang) (r x : Nat) : Gang := { q with sr := mputD q.sr r (x % 2 ^ 32) 0 }
/-- Mask register `r`; m0 reads 0xFFFF (R93). -/
def Gang.mask (q : Gang) (r : Nat) : Nat := if r == 0 then 0xFFFF else mgetD q.m r 0
/-- Write mask register `r`; m0 ignores it (R93). -/
def Gang.setMask (q : Gang) (r x : Nat) : Gang := if r == 0 then q else { q with m := mputD q.m r (x % 2 ^ 16) 0 }

/-- A vector register or pair of a lane (R92). -/
def Gang.vread (q : Gang) (wide : Bool) (r l : Nat) : Nat := q.vr r l + (if wide then q.vr (r + 1) l * 2 ^ 32 else 0)
/-- Write a vector register or pair of a lane. -/
def Gang.vwrite (q : Gang) (wide : Bool) (r l x : Nat) : Gang :=
  let q := q.setVr r l x
  if wide then q.setVr (r + 1) l (x / 2 ^ 32) else q
/-- A scalar register or pair (R94). -/
def Gang.sread (q : Gang) (wide : Bool) (r : Nat) : Nat := q.sreg r + (if wide then q.sreg (r + 1) * 2 ^ 32 else 0)
/-- Write a scalar register or pair. -/
def Gang.swrite (q : Gang) (wide : Bool) (r x : Nat) : Gang :=
  let q := q.setSreg r x
  if wide then q.setSreg (r + 1) (x / 2 ^ 32) else q

/-- A source of either class: a scalar gives one value to every lane (R130). -/
def Gang.src (q : Gang) (sc wide : Bool) (r l : Nat) : Nat := if sc then q.sread wide r else q.vread wide r l

/-- imm16 under a type code (R131). -/
def immOf (t i : Nat) : Nat :=
  if t == 1 then ofSigned 32 (signedOf 16 i)
  else if t == 3 then ofSigned 64 (signedOf 16 i)
  else if t == 4 then i * 2 ^ 16
  else if t == 6 || t == 7 then i + i * 2 ^ 16
  else i

/-- Source a of a lane. -/
def Gang.srcA (q : Gang) (w l : Nat) : Nat := q.src (vSa w) (vWide (vType w)) (vA w) l
/-- Source b of a lane, or the immediate (R131). -/
def Gang.srcB (q : Gang) (w l : Nat) : Nat :=
  if vImm w then immOf (vType w) (vImm16 w) else q.src (vSb w) (vWide (vType w)) (vB w) l

/-- neg and abs of a floating-point source (R132); `t` is the type code, packed types act on both halves. -/
def signFix (t : Nat) (neg abs : Bool) (x : Nat) : Nat :=
  let m := if t == 5 then 2 ^ 63 else if t == 6 || t == 7 then 2 ^ 31 + 2 ^ 15 else 2 ^ 31
  let x := if abs then x - (x &&& m) else x
  if neg then x ^^^ m else x

/-- Floating-point source a; the IMM format has no sign fields, their bits are imm16 or reserved (Table 5-2). -/
def Gang.fA (q : Gang) (w l : Nat) : Nat :=
  let x := q.srcA w l
  if vImm w then x else signFix (vType w) (bitAt w 46) (bitAt w 49) x
/-- Floating-point source b; an immediate has no sign fields. -/
def Gang.fB (q : Gang) (w l : Nat) : Nat :=
  let x := q.srcB w l
  if vImm w then x else signFix (vType w) (bitAt w 47) (bitAt w 50) x
/-- Floating-point source c. -/
def Gang.fC (q : Gang) (w l : Nat) : Nat :=
  let x := q.src (vSc w) (vWide (vType w)) (vC w) l
  signFix (vType w) (bitAt w 48) false x

/-- The predicate of a word, or its branch mask. -/
def Gang.predMask (q : Gang) (w : Nat) : Nat :=
  let m := q.mask (vPred w)
  if vPneg w then 0xFFFF - m else m
/-- Active lanes (R133). -/
def Gang.active (q : Gang) (w : Nat) : Nat := q.emask &&& q.predMask w
/-- Active lanes in rising order. -/
def Gang.lanes (q : Gang) (w : Nat) : List Nat := (List.range 16).filter (fun l => bitAt (q.active w) l)

/-- Lane operand b of shfl and vtos: one 32-bit register whatever the type. Log: 20 (DEDUCED). -/
def Gang.laneB (q : Gang) (w l : Nat) : Nat := if vImm w then vImm16 w else q.src (vSb w) false (vB w) l

/-- Lanes whose registers an instruction reads; vtos reads the one lane it names, whatever the masks. -/
def Gang.readLanes (q : Gang) (op : VOp) (w : Nat) : List Nat := if op == .vtos then [q.laneB w 0] else q.lanes w

/-- Words with an error among those that an instruction reads (R120). -/
def Gang.errsRead (q : Gang) (op : VOp) (w : Nat) : NMap Bool :=
  q.errs.filter (fun e => (q.readLanes op w).contains (e.1 % 16) && (op.reads w).contains (e.1 / 16))

end Sys2Proof.Machine
end

