-- ==== Sys2Proof/Machine/Special.lean ====
section
/-! DEFINITION. The special functions of the vector engine (R46, R143, Table 2-4): free results within their error bounds of results
computed here, the irrational ones to a precision of 160 bits after the point. -/

namespace Sys2Proof.Machine

/-- A free result of a special function. Log: 24 (DESIGN CHOICE). -/
def sfuFree (f x : Nat) : Nat := (Config.sfu f (BitVec.ofNat 32 x)).toNat

/-- A free result within `n` ulp of the correctly rounded `r` (R46). Log: 24 (DESIGN CHOICE). -/
def sfuNear (n f x : Nat) (r : FVal) : Nat :=
  let rb := Fmt.fp32.ieee r
  let y := sfuFree f x
  match f32 rb, f32 y with
  | .fin a m e, .fin b k d =>
    let ulp : FVal := .fin false n (max (magExp (max m 1) e - 23) (-149))
    if FVal.cmp (FVal.sub (.fin b k d) (.fin a m e)).abs ulp == .gt then rb else y
  | _, _ => rb

/-! ## Numbers with 160 bits after the point -/

/-- One. -/
def fixOne : Int := 2 ^ 160
/-- The natural logarithm of 2. -/
def fixLn2 : Int := 1013035739299659071135698605846798551586536899366
/-- Product. -/
def fixMul (a b : Int) : Int := a * b / fixOne
/-- An FP32 value, every one of which within the functions' domains this form holds exactly. -/
def fixOf (v : FVal) : Int := v.scaled (-160)
/-- A value good enough to round to 24 bits: one bit more stands for what the form leaves out. -/
def fixVal (a : Int) : FVal := .fin (decide (a < 0)) (2 * a.natAbs + 1) (-161)

/-- `term + term * t / (k + 1) + …` with each term `t / k` times the one before, `k` from `k0` on in steps of `dk` factors: the power
series of the exponential (`dk` 1) and, with `t` a negated square, of sine and cosine (`dk` 2). -/
def fixSeries (t : Int) (dk : Nat) : Nat → Nat → Int → Int
  | 0, _, _ => 0
  | n + 1, k, term =>
    let d : Int := if dk == 1 then (k : Int) else (k : Int) * (k + 1)
    term + fixSeries t dk n (k + dk) (fixMul term t / d)

/-- The natural exponential of a number from 0 to 1. -/
def fixExp (t : Int) : Int := fixSeries t 1 60 1 fixOne
/-- Sine of a number from -4 to 4. -/
def fixSin (t : Int) : Int := fixSeries (-(fixMul t t)) 2 40 2 t
/-- Cosine of a number from -4 to 4. -/
def fixCos (t : Int) : Int := fixSeries (-(fixMul t t)) 2 40 1 fixOne

/-- `z + z^3/3 + z^5/5 + …`, with `z2` the square of `z` and `p` the current power. -/
def fixAtanh (z2 : Int) : Nat → Nat → Int → Int
  | 0, _, _ => 0
  | n + 1, k, p => p / (k : Int) + fixAtanh z2 n (k + 2) (fixMul p z2)

/-- The logarithm to base 2 of a number of magnitude `m` with `b` bits below its leading one. -/
def fixLog2 (m b : Nat) : Int :=
  let z : Int := ((m : Int) - 2 ^ b) * fixOne / ((m : Int) + 2 ^ b)
  2 * fixAtanh (fixMul z z) 60 1 z * fixOne / fixLn2

/-! ## The functions -/

/-- exp2: a power of two exactly at an integer, elsewhere the product of one with an exponential (2 ulp). Log: 24 (DESIGN CHOICE). -/
def exp2Of (x : Nat) : Nat :=
  match f32 x with
  | .nan => Fmt.fp32.nanBits
  | .inf n => if n then 0 else Fmt.fp32.infBits false
  | v =>
    if FVal.cmp v (FVal.ofInt 128) != .lt then Fmt.fp32.infBits false
    else if FVal.cmp v (FVal.ofInt (-200)) == .lt then sfuNear 2 0x40 x (.fin false 1 (-400))
    else
      let a := fixOf v
      let k := a / fixOne
      let f := a % fixOne
      sfuNear 2 0x40 x (if f == 0 then .fin false 1 k else FVal.mul (fixVal (fixExp (fixMul f fixLn2))) (.fin false 1 k))
/-- log2: an integer exactly at a power of two (2 ulp). Log: 24 (DESIGN CHOICE). -/
def log2Of (x : Nat) : Nat :=
  match f32 x with
  | .nan => Fmt.fp32.nanBits
  | .inf n => if n then Fmt.fp32.nanBits else Fmt.fp32.infBits false
  | .fin n m e =>
    if m == 0 then Fmt.fp32.infBits true
    else if n then Fmt.fp32.nanBits
    else
      let b := Nat.log2 m
      sfuNear 2 0x41 x (if m == 2 ^ b then FVal.ofInt (magExp m e) else fixVal (magExp m e * fixOne + fixLog2 m b))
/-- rcp (1 ulp). -/
def rcpOf (x : Nat) : Nat :=
  match f32 x with
  | .fin n m e => if m == 0 then Fmt.fp32.infBits n else sfuNear 1 0x42 x (FVal.div (.fin false 1 0) (.fin n m e))
  | v => Fmt.fp32.ieee (FVal.div (.fin false 1 0) v)
/-- rsq (1 ulp). -/
def rsqOf (x : Nat) : Nat :=
  match f32 x with
  | .nan => Fmt.fp32.nanBits
  | .inf n => if n then Fmt.fp32.nanBits else 0
  | .fin n m e =>
    if m == 0 then Fmt.fp32.infBits n
    else if n then Fmt.fp32.nanBits
    else
      let k := 2 ^ 160
      sfuNear 1 0x43 x (FVal.sqrt (.fin false (k * k / m) (-e - 320)))
/-- sin (0x44) and cos (0x45), within 2^-22; their domain is the magnitudes up to the largest FP32 number not above pi. Log: 24 (DESIGN CHOICE). -/
def trigOf (f x : Nat) : Nat :=
  if x % 2 ^ 31 ≤ 0x40490FDA then
    let t := fixOf (f32 x)
    let r := if f == 0x44 then fixSin t else fixCos t
    let y := sfuFree f x
    match f32 y with
    | .fin n m e => if (fixOf (.fin n m e) - r).natAbs ≤ 2 ^ 138 then y else Fmt.fp32.ieee (if r == 0 then .zero else fixVal r)
    | _ => Fmt.fp32.ieee (if r == 0 then .zero else fixVal r)
  else Fmt.fp32.nanBits

end Sys2Proof.Machine
end

