-- ==== Sys2Proof/Machine/Vector.lean ====
section
/-! DEFINITION. The vector engine (chapters 4 and 5): launches, instruction cache, issue, faults, and the meaning of every
vector instruction. -/

namespace Sys2Proof.Machine

/-! ## Gangs and launches -/

/-- Key of engine gang `n` of core `g`. -/
def gangKey (g n : Nat) : Nat := g * 32 + n
/-- A running gang. -/
def State.gang (s : State) (g n : Nat) : Option Gang := mget s.gangs (gangKey g n)
/-- Store a running gang. -/
def State.setGang (s : State) (g n : Nat) (q : Gang) : State := { s with gangs := mput s.gangs (gangKey g n) q }
/-- A resident launch of core `g`, by the number of its started command. -/
def State.launch (s : State) (g id : Nat) : Option Launch := s.launches.find? (fun l => l.core == g && l.id == id)
/-- Change a resident launch. -/
def State.modLaunch (s : State) (g id : Nat) (f : Launch → Launch) : State :=
  { s with launches := s.launches.map (fun l => if l.core == g && l.id == id then f l else l) }
/-- Gangs of a launch that have not ended. -/
def State.liveGangs (s : State) (g id : Nat) : List (Nat × Gang) :=
  (s.gangs.filter (fun e => e.1 / 32 == g && e.2.launch == id)).map (fun e => (e.1 % 32, e.2))
/-- Launches resident in core `g`. -/
def State.resident (s : State) (g : Nat) : Nat := (s.launches.filter (fun l => l.core == g)).length
/-- Engine gang is free. -/
def State.gangFree (s : State) (g n : Nat) : Bool := (s.gang g n).isNone

/-- A launch leaves the engine with its gangs and their waits; a slot already claimed stays claimed (R181). -/
def State.dropLaunch (s : State) (g id : Nat) : State :=
  let ns := (s.liveGangs g id).map (·.1)
  { s with gangs := s.gangs.filter (fun e => !(e.1 / 32 == g && e.2.launch == id)),
           launches := s.launches.filter (fun l => !(l.core == g && l.id == id)),
           ringWaits := s.ringWaits.filter (fun w => match w.who with
             | .gang h n => !(h == g && ns.contains n)
             | _ => true) }

/-- The sampled launch of core `g` with a started command's number has read or written rows; a duplicate that would need more
than 3,072 rows is abandoned with cause SIZE (R458, Table 17-1). -/
def State.sampleRows (s : State) (g id : Nat) (read wrote : List (Nat × Nat)) : State :=
  match s.samples.find? (fun x => x.isOf (unitEng g 1) id) with
  | none => s
  | some x =>
    let y : Sample := { x with logRows := x.logRows + read.length, inMem := x.inMem ++ read,
                                outRows := x.outRows + wrote.length, lockMem := x.lockMem ++ wrote }
    if 3072 < 512 + y.logRows + y.outRows then s.abandon x 1
    else { s with samples := s.samples.map (fun z => if z.isOf (unitEng g 1) id then y else z) }

/-- A sampled launch executes an instruction that its witness must not: the duplicate is abandoned with cause KERNEL (R458). -/
def State.sampleKernel (s : State) (g id : Nat) : State := s.abandonOf (unitEng g 1) id 2

/-- A launch ends: it completes with its last gang (R104), or with a fault (R119). -/
def State.endLaunch (s : State) (g id : Nat) : State :=
  let s := s.inc F.coreVecAct_launches g
  let s := s.dropLaunch g id
  s.opDone (unitEng g 1) id

/-- The first execution fault since `valid` was cleared is captured in CORE_VEC_FAULT and CORE_VEC_FAULT_ADDR (R121). -/
def State.vecCapture (s : State) (g st n lanes pc sub addr : Nat) : State :=
  if s.flag F.coreVecFault_valid g then s
  else
    let s := s.wr F.coreVecFault_code g st
    let s := s.wr F.coreVecFault_gang g n
    let s := s.wr F.coreVecFault_valid g 1
    let s := s.wr F.coreVecFault_lanes g lanes
    let s := s.wr F.coreVecFault_pc g pc
    let s := s.wr F.coreVecFault_subcode g sub
    s.wr F.coreVecFaultAddr_addr g addr

/-- The capture of a VEC_UNCORR that no gang met, of an argument row or a prefetched line: its gang, lanes and pc are open. Log: 157 (DESIGN CHOICE). -/
def State.vecCaptureOpen (s : State) (g : Nat) : State :=
  let (n, s) := s.fresh
  let (l, s) := s.fresh
  let (pc, s) := s.fresh
  s.vecCapture g 0x4C n l pc 0 0

/-- An execution fault of gang `n` (R118, R119, R121): capture while `valid` is 0, every gang of the launch stops, the command
completes with the fault and the vector queue halts; a third error of its buffers in a day retires the core (R465). -/
def State.vecFault (s : State) (g n st sub lanes addr : Nat) (now : Option Nat := none) : State :=
  match s.gang g n with
  | none => s
  | some q =>
    let s := s.vecCapture g st n lanes q.pc sub addr
    let s := (s.inc F.coreVecAct_launches g).dropLaunch g q.launch
    match s.startedOf (unitEng g 1) q.launch with
    | none => s
    | some x => (s.opFail (unitEng g 1) x st sub 0 now).repeated g

/-! ## Instruction cache (R115 to R117) -/

/-- Set of a line address: 16 sets of 8 ways. Log: 25 (DEDUCED). -/
def icSet (va : Nat) : Nat := va / 512 % 16

/-- A resident line; one whose parity is wrong is fetched again, as if it were missing (R117). Log: 156 (DEDUCED). -/
def State.iline (s : State) (g ctxPart ctx va : Nat) : Option ILine :=
  s.icache.find? (fun l => l.core == g && l.ctxPart == ctxPart && l.ctx == ctx && l.va == va && !l.bad)

/-- A line becomes the most recently used of its set. -/
def State.touchLine (s : State) (l : ILine) : State :=
  { s with icache := s.icache.filter (fun x => x != l) ++ [l] }

/-- Install a line; a full set loses its least recently used one. Log: 25 (DEDUCED). -/
def State.installLine (s : State) (l : ILine) : State :=
  let same := fun (x : ILine) => x.core == l.core && icSet x.va == icSet l.va
  let ic := s.icache.filter (fun x => !(x.core == l.core && x.ctxPart == l.ctxPart && x.ctx == l.ctx && x.va == l.va))
  let ic := if 8 ≤ (ic.filter same).length then
      (match ic.find? same with
       | some old => ic.filter (fun x => x != old)
       | none => ic)
    else ic
  { s with icache := ic ++ [l] }

/-- Every line of core `g` is invalid (R109 icache_inv, R116). -/
def State.icacheInv (s : State) (g : Nat) : State := { s with icache := s.icache.filter (fun l => l.core != g) }

/-- A line that is not resident is asked for, once (R115). -/
def State.askLine (s : State) (g ctxPart ctx va : Nat) : State :=
  let f : IFill := { core := g, ctxPart := ctxPart, ctx := ctx, va := va }
  if (s.iline g ctxPart ctx va).isSome || s.ifills.any (fun x => x == f) then s
  else { (s.inc F.coreVecStall_icacheMiss g) with ifills := s.ifills ++ [f] }

/-- The eight bytes of each instruction of a line. -/
def lineWords (l : List Byte) : List Nat := (List.range 64).map (fun i => leNat ((l.drop (8 * i)).take 8))

/-- What fetching a code line gives. -/
inductive CodeFetch where
  | line (l : ILine)
  | bad
  | unc
  | wait
  deriving DecidableEq, Repr

/-- Fetch a code line through the core's translation. -/
def State.fetchLine (s : State) (g ctxPart ctx va : Nat) : CodeFetch × State :=
  match s.xlat g ctxPart ctx va false with
  | (.fail k, s) => (if k == 9 then .unc else .bad, s)
  | (.ok d, s) =>
    match s.rowRead g d with
    | (.data l, s) => (.line { core := g, ctxPart := ctxPart, ctx := ctx, va := va, words := lineWords l }, s)
    | (.unc, s) => (.unc, s.engUnc g 1 0x40 d)
    | (.wait, s) => (.wait, s)
    | (.net _, s) => (.wait, s)

/-- ICACHE_FILL: the `k`-th line on its way to core `g` arrives; the gangs that waited may issue, and where the code has no
translation, or holds an uncorrectable error, each of their launches faults (R117, R197). Log: 25 (DEDUCED). -/
def State.icacheFill (s : State) (g k : Nat) : State :=
  match (s.ifills.filter (fun f => f.core == g))[k]? with
  | none => s
  | some f =>
    let hit := fun (s : State) => s.gangs.filter (fun e => e.1 / 32 == g && e.2.wait == .line f.va
      && (match s.launch g e.2.launch with
          | some l => l.ctxPart == f.ctxPart && l.ctx == f.ctx
          | none => false))
    let drop : State → State := fun s => { s with ifills := s.ifills.filter (fun x => x != f) }
    match s.fetchLine g f.ctxPart f.ctx f.va with
    | (.wait, s) => s
    | (.line l, s) =>
      let s := (drop s).installLine l
      (hit s).foldl (fun s e => s.setGang g (e.1 % 32) { e.2 with wait := .run }) s
    | (.bad, s) =>
      let s := drop s
      (hit s).foldl (fun s e => s.vecFault g (e.1 % 32) 0x4B 0 e.2.emask f.va) s
    | (.unc, s) =>
      let s := drop s
      (hit s).foldl (fun s e => s.vecFault g (e.1 % 32) 0x4C 0 e.2.emask 0) s

/-! ## Launch and prefetch commands (R108 to R114) -/

/-- Checks 0x40 to 0x42 of Table 4-4. -/
def State.vecCheck (s : State) (c : Cmd) : Nat :=
  let debug := (s.active.map (·.debug)).getD false
  if c.opcode == 0x40 then
    let gangs := bits c.w4 17 6
    if bitAt c.w4 27 || bits c.w4 40 8 != 0 || bits c.w5 57 7 != 0 || bits c.w7 32 32 != 0
       || gangs == 0 || decide (32 < gangs) || (bits c.w4 48 16 == 0 && !debug) then 0x40
    else if bits c.w5 0 9 != 0 then 0x41
    else if bitAt c.w4 26 && decide (3071 < bits c.w4 28 12) then 0x42
    else 0
  else
    let lines := bits c.w4 0 8
    if bits c.w4 8 56 != 0 || bits c.w5 57 7 != 0 || c.w6 != 0 || c.w7 != 0 || lines == 0 || decide (128 < lines) then 0x40
    else if bits c.w5 0 9 != 0 then 0x41
    else 0

/-- State of gang `i` of a launch (Table 4-1). -/
def startGang (g id : Nat) (e : Entry) (args : List Nat) (i : Nat) : Gang :=
  let c := e.cmd
  let q : Gang := { launch := id, pc := bits c.w4 0 17 }
  let q := q.setSreg 0 i
  let q := q.setSreg 1 (bits c.w4 17 6)
  let q := q.setSreg 2 ((e.bench.map (·.index)).getD 0xFFFFFFFF)
  let q := q.setSreg 3 (logicalOf g)
  let q := q.setSreg 4 (bits c.w6 0 32)
  let q := q.setSreg 5 (bits c.w6 32 32)
  let q := loop 16 (fun k q => q.setSreg (16 + k) (args.getD k 0)) q
  loop 16 (fun l q => q.setVr 0 l (bits c.w7 0 32 + 16 * i + l)) q

/-- VLAUNCH: the oldest started launch command that runs no gang yet takes the lowest free gangs (R111) and asks for the line
of its entry. -/
def State.vlaunchRun (s : State) (g : Nat) : State :=
  let u := unitEng g 1
  match (s.q u).started.find? (fun x => x.e.cmd.opcode == 0x40 && x.done.isNone && x.prog.ready && x.prog.src == 0) with
  | none => s
  | some x =>
    let c := x.e.cmd
    let gangs := bits c.w4 17 6
    let free := (List.range 32).filter (fun n => s.gangFree g n)
    let argEn := bitAt c.w4 26
    let row := bits c.w4 28 12
    if !s.runs g || decide (free.length < gangs) then s
    else if argEn && s.cmHurt g row then
      (((s.inc F.coreVecAct_launches g).engUnc g 1 0x40 (cmRow g row)).vecCaptureOpen g).opFail u x 0x4C 0
    else
      let args := if argEn then (List.range 16).map (fun k => s.mem.rdLE (cmRow g row + 4 * k) 4) else []
      let s := if argEn then s.corr (cmRow g row) 512 else s
      let (cp, ctx) := s.cmdCtx u x.e
      let code := bits c.w5 0 57
      let s := if bitAt c.w4 25 then s.icacheInv g else s
      let s := s.modStarted u x.id (fun y => { y with prog := { y.prog with src := 1 } })
      let la : Launch :=
        { core := g, id := x.id, code := code, ctxPart := cp, ctx := ctx, watchdog := bits c.w4 48 16 }
      let s := { s with launches := s.launches ++ [la] }
      let va := (code + 8 * bits c.w4 0 17) / 512 * 512
      let s := s.askLine g cp ctx va
      let w : GWait := if (s.iline g cp ctx va).isSome then .run else .line va
      let ns := free.take gangs
      let s := loop gangs (fun i s => s.setGang g (ns.getD i 0) { startGang g x.id x.e args i with wait := w }) s
      s.sampleRows g x.id (if argEn then [(cmRow g row, cmRow g (row + 1))] else []) []

/-- How a run over the lines of a prefetch ends: all lines seen, one that waits, or one with an uncorrectable error. -/
inductive PrefEnd where
  | all
  | wait
  | unc
  deriving DecidableEq, Repr

/-- The lines of a prefetch are fetched in order, and a line without a translation is skipped (R113). A line that is resident is not
used by it, and its fetches are no misses of icache_miss. Log: 154 (DESIGN CHOICE). -/
def State.prefetchLines (s : State) (g cp ctx code : Nat) : Nat → Nat → PrefEnd × State
  | 0, _ => (.all, s)
  | n + 1, i =>
    let va := code + 512 * i
    if (s.iline g cp ctx va).isSome then s.prefetchLines g cp ctx code n (i + 1)
    else
      match s.fetchLine g cp ctx va with
      | (.line l, s) => (s.installLine l).prefetchLines g cp ctx code n (i + 1)
      | (.bad, s) => s.prefetchLines g cp ctx code n (i + 1)
      | (.unc, s) => (.unc, s)
      | (.wait, s) => (.wait, s)

/-- VPREFETCH executes; a line that waits leaves the command for its next run, one that holds an uncorrectable error faults it. -/
def State.prefetchRun (s : State) (g : Nat) : State :=
  let u := unitEng g 1
  match s.oldest u 0x41 with
  | none => s
  | some x =>
    let c := x.e.cmd
    let (cp, ctx) := s.cmdCtx u x.e
    if !s.runs g then s
    else
      match s.prefetchLines g cp ctx (bits c.w5 0 57) (bits c.w4 0 8) 0 with
      | (.all, s) => s.opDone u x.id
      | (.wait, s) => s
      | (.unc, s) => (s.vecCaptureOpen g).opFail u x 0x4C 0

/-! ## Issue -/

/-- The tick at which a launch that has issued an instruction faults (R112); a watchdog of 0 sets none. -/
def Launch.limit (la : Launch) : Option Nat := if la.watchdog == 0 then none else la.since.map (fun t => t + 1024 * la.watchdog)

/-- The launch has not completed by its limit. -/
def State.overdue (s : State) (g : Nat) (la : Launch) : Bool := la.limit.any (fun t => decide (t ≤ s.ftCore g))

/-- A launch faults with VEC_WATCHDOG (R112): recorded with the lowest gang that has not ended, its pc and no lanes. Log: 152 (DESIGN CHOICE). -/
def State.launchLate (s : State) (g : Nat) (la : Launch) : State :=
  match la.limit, s.liveGangs g la.id with
  | some t, (n, _) :: _ => s.vecFault g n 0x4D 0 0 0 (s.expired g t)
  | _, _ => s

/-- A launch's first issue on an engine that no other launch uses waits for the load-step notice, at most 256 cycles, which are counted
(R91). Log: 148 (DESIGN CHOICE). -/
def State.vecNotice (s : State) (g : Nat) : State :=
  if s.launches.any (fun l => l.core == g && l.since.isSome) then s
  else s.fresh.2.inc F.coreVecStall_noticeWait g (s.fresh.1 % 257)

/-- The first instruction of a launch issues: the watchdog's time runs (R112). -/
def State.firstIssue (s : State) (g : Nat) (la : Launch) : State :=
  if la.since.isSome then s
  else
    let s := s.vecNotice g
    s.modLaunch g la.id (fun x => { x with since := some (s.ftCore g) })

/-- The lanes of an uncorrectable error in the registers that an instruction reads (R120). -/
def Gang.lostLanes (q : Gang) (op : VOp) (w : Nat) : List Nat := ((q.errsRead op w).filter (fun e => e.2)).map (fun e => e.1 % 16)

/-- Errors that an instruction's reads of registers correct in flight are counted (R120, R195). Log: 158 (DESIGN CHOICE). -/
def State.regCorr (s : State) (g n : Nat) : State := if n == 0 then s else s.inc F.partMemCorr_cmCorr (partOf g) n

/-- An instruction reads registers with an uncorrectable error (R120). Log: 158 (DESIGN CHOICE). -/
def State.regLost (s : State) (g n w : Nat) (lanes : List Nat) : State :=
  (s.fresh.2.bufUnc g 1 (vOpcode w) s.fresh.1).vecFault g n 0x4C 0 (lanes.foldl (fun m l => putBits m l 1 1) 0) 0

/-- An effect of an instruction on its gang: the word, the gang, its launch and the state. -/
abbrev VecEff := Nat → Gang → Launch → State → State

/-- The gang goes on behind its instruction. -/
def State.advance (s : State) (g n : Nat) (q : Gang) : State := s.setGang g n { q with pc := q.pc + 1, wait := .run }
/-- The gang goes on at an address. -/
def State.goto (s : State) (g n : Nat) (q : Gang) (pc : Nat) : State := s.setGang g n { q with pc := pc, wait := .run }

/-- Gang `n` of core `g` issues its next instruction, when that is one of operation `op` (R89, R115, R126, R128): a launch past its
limit and a PC beyond 131,071 fault, a missing line is asked for, and an undefined word faults. A fault of no particular lane
records the whole execution mask. Log: 153 (DESIGN CHOICE). -/
def State.vecStep (s : State) (g n : Nat) (op : VOp) (eff : VecEff) : State :=
  match s.gang g n with
  | none => s
  | some q =>
    match s.launch g q.launch with
    | none => s
    | some la =>
      let at_ := la.code + 8 * q.pc
      let va := at_ / 512 * 512
      if !s.runs g || !(q.wait == .run || q.wait == .ring || q.wait == .lock) then s
      else if s.overdue g la then s.launchLate g la
      else if 131071 < q.pc then s.vecFault g n 0x4B 0 q.emask at_
      else
        match s.iline g la.ctxPart la.ctx va with
        | none => (s.askLine g la.ctxPart la.ctx va).setGang g n { q with wait := .line va }
        | some l =>
          let w := l.words.getD (at_ % 512 / 8) 0
          match vecOp (vOpcode w) with
          | none => s.vecFault g n 0x48 0 q.emask 0
          | some o =>
            if o != op then s
            else if !op.legal w then s.vecFault g n 0x48 0 q.emask 0
            else
              let s := s.touchLine l
              let s := if q.wait == .run then s.incUnit F.coreVecAct_instrK g 1024 1 else s
              let s := s.firstIssue g la
              if (q.lostLanes op w).isEmpty then eff w q la (s.regCorr g (q.errsRead op w).length)
              else s.regLost g n w (q.lostLanes op w)

/-- A lane-wise result in the active lanes; every source is read before any result is written (R130). -/
def laneMap (q : Gang) (w : Nat) (wide : Bool) (f : Nat → Nat) : Gang :=
  (q.lanes w).foldl (fun r l => r.vwrite wide (vD w) l (f l)) q

/-- A mask result in the active lanes; the other bits stand (R93). -/
def laneMask (q : Gang) (w : Nat) (f : Nat → Bool) : Gang :=
  q.setMask (vD w) ((q.lanes w).foldl (fun m l => putBits m l 1 (ofBool (f l))) (q.mask (vD w)))

/-- An instruction that writes a register lane by lane and goes on. -/
def State.vecMap (s : State) (g n : Nat) (op : VOp) (f : Nat → Gang → Nat → Nat) : State :=
  s.vecStep g n op (fun w q _ s => s.advance g n (laneMap q w (vWide (vType w)) (f w q)))

/-! ## Control (R103, R104, R134) -/

/-- The divergent branch of R103. -/
def State.brDiv (s : State) (g n : Nat) (q : Gang) (w : Nat) : State :=
  let mk := q.predMask w
  let e := q.emask
  let t := e &&& mk
  let nn := e &&& (0xFFFF - mk)
  let j := vJoin w
  let b := vTarget w
  let push1 := match q.stack with
    | [] => true
    | (p, _) :: _ => p != j + 1
  let need := (if push1 then 1 else 0) + (if t == 0 || nn == 0 then 0 else 1)
  if 32 < q.stack.length + need then s.vecFault g n 0x4A 1 q.emask 0
  else
    let st := if push1 then (j + 1, e) :: q.stack else q.stack
    if t == 0 then s.goto g n { q with stack := st } (q.pc + 1)
    else if nn == 0 then s.goto g n { q with stack := st } b
    else s.goto g n { q with stack := (b, t) :: st, emask := nn } (q.pc + 1)

/-- nop. -/
def execVNop (g : CoreId) (n : GangId) (s : State) : Host.Outcome State Fault Refusal :=
  finish (s.vecStep g n .nop (fun _ q _ s => s.advance g n q))
/-- jmp. -/
def execVJmp (g : CoreId) (n : GangId) (s : State) : Host.Outcome State Fault Refusal :=
  finish (s.vecStep g n .jmp (fun w q _ s => s.goto g n q (vTarget w)))
/-- br.div (R103). -/
def execVBrDiv (g : CoreId) (n : GangId) (s : State) : Host.Outcome State Fault Refusal :=
  finish (s.vecStep g n .brDiv (fun w q _ s => s.brDiv g n q w))
/-- join (R103, R104). Log: 153 (DESIGN CHOICE). -/
def execVJoin (g : CoreId) (n : GangId) (s : State) : Host.Outcome State Fault Refusal :=
  finish (s.vecStep g n .join (fun _ q _ s =>
    match q.stack with
    | [] => s.vecFault g n 0x4A 2 q.emask 0
    | (p, m) :: r => s.goto g n { q with stack := r, emask := m } p))
/-- br.any. -/
def execVBrAny (g : CoreId) (n : GangId) (s : State) : Host.Outcome State Fault Refusal :=
  finish (s.vecStep g n .brAny (fun w q _ s =>
    s.goto g n q (if q.emask &&& q.predMask w != 0 then vTarget w else q.pc + 1)))
/-- br.all. -/
def execVBrAll (g : CoreId) (n : GangId) (s : State) : Host.Outcome State Fault Refusal :=
  finish (s.vecStep g n .brAll (fun w q _ s =>
    s.goto g n q (if q.emask &&& q.predMask w == q.emask then vTarget w else q.pc + 1)))
/-- bz. -/
def execVBz (g : CoreId) (n : GangId) (s : State) : Host.Outcome State Fault Refusal :=
  finish (s.vecStep g n .bz (fun w q _ s => s.goto g n q (if q.sreg (vTest w) == 0 then vTarget w else q.pc + 1)))
/-- bnz. -/
def execVBnz (g : CoreId) (n : GangId) (s : State) : Host.Outcome State Fault Refusal :=
  finish (s.vecStep g n .bnz (fun w q _ s => s.goto g n q (if q.sreg (vTest w) == 0 then q.pc + 1 else vTarget w)))
/-- end: the gang ends, and the launch completes with its last gang (R104). -/
def execVEnd (g : CoreId) (n : GangId) (s : State) : Host.Outcome State Fault Refusal :=
  finish (s.vecStep g n .fin (fun _ q la s =>
    let s := { s with gangs := mdel s.gangs (gangKey g n) }
    if (s.liveGangs g q.launch).isEmpty then s.endLaunch g la.id else s))

/-! ## Integer (R135) -/

/-- Bits of an integer type. -/
def intW (t : Nat) : Nat := if vWide t then 64 else 32
/-- A value read under an integer type. -/
def intVal (t x : Nat) : Int := if t == 1 || t == 3 then signedOf (intW t) x else (x : Int)
/-- A condition of icmp and scmp. -/
def intCond (c t a b : Nat) : Bool :=
  let x := intVal t a
  let y := intVal t b
  if c == 0 then x == y else if c == 1 then x != y else if c == 2 then decide (x < y) else if c == 3 then decide (x ≤ y)
  else if c == 4 then decide (y < x) else decide (y ≤ x)
/-- Shift distance of a type. -/
def shiftBy (t b : Nat) : Nat := b % intW t
/-- Arithmetic right shift. -/
def sarOf (t a b : Nat) : Nat := ofSigned (intW t) (signedOf (intW t) a / (2 ^ shiftBy t b : Nat))
/-- Leading zeros of 32 bits. -/
def clz32 (a : Nat) : Nat := if a == 0 then 32 else 31 - Nat.log2 a
/-- Set bits of the low `n` bits. -/
def popCount (n a : Nat) : Nat := countBelow n (fun i => bitAt a i)

/-- iadd. -/
def execVIadd (g : CoreId) (n : GangId) (s : State) : Host.Outcome State Fault Refusal :=
  finish (s.vecMap g n .iadd (fun w q l => (q.srcA w l + q.srcB w l) % 2 ^ intW (vType w)))
/-- isub. -/
def execVIsub (g : CoreId) (n : GangId) (s : State) : Host.Outcome State Fault Refusal :=
  finish (s.vecMap g n .isub (fun w q l =>
    (q.srcA w l + 2 ^ intW (vType w) - q.srcB w l % 2 ^ intW (vType w)) % 2 ^ intW (vType w)))
/-- imul. -/
def execVImul (g : CoreId) (n : GangId) (s : State) : Host.Outcome State Fault Refusal :=
  finish (s.vecMap g n .imul (fun w q l => q.srcA w l * q.srcB w l % 2 ^ 32))
/-- imulhi. -/
def execVImulhi (g : CoreId) (n : GangId) (s : State) : Host.Outcome State Fault Refusal :=
  finish (s.vecMap g n .imulhi (fun w q l =>
    ofSigned 32 (intVal (vType w) (q.srcA w l) * intVal (vType w) (q.srcB w l) / (2 ^ 32 : Nat))))
/-- imin. -/
def execVImin (g : CoreId) (n : GangId) (s : State) : Host.Outcome State Fault Refusal :=
  finish (s.vecMap g n .imin (fun w q l =>
    if intVal (vType w) (q.srcA w l) ≤ intVal (vType w) (q.srcB w l) then q.srcA w l else q.srcB w l))
/-- imax. -/
def execVImax (g : CoreId) (n : GangId) (s : State) : Host.Outcome State Fault Refusal :=
  finish (s.vecMap g n .imax (fun w q l =>
    if intVal (vType w) (q.srcA w l) ≤ intVal (vType w) (q.srcB w l) then q.srcB w l else q.srcA w l))
/-- and. -/
def execVAnd (g : CoreId) (n : GangId) (s : State) : Host.Outcome State Fault Refusal :=
  finish (s.vecMap g n .band (fun w q l => q.srcA w l &&& q.srcB w l))
/-- or. -/
def execVOr (g : CoreId) (n : GangId) (s : State) : Host.Outcome State Fault Refusal :=
  finish (s.vecMap g n .bor (fun w q l => q.srcA w l ||| q.srcB w l))
/-- xor. -/
def execVXor (g : CoreId) (n : GangId) (s : State) : Host.Outcome State Fault Refusal :=
  finish (s.vecMap g n .bxor (fun w q l => q.srcA w l ^^^ q.srcB w l))
/-- shl. -/
def execVShl (g : CoreId) (n : GangId) (s : State) : Host.Outcome State Fault Refusal :=
  finish (s.vecMap g n .shl (fun w q l => q.srcA w l * 2 ^ shiftBy (vType w) (q.srcB w l) % 2 ^ intW (vType w)))
/-- shr. -/
def execVShr (g : CoreId) (n : GangId) (s : State) : Host.Outcome State Fault Refusal :=
  finish (s.vecMap g n .shr (fun w q l => q.srcA w l / 2 ^ shiftBy (vType w) (q.srcB w l)))
/-- sar. -/
def execVSar (g : CoreId) (n : GangId) (s : State) : Host.Outcome State Fault Refusal :=
  finish (s.vecMap g n .sar (fun w q l => sarOf (vType w) (q.srcA w l) (q.srcB w l)))
/-- clz. -/
def execVClz (g : CoreId) (n : GangId) (s : State) : Host.Outcome State Fault Refusal :=
  finish (s.vecMap g n .clz (fun w q l => clz32 (q.srcA w l)))
/-- popc. -/
def execVPopc (g : CoreId) (n : GangId) (s : State) : Host.Outcome State Fault Refusal :=
  finish (s.vecMap g n .popc (fun w q l => popCount 32 (q.srcA w l)))
/-- icmp: mask d. -/
def execVIcmp (g : CoreId) (n : GangId) (s : State) : Host.Outcome State Fault Refusal :=
  finish (s.vecStep g n .icmp (fun w q _ s =>
    s.advance g n (laneMask q w (fun l => intCond (bits w 56 3) (vType w) (q.srcA w l) (q.srcB w l)))))
/-- sel: by the lane's bit of mask c. -/
def execVSel (g : CoreId) (n : GangId) (s : State) : Host.Outcome State Fault Refusal :=
  finish (s.vecMap g n .sel (fun w q l => if bitAt (q.mask (vC w)) l then q.srcA w l else q.srcB w l))

/-! ## Floating point (R45, R136) -/

/-- Format of a floating type code. -/
def fpFmt (t : Nat) : Fmt := if t == 5 then .fp64 else if t == 6 then .bf16 else if t == 7 then .fp16 else .fp32

/-- An operation on one element, or on both halves of a packed type, rounded once under R45. -/
def fp3 (t : Nat) (f : FVal → FVal → FVal → FVal) (a b c : Nat) : Nat :=
  let m := fpFmt t
  let one := fun (a b c : Nat) => m.ieee (f (m.decode a) (m.decode b) (m.decode c))
  if t == 6 || t == 7 then
    one (bits a 0 16) (bits b 0 16) (bits c 0 16) + one (bits a 16 16) (bits b 16 16) (bits c 16 16) * 2 ^ 16
  else one a b c

/-- fmin: the other operand of a NaN, and -0 below +0 (R136). -/
def fminOf (a b : FVal) : FVal := if a.isNan then b else if b.isNan then a else if FVal.below b a then b else a
/-- fmax. -/
def fmaxOf (a b : FVal) : FVal := if a.isNan then b else if b.isNan then a else if FVal.below a b then b else a

/-- A condition of fcmp (R136). -/
def fpCond (c : Nat) (a b : FVal) : Bool :=
  if a.isNan || b.isNan then c == 1 || c == 7
  else
    let o := FVal.cmp a b
    if c == 0 then o == .eq else if c == 1 then o != .eq else if c == 2 then o == .lt else if c == 3 then o != .gt
    else if c == 4 then o == .gt else if c == 5 then o != .lt else c == 6

/-- Direction of frnd. -/
def frndDir (c : Nat) : RDir := [RDir.near, .down, .up, .zero].getD c .near

/-- fadd. -/
def execVFadd (g : CoreId) (n : GangId) (s : State) : Host.Outcome State Fault Refusal :=
  finish (s.vecMap g n .fadd (fun w q l => fp3 (vType w) (fun a b _ => FVal.add a b) (q.fA w l) (q.fB w l) 0))
/-- fsub. -/
def execVFsub (g : CoreId) (n : GangId) (s : State) : Host.Outcome State Fault Refusal :=
  finish (s.vecMap g n .fsub (fun w q l => fp3 (vType w) (fun a b _ => FVal.sub a b) (q.fA w l) (q.fB w l) 0))
/-- fmul. -/
def execVFmul (g : CoreId) (n : GangId) (s : State) : Host.Outcome State Fault Refusal :=
  finish (s.vecMap g n .fmul (fun w q l => fp3 (vType w) (fun a b _ => FVal.mul a b) (q.fA w l) (q.fB w l) 0))
/-- ffma: one rounding. -/
def execVFfma (g : CoreId) (n : GangId) (s : State) : Host.Outcome State Fault Refusal :=
  finish (s.vecMap g n .ffma (fun w q l =>
    fp3 (vType w) (fun a b c => FVal.add (FVal.mul a b) c) (q.fA w l) (q.fB w l) (q.fC w l)))
/-- fmin. -/
def execVFmin (g : CoreId) (n : GangId) (s : State) : Host.Outcome State Fault Refusal :=
  finish (s.vecMap g n .fmin (fun w q l => fp3 (vType w) (fun a b _ => fminOf a b) (q.fA w l) (q.fB w l) 0))
/-- fmax. -/
def execVFmax (g : CoreId) (n : GangId) (s : State) : Host.Outcome State Fault Refusal :=
  finish (s.vecMap g n .fmax (fun w q l => fp3 (vType w) (fun a b _ => fmaxOf a b) (q.fA w l) (q.fB w l) 0))
/-- fcmp: mask d. -/
def execVFcmp (g : CoreId) (n : GangId) (s : State) : Host.Outcome State Fault Refusal :=
  finish (s.vecStep g n .fcmp (fun w q _ s =>
    let m := fpFmt (vType w)
    s.advance g n (laneMask q w (fun l => fpCond (bits w 56 3) (m.decode (q.fA w l)) (m.decode (q.fB w l))))))
/-- frnd. -/
def execVFrnd (g : CoreId) (n : GangId) (s : State) : Host.Outcome State Fault Refusal :=
  finish (s.vecMap g n .frnd (fun w q l =>
    fp3 (vType w) (fun a _ _ => FVal.toIntegral (frndDir (bits w 56 2)) a) (q.fA w l) 0 0))

/-! ## Conversion and data movement (R137 to R142) -/

/-- Format of a code of Table 5-7 that Table 2-1 names; the unsigned integers have none. -/
def cvtFmt (f : Nat) : Option Fmt :=
  [some Fmt.fp32, some .bf16, some .fp16, some .e4m3, some .e5m2, some .e3m2, some .e2m3, some .e2m1, some .fp64,
   some .int32, none, some .int8, none, some .int4].getD f none

/-- Value of an element of a format code. -/
def cvtDecode (f w : Nat) : FVal :=
  match cvtFmt f with
  | some m => m.decode w
  | none => FVal.ofInt (w : Int)

/-- Conversion to U8 or U32 (R138): the integer row of Table 2-3 with 0 as the smallest integer. -/
def cvtUnsigned (width : Nat) (v : FVal) : Conv :=
  let top := 2 ^ width - 1
  match v with
  | .nan => { w := 0, lost := 1 }
  | .inf neg => { w := if neg then 0 else top, sat := 1 }
  | .fin neg m e =>
    let k := rneInt neg m e
    if k < 0 then { w := 0, sat := 1 } else if (top : Int) < k then { w := top, sat := 1 } else { w := k.toNat }

/-- Conversion to a format code (R41 to R44, R138). -/
def cvtConvert (f : Nat) (nonsat : Bool) (v : FVal) : Conv :=
  match cvtFmt f with
  | some m => m.convert nonsat v
  | none => cvtUnsigned (cvtWidth f) v

/-- One lane of cvt: the converted element. -/
def Gang.cvtLane (q : Gang) (w l : Nat) : Conv :=
  let t := vType w
  let f := bits w 60 4
  let sw := cvtWidth t
  let a := q.src (vSa w) (sw == 64) (vA w) l
  let v := cvtDecode t (bits a (bits w 52 3 * sw) sw)
  let v := if bitAt w 49 then v.abs else v
  let v := if bitAt w 46 then v.negate else v
  cvtConvert f (bitAt w 59) v

/-- cvt (R137). -/
def execVCvt (g : CoreId) (n : GangId) (s : State) : Host.Outcome State Fault Refusal :=
  finish (s.vecStep g n .cvt (fun w q _ s =>
    let f := bits w 60 4
    let dw := cvtWidth f
    let wide := dw == 64
    let put := fun (l : Nat) =>
      let base := if bitAt w 55 then q.vread wide (vD w) l else 0
      putBits base (bits w 56 3 * dw) dw (q.cvtLane w l).w
    let s := s.counts g (Counts.sum ((q.lanes w).map (fun l => (q.cvtLane w l).counts)))
    s.advance g n (laneMap q w wide put)))

/-- Value of an input of mxpack: F32, or BF16 in bits [15:0] (R139). -/
def mxInput (t x : Nat) : FVal := if t == 6 then Fmt.bf16.decode (bits x 0 16) else f32 x

/-- The 32 inputs of mxpack: an inactive lane supplies +0 (R140). Log: 19 (DEDUCED). -/
def Gang.mxInputs (q : Gang) (w : Nat) : List FVal :=
  (List.range 16).flatMap (fun l =>
    let t := vType w
    let one := fun (r : Nat) => mxInput t (signFix t (bitAt w 46) (bitAt w 49) (q.src (vSa w) false r l))
    if bitAt (q.active w) l then [one (vA w), one (vA w + 1)] else [FVal.zero, FVal.zero])

/-- mxpack (R139, R140): the residuals are written last, over packed elements where the registers overlap. Log: 19 (DEDUCED), 155 (DESIGN CHOICE). -/
def execVMxpack (g : CoreId) (n : GangId) (s : State) : Host.Outcome State Fault Refusal :=
  finish (s.vecStep g n .mxpack (fun w q _ s =>
    let f := mxOf (bits w 60 4)
    let xs := q.mxInputs w
    let blk := f.quantise xs
    let s := if bitAt w 58 then s else s.counts g { zeroBlocks := blk.zeroBlocks, vanished := blk.vanished }
    let res := fun (i : Nat) =>
      if blk.scale == 255 then Fmt.fp32.nanBits
      else Fmt.fp32.ieee (FVal.sub (xs.getD i .zero) (f.value blk.scale (blk.q.getD i 0)))
    let pack := fun (l : Nat) => blk.q.getD (2 * l) 0 + blk.q.getD (2 * l + 1) 0 * 2 ^ (if f == .e2m1 then 4 else 8)
    let q' := laneMap q w false pack
    let q' := if bitAt w 59 then
        (q.lanes w).foldl (fun r l => (r.setVr (vB w) l (res (2 * l))).setVr (vB w + 1) l (res (2 * l + 1))) q'
      else q'
    s.advance g n (q'.setSreg (vC w) blk.scale)))

/-- Elements of mxunpack in lane `l`, converted to FP32 (R141). -/
def Gang.mxOutputs (q : Gang) (w l : Nat) : Conv × Conv :=
  let f := mxOf (bits w 60 4)
  let x := q.src (vSa w) false (vA w) l
  let scale := bits (q.sreg (vC w)) 0 8
  let k := if f == .e2m1 then 4 else 8
  let one := fun (e : Nat) => Fmt.fp32.convert (bitAt w 59) (f.value scale e)
  (one (bits x 0 k), one (bits x k k))

/-- mxunpack (R141). Log: 19 (DEDUCED). -/
def execVMxunpack (g : CoreId) (n : GangId) (s : State) : Host.Outcome State Fault Refusal :=
  finish (s.vecStep g n .mxunpack (fun w q _ s =>
    let s := s.counts g (Counts.sum ((q.lanes w).map (fun l => (q.mxOutputs w l).1.counts.add (q.mxOutputs w l).2.counts)))
    s.advance g n (laneMap q w true (fun l => (q.mxOutputs w l).1.w + (q.mxOutputs w l).2.w * 2 ^ 32))))

/-- Source lane of shfl, if it lies in 0 to 15 (R142). -/
def shflLane (mode l b : Nat) : Option Nat :=
  let k : Int := if mode == 0 then (b % 16 : Nat) else if mode == 1 then (l ^^^ b : Nat) else if mode == 2 then (l : Int) - b
    else (l : Int) + b
  if 0 ≤ k && k < 16 then some k.toNat else none

/-- shfl (R142). -/
def execVShfl (g : CoreId) (n : GangId) (s : State) : Host.Outcome State Fault Refusal :=
  finish (s.vecMap g n .shfl (fun w q l =>
    match shflLane (bits w 56 2) l (q.laneB w l) with
    | some k => if bitAt (q.active w) k then q.srcA w k else q.srcA w l
    | none => q.srcA w l))
/-- mov: register a, or the lane index. -/
def execVMov (g : CoreId) (n : GangId) (s : State) : Host.Outcome State Fault Refusal :=
  finish (s.vecMap g n .mov (fun w q l => if bits w 56 8 == 0 then q.srcA w l else l))
/-- vtos: scalar d from one lane, whatever the masks; a lane above 15 gives a free value. Log: 20 (DEDUCED). -/
def execVVtos (g : CoreId) (n : GangId) (s : State) : Host.Outcome State Fault Refusal :=
  finish (s.vecStep g n .vtos (fun w q _ s =>
    let wide := vWide (vType w)
    let b := q.laneB w 0
    let (x, s) := if b < 16 then (q.srcA w b, s) else (s.fresh.1 % 2 ^ 64, s.fresh.2)
    s.advance g n (q.swrite wide (vD w) x)))
/-- movi: to a scalar register, or to a vector register in the active lanes. Log: 20 (DEDUCED). -/
def execVMovi (g : CoreId) (n : GangId) (s : State) : Host.Outcome State Fault Refusal :=
  finish (s.vecStep g n .movi (fun w q _ s =>
    s.advance g n (if vSa w then q.setSreg (vD w) (vImm32 w) else laneMap q w false (fun _ => vImm32 w))))

/-! ## Special functions (R143) -/

/-- exp2. -/
def execVExp2 (g : CoreId) (n : GangId) (s : State) : Host.Outcome State Fault Refusal :=
  finish (s.vecMap g n .exp2 (fun w q l => exp2Of (q.fA w l)))
/-- log2. -/
def execVLog2 (g : CoreId) (n : GangId) (s : State) : Host.Outcome State Fault Refusal :=
  finish (s.vecMap g n .log2 (fun w q l => log2Of (q.fA w l)))
/-- rcp. -/
def execVRcp (g : CoreId) (n : GangId) (s : State) : Host.Outcome State Fault Refusal :=
  finish (s.vecMap g n .rcp (fun w q l => rcpOf (q.fA w l)))
/-- rsq. -/
def execVRsq (g : CoreId) (n : GangId) (s : State) : Host.Outcome State Fault Refusal :=
  finish (s.vecMap g n .rsq (fun w q l => rsqOf (q.fA w l)))
/-- sin. -/
def execVSin (g : CoreId) (n : GangId) (s : State) : Host.Outcome State Fault Refusal :=
  finish (s.vecMap g n .sin (fun w q l => trigOf 0x44 (q.fA w l)))
/-- cos. -/
def execVCos (g : CoreId) (n : GangId) (s : State) : Host.Outcome State Fault Refusal :=
  finish (s.vecMap g n .cos (fun w q l => trigOf 0x45 (q.fA w l)))

/-! ## Row-stage elements and atomics (R96, R97, R105 to R107, R144, R147) -/

/-- Element address of a lane, as a number that may pass 32 bits. -/
def Gang.elemAddr (q : Gang) (w l : Nat) : Nat := q.src (vSa w) false (vA w) l + vOffset w
/-- Bytes of an access. -/
def vBytes (w : Nat) : Nat := 2 ^ vWidth w

/-- Subcode of a lane's address: 1 beyond the row stage, 2 misaligned, 0 good; the range comes first (R144). Log: 22 (DEDUCED). -/
def elemFault (w a : Nat) : Nat := if 131072 ≤ a then 1 else if a % vBytes w != 0 then 2 else 0

/-- Lanes whose address faults. -/
def Gang.badLanes (q : Gang) (w : Nat) : List Nat := (q.lanes w).filter (fun l => elemFault w (q.elemAddr w l) != 0)

/-- Passes of an access (R97): the largest number of distinct words in one bank. -/
def Gang.passes (q : Gang) (w : Nat) : Nat :=
  let ws := ((q.lanes w).flatMap (fun l =>
    let k := q.elemAddr w l / 4
    if vWidth w == 3 then [k, k + 1] else [k])).eraseDups
  ((List.range 32).map (fun b => (ws.filter (fun k => k % 32 == b)).length)).foldl max 0

/-- A row-stage access of the gang: bad addresses and uncorrectable errors fault, a locked result holds it, and else it runs with
its passes counted (R97, R144, R459). Log: 22 (DEDUCED). -/
def State.elemAccess (s : State) (g n : Nat) (w : Nat) (q : Gang) (reads writes : Bool) (opcode : Nat) (run : State → State) : State :=
  match q.badLanes w with
  | l :: r =>
    let m := (l :: r).foldl (fun acc k => putBits acc k 1 1) 0
    s.vecFault g n 0x49 (elemFault w (q.elemAddr w l)) m (q.elemAddr w l)
  | [] =>
    let ls := q.lanes w
    let touch := fun (l : Nat) => stageBuf g + q.elemAddr w l
    if writes && ls.any (fun l => s.lockedBuf (touch l) (vBytes w)) then s.setGang g n { q with wait := .lock }
    else
      match (if reads then ls.filter (fun l => s.bufs.hurt (touch l) (vBytes w)) else []) with
      | l :: r =>
        let m := (l :: r).foldl (fun acc k => putBits acc k 1 1) 0
        (s.bufUnc g 1 opcode (touch l)).vecFault g n 0x4C 0 m 0
      | [] =>
        let s := if reads then ls.foldl (fun s l => s.corrBuf g (touch l) (vBytes w)) s else s
        let p := q.passes w
        let s := if 2 ≤ p then s.incUnit F.coreVecStall_bankPass g 256 (p - 1) else s
        run s

/-- ld. Log: 21 (DEDUCED). -/
def execVLd (g : CoreId) (n : GangId) (s : State) : Host.Outcome State Fault Refusal :=
  finish (s.vecStep g n .ld (fun w q _ s =>
    s.elemAccess g n w q true false 0x50 (fun s =>
      let k := vBytes w
      let one := fun (l : Nat) =>
        let x := s.bufs.rdLE (stageBuf g + q.elemAddr w l) k
        if bitAt w 26 && k < 4 then ofSigned 32 (signedOf (8 * k) x) else x
      s.advance g n (laneMap q w (vWidth w == 3) one))))
/-- st: lanes in rising order. -/
def execVSt (g : CoreId) (n : GangId) (s : State) : Host.Outcome State Fault Refusal :=
  finish (s.vecStep g n .st (fun w q _ s =>
    s.elemAccess g n w q false true 0x51 (fun s =>
      let s := (q.lanes w).foldl (fun s l =>
        { s with bufs := s.bufs.wrLE (stageBuf g + q.elemAddr w l) (vBytes w) (q.src (vSb w) (vWidth w == 3) (vB w) l) }) s
      s.advance g n q)))

/-- New value of an atomic operation (Table 5-11). -/
def atomOf (op width old b : Nat) : Nat :=
  let t := if width == 3 then 3 else 1
  let m := 2 ^ (8 * 2 ^ width)
  if op == 0 then (old + b) % m
  else if op == 1 then (if intVal t old ≤ intVal t b then old else b)
  else if op == 2 then (if intVal t old ≤ intVal t b then b else old)
  else if op == 3 then min old b
  else if op == 4 then max old b
  else if op == 5 then old &&& b
  else if op == 6 then old ||| b
  else if op == 7 then old ^^^ b
  else if op == 8 then b
  else fp3 4 (fun x y _ => FVal.add x y) old b 0

/-- The lanes of an atomic apply in rising order, each seeing the value the lane before it left (R106); every lane's old value is
kept for d. -/
def State.atomLanes (s : State) (g : Nat) (w : Nat) (q : Gang) (f : Nat → Nat → Nat) : List (Nat × Nat) × State :=
  (q.lanes w).foldl (fun (acc : List (Nat × Nat) × State) l =>
    let a := stageBuf g + q.elemAddr w l
    let old := acc.2.bufs.rdLE a (vBytes w)
    (acc.1 ++ [(l, old)], { acc.2 with bufs := acc.2.bufs.wrLE a (vBytes w) (f l old) })) ([], s)

/-- An atomic instruction: the old value goes to d. -/
def State.atomRun (s : State) (g n : Nat) (w : Nat) (q : Gang) (opcode : Nat) (f : Nat → Nat → Nat) : State :=
  s.elemAccess g n w q true true opcode (fun s =>
    let (olds, s) := s.atomLanes g w q f
    s.advance g n (olds.foldl (fun r e => r.vwrite (vWidth w == 3) (vD w) e.1 e.2) q))

/-- atom. -/
def execVAtom (g : CoreId) (n : GangId) (s : State) : Host.Outcome State Fault Refusal :=
  finish (s.vecStep g n .atom (fun w q _ s =>
    s.atomRun g n w q 0x60 (fun l old => atomOf (vType w) (vWidth w) old (q.src (vSb w) (vWidth w == 3) (vB w) l))))
/-- atomcas. -/
def execVAtomcas (g : CoreId) (n : GangId) (s : State) : Host.Outcome State Fault Refusal :=
  finish (s.vecStep g n .atomcas (fun w q _ s =>
    let wide := vWidth w == 3
    s.atomRun g n w q 0x61 (fun l old =>
      if old == q.vread wide (vC w) l then q.src (vSb w) wide (vB w) l else old)))

/-! ## Row transfers (R145, R146) -/

/-- First row-stage row of a transfer. -/
def Gang.stageRow (q : Gang) (w : Nat) : Nat := bits w 32 8 + (if bitAt w 23 then q.sreg (bits w 18 5) else 0)
/-- First core-memory row, or the ring number, of a transfer. -/
def Gang.memRow (q : Gang) (w : Nat) : Nat := bits w 40 12 + (if bitAt w 17 then q.sreg (bits w 12 5) else 0)

/-- A row transfer of rowld and rowst with its range checks (R145); with no active lane it does nothing (R133). Log: 22 (DEDUCED). -/
def State.rowXfer (s : State) (g n : Nat) (w : Nat) (q : Gang) (run : Nat → Nat → Nat → State → State) : State :=
  let r0 := q.stageRow w
  let m0 := q.memRow w
  let k := vCount w
  if q.active w == 0 then s.advance g n q
  else if 256 < r0 + k then s.vecFault g n 0x49 4 (q.active w) r0
  else if 3072 < m0 + k then s.vecFault g n 0x49 3 (q.active w) m0
  else run r0 m0 k s

/-- rowld. -/
def execVRowld (g : CoreId) (n : GangId) (s : State) : Host.Outcome State Fault Refusal :=
  finish (s.vecStep g n .rowld (fun w q la s =>
    s.rowXfer g n w q (fun r0 m0 k s =>
      if s.lockedBuf (stageBuf g + 512 * r0) (512 * k) then s.setGang g n { q with wait := .lock }
      else if s.mem.hurt (cmRow g m0) (512 * k) then
        (s.engUnc g 1 0x52 (s.hurtRow (cmRow g m0) k)).vecFault g n 0x4C 0 (q.active w) 0
      else
        let s := s.corr (cmRow g m0) (512 * k)
        let s := { s with bufs := s.bufs.wrN (stageBuf g + 512 * r0) (s.mem.rdN (cmRow g m0) (512 * k)) }
        (s.sampleRows g la.id ((List.range k).map (fun i => (cmRow g (m0 + i), cmRow g (m0 + i + 1)))) []).advance g n q)))
/-- rowst. -/
def execVRowst (g : CoreId) (n : GangId) (s : State) : Host.Outcome State Fault Refusal :=
  finish (s.vecStep g n .rowst (fun w q la s =>
    s.rowXfer g n w q (fun r0 m0 k s =>
      if s.lockedMem (cmRow g m0) (512 * k) then s.setGang g n { q with wait := .lock }
      else if s.bufs.hurt (stageBuf g + 512 * r0) (512 * k) then
        (s.bufUnc g 1 0x53 (stageBuf g + 512 * r0)).vecFault g n 0x4C 0 (q.active w) 0
      else
        let s := s.corrBuf g (stageBuf g + 512 * r0) (512 * k)
        let s := { s with mem := s.mem.wrN (cmRow g m0) (s.bufs.rdN (stageBuf g + 512 * r0) (512 * k)) }
        let rows := (List.range k).map (fun i => (cmRow g (m0 + i), cmRow g (m0 + i + 1)))
        (s.sampleRows g la.id [] rows).advance g n q)))

/-- Whether the `k` rows of a ring slot at `d` answer core `g`: a fenced core, one in reset or a dark partition refuses them (R314, R491),
and what holds rows in the network holds these. Log: 141 (DESIGN CHOICE). -/
def State.ringReach (s : State) (g d k : Nat) (write : Bool) : Bool × State :=
  match s.nack g d with
  | some m => (false, if m == 3 then s.inc F.partRstStat_absorbed (s.ownerOf d) k else s.inc F.partNetErr_nacks (partOf g) k)
  | none => (!s.rowHeld g d (!write), s)

/-- A ring transfer (R146): the ring must be a core-memory ring of the active layout, the rows must fit the row stage and the slot,
and the slot is asked for under R178 and R179, behind the core's own fence not at all (R313); a slot claimed stays the gang's while its rows cannot be reached or are locked. Log: 23 (DEDUCED). -/
def State.ringXfer (s : State) (g n : Nat) (w : Nat) (q : Gang) (write : Bool) (run : Nat → Nat → Nat → State → State × Bool) : State :=
  let r0 := q.stageRow w
  let k := vCount w
  if q.active w == 0 then s.advance g n q
  else
    match s.ringDef (partOf g) (q.memRow w) with
    | none => s.vecFault g n 0x48 0 (q.active w) 0
    | some r =>
      if r.place == 2 then s.vecFault g n 0x48 0 (q.active w) 0
      else if 256 < r0 + k then s.vecFault g n 0x49 4 (q.active w) r0
      else if r.slotRows < k then s.vecFault g n 0x49 3 (q.active w) (q.memRow w)
      else if s.fenced g && s.ringCore r != some g then s.setGang g n { q with wait := .lock }
      else
        match s.ringAsk r write (.gang g n) (s.ftCore g) with
        | (.fault, s) => s.vecFault g n 0x4E (if write then 2 else 1) (q.active w) r0
        | (.wait, s) => s.setGang g n { q with wait := .ring }
        | (.slot i, s) =>
          let hold := fun (s : State) => (s.keepSlot r write (.gang g n) (s.ftCore g) i).setGang g n { q with wait := .lock }
          match s.ringRow r i 0 with
          | none => hold s
          | some d =>
            match s.ringReach g d k write with
            | (false, s) => hold s
            | (true, s) =>
              if (if write then s.lockedMem d (512 * k) else s.lockedBuf (stageBuf g + 512 * r0) (512 * k)) then hold s
              else
                match run r0 d k s with
                | (s, true) => (s.ringRelease r.part r.number i write).advance g n q
                | (s, false) => s

/-- ringrd. -/
def execVRingrd (g : CoreId) (n : GangId) (s : State) : Host.Outcome State Fault Refusal :=
  finish (s.vecStep g n .ringrd (fun w q la s =>
    (s.sampleKernel g la.id).ringXfer g n w q false (fun r0 d k s =>
      if s.mem.hurt d (512 * k) then ((s.engUnc g 1 0x54 (s.hurtRow d k)).vecFault g n 0x4C 0 (q.active w) 0, false)
      else
        let s := s.corr d (512 * k)
        ({ s with bufs := s.bufs.wrN (stageBuf g + 512 * r0) (s.mem.rdN d (512 * k)) }, true))))
/-- ringwr. -/
def execVRingwr (g : CoreId) (n : GangId) (s : State) : Host.Outcome State Fault Refusal :=
  finish (s.vecStep g n .ringwr (fun w q la s =>
    (s.sampleKernel g la.id).ringXfer g n w q true (fun r0 d k s =>
      if s.bufs.hurt (stageBuf g + 512 * r0) (512 * k) then
        ((s.bufUnc g 1 0x55 (stageBuf g + 512 * r0)).vecFault g n 0x4C 0 (q.active w) 0, false)
      else
        let s := s.corrBuf g (stageBuf g + 512 * r0) (512 * k)
        ({ s with mem := s.mem.wrN d (s.bufs.rdN (stageBuf g + 512 * r0) (512 * k)) }, true))))

/-! ## Scalar and mask (R148) -/

/-- Result of a salu operation. -/
def saluOf (op t a b : Nat) : Nat :=
  let m := 2 ^ intW t
  if op == 0 then (a + b) % m
  else if op == 1 then (a + m - b % m) % m
  else if op == 2 then a * b % m
  else if op == 3 then a &&& b
  else if op == 4 then a ||| b
  else if op == 5 then a ^^^ b
  else if op == 6 then a * 2 ^ shiftBy t b % m
  else if op == 7 then a / 2 ^ shiftBy t b
  else if op == 8 then sarOf t a b
  else if op == 9 then (if intVal t a ≤ intVal t b then a else b)
  else (if intVal t a ≤ intVal t b then b else a)

/-- salu. -/
def execVSalu (g : CoreId) (n : GangId) (s : State) : Host.Outcome State Fault Refusal :=
  finish (s.vecStep g n .salu (fun w q _ s =>
    s.advance g n (q.swrite (vWide (vType w)) (vD w) (saluOf (bits w 56 4) (vType w) (q.srcA w 0) (q.srcB w 0)))))
/-- scmp. -/
def execVScmp (g : CoreId) (n : GangId) (s : State) : Host.Outcome State Fault Refusal :=
  finish (s.vecStep g n .scmp (fun w q _ s =>
    s.advance g n (q.setSreg (vD w) (ofBool (intCond (bits w 56 3) (vType w) (q.srcA w 0) (q.srcB w 0))))))
/-- Result of a malu operation. -/
def maluOf (op a b : Nat) : Nat :=
  if op == 0 then a &&& b else if op == 1 then a ||| b else if op == 2 then a ^^^ b else if op == 3 then a &&& (0xFFFF - b)
  else if op == 4 then 0xFFFF - a else a
/-- malu. -/
def execVMalu (g : CoreId) (n : GangId) (s : State) : Host.Outcome State Fault Refusal :=
  finish (s.vecStep g n .malu (fun w q _ s =>
    s.advance g n (q.setMask (vD w) (maluOf (bits w 56 3) (q.mask (vA w)) (q.mask (vB w))))))
/-- mtos. -/
def execVMtos (g : CoreId) (n : GangId) (s : State) : Host.Outcome State Fault Refusal :=
  finish (s.vecStep g n .mtos (fun w q _ s =>
    let k := bits w 56 2
    let m := q.mask (vA w)
    let x := if k == 0 then m else if k == 1 then popCount 16 m else if k == 2 then (lowest 16 (fun i => bitAt m i)).getD 16
      else q.emask
    s.advance g n (q.setSreg (vD w) x)))
/-- stom. -/
def execVStom (g : CoreId) (n : GangId) (s : State) : Host.Outcome State Fault Refusal :=
  finish (s.vecStep g n .stom (fun w q _ s => s.advance g n (q.setMask (vD w) (bits (q.sreg (vA w)) 0 16))))

/-! ## Synchronisation (R101, R102, R149, R150) -/

/-- bar: the gang waits, whatever its execution mask. -/
def execVBar (g : CoreId) (n : GangId) (s : State) : Host.Outcome State Fault Refusal :=
  finish (s.vecStep g n .bar (fun _ q _ s => s.setGang g n { q with wait := .bar }))
/-- BARRIER_RELEASE: every gang of the launch that has not ended stands at the barrier; each goes on behind it (R101). -/
def execBarrierRelease (g : CoreId) (id : Nat) (s : State) : Host.Outcome State Fault Refusal :=
  let gs := s.liveGangs g id
  finish (if gs.all (fun e => e.2.wait == .bar) then gs.foldl (fun s e => s.advance g e.1 e.2) s else s)
/-- mwait: goes on at once when the mark has reached the value, and waits otherwise. -/
def execVMwait (g : CoreId) (n : GangId) (s : State) : Host.Outcome State Fault Refusal :=
  finish (s.vecStep g n .mwait (fun w q la s =>
    let s := s.sampleKernel g la.id
    let v := q.sread true (vSync w)
    if v ≤ s.mark (partOf g) (vMark w) then s.advance g n q else s.setGang g n { q with wait := .mark (vMark w) v }))
/-- MWAIT_SATISFIED: the awaited mark has reached the value (R228). -/
def execMwaitSatisfied (g : CoreId) (n : GangId) (s : State) : Host.Outcome State Fault Refusal :=
  finish (match s.gang g n with
    | some q =>
      (match q.wait with
       | .mark m v => if v ≤ s.mark (partOf g) m then s.advance g n q else s
       | _ => s)
    | none => s)
/-- msig: the add sets out behind the gang's earlier writes. -/
def execVMsig (g : CoreId) (n : GangId) (s : State) : Host.Outcome State Fault Refusal :=
  finish (s.vecStep g n .msig (fun w q la s =>
    let s := s.sampleKernel g la.id
    let a : MarkAdd := { part := partOf g, mark := vMark w, add := q.sread true (vSync w), stamp := s.ftCore g, src := unitEng g 1 }
    (s.advance g n q).signalNow (unitEng g 1) la.id a))
/-- fence: the gang's accesses are ordered; DEVICE and FABRIC invalidate the partition's remote-data cache (R191, R235). -/
def execVFence (g : CoreId) (n : GangId) (s : State) : Host.Outcome State Fault Refusal :=
  finish (s.vecStep g n .fence (fun w q _ s =>
    (if 4 ≤ vScope w then s.rdcInvalidate (partOf g) else s).advance g n q))

/-- The core's mover queue takes a posted command, when it holds fewer than 16; one in mode BENCH takes commands from its bench's queue
only (R224). Its list entry is the queue's HEAD. Log: 26 (DEDUCED). -/
def State.takePost (s : State) (g : Nat) (l : List Byte) : Option State :=
  let u := unitEng g 3
  let mq := s.q u
  if s.benchMode u || 16 ≤ mq.waiting.length then none
  else
    let e : Entry := { cmd := Cmd.ofBytes l, index := s.rd F.qHead_head u, tag := s.rd F.qCtrl_tag u, gen := mq.gen }
    some (s.setQ u { mq with waiting := mq.waiting ++ [e] })

/-- post (R124, R150): the bytes of the row stage as it issues; the gang stalls while the mover queue is full. -/
def execVPost (g : CoreId) (n : GangId) (s : State) : Host.Outcome State Fault Refusal :=
  finish (s.vecStep g n .post (fun w q _ s =>
    let a := vImm17 w + (if bitAt w 17 then q.sreg (vSync w) else 0)
    if q.emask == 0 then s.advance g n q
    else if 131008 < a then s.vecFault g n 0x49 1 q.emask a
    else if a % 64 != 0 then s.vecFault g n 0x49 2 q.emask a
    else if s.bufs.hurt (stageBuf g + a) 64 then (s.bufUnc g 1 0x84 (stageBuf g + a)).vecFault g n 0x4C 0 q.emask 0
    else
      let s := s.corrBuf g (stageBuf g + a) 64
      let l := s.bufs.rdN (stageBuf g + a) 64
      match s.takePost g l with
      | some s => s.advance g n q
      | none => s.setGang g n { q with wait := .post l }))
/-- POST_ACCEPTED: a stalled post completes when the mover queue holds a free entry. -/
def execPostAccepted (g : CoreId) (n : GangId) (s : State) : Host.Outcome State Fault Refusal :=
  finish (match s.gang g n with
    | some q =>
      (match q.wait with
       | .post l =>
         (match s.takePost g l with
          | some s => s.advance g n q
          | none => s)
       | _ => s)
    | none => s)
/-- rdft: local FT into a scalar pair. -/
def execVRdft (g : CoreId) (n : GangId) (s : State) : Host.Outcome State Fault Refusal :=
  finish (s.vecStep g n .rdft (fun w q _ s => s.advance g n (q.swrite true (vSync w) (s.ftCore g))))

/-! ## Launches, lines and the watchdog -/

/-- VLAUNCH. -/
def execVlaunch (g : CoreId) (s : State) : Host.Outcome State Fault Refusal := finish (s.vlaunchRun g)
/-- VPREFETCH. -/
def execVprefetch (g : CoreId) (s : State) : Host.Outcome State Fault Refusal := finish (s.prefetchRun g)
/-- ICACHE_FILL. -/
def execIcacheFill (g : CoreId) (k : Nat) (s : State) : Host.Outcome State Fault Refusal := finish (s.icacheFill g k)
/-- VEC_WATCHDOG (R112): a launch not complete 1,024 × watchdog ticks after its first instruction faults. -/
def execVecWatchdog (g : CoreId) (id : Nat) (s : State) : Host.Outcome State Fault Refusal :=
  finish (match s.launch g id with
    | none => s
    | some la => if s.runs g && s.overdue g la then s.launchLate g la else s)

end Sys2Proof.Machine
end

