-- ==== Sys2Proof/Machine/Update.lean ====
section
/-! DEFINITION. The update engine and the update-rule table (chapter 6): commits, adoption, checks and the recurrence. -/

namespace Sys2Proof.Machine

/-! ## Arithmetic (R47, R151 to R154) -/

/-- Product. -/
def uMul (a b : FVal) : Flush := flush32 (FVal.mul a b)
/-- Sum. -/
def uAdd (a b : FVal) : Flush := flush32 (FVal.add a b)
/-- Difference. -/
def uSub (a b : FVal) : Flush := flush32 (FVal.sub a b)
/-- Quotient. -/
def uDiv (a b : FVal) : Flush := flush32 (FVal.div a b)
/-- Square root. -/
def uSqrt (a : FVal) : Flush := flush32 (FVal.sqrt a)

/-- The value one. -/
def fOne : FVal := .fin false 1 0

/-- sgn (R152). -/
def uSgn (x : FVal) : FVal :=
  match x with
  | .nan => .nan
  | .inf n => .fin n 1 0
  | .fin n m _ => if m == 0 then FVal.zero else .fin n 1 0

/-- A form of the gradient (Table 6-1). -/
def uForm (f : Nat) (g : FVal) : Flush :=
  if f == 0 then ⟨g, false⟩ else if f == 1 then ⟨uSgn g, false⟩ else if f == 2 then uMul g g else ⟨FVal.zero, false⟩

/-- `a` to the power `t` by square and multiply over bits `n - 1` down to 0 (R154). -/
def uPow (a : FVal) (t : Nat) : Nat → FVal → FVal
  | 0, pw => pw
  | n + 1, pw =>
    let pw := (uMul pw pw).v
    uPow a t n (if bitAt t n then (uMul pw a).v else pw)

/-- The denominator of a bias factor. -/
def biasD (a : FVal) (t : Nat) : FVal := (uSub fOne (uPow a t 32 fOne)).v
/-- A bias factor: 1.0 when not enabled. Log: 146 (DESIGN CHOICE). -/
def biasFactor (on : Bool) (a : FVal) (t : Nat) : FVal := if on then (uDiv fOne (biasD a t)).v else fOne
/-- An enabled factor is refused: its denominator is zero, or the factor is not finite. -/
def biasBad (on : Bool) (a : FVal) (t : Nat) : Bool :=
  on && ((biasD a t).isZero || (match biasFactor on a t with
    | .fin _ _ _ => false
    | _ => true))

/-- The eight words of a row. -/
structure UpdRow where
  w0 : Nat
  w1 : Nat
  w2 : Nat
  w3 : Nat
  w4 : Nat
  w5 : Nat
  w6 : Nat
  w7 : Nat
  deriving DecidableEq, Repr

/-- Low FP32 of a word. -/
def loF (w : Nat) : FVal := f32 (bits w 0 32)
/-- High FP32 of a word. -/
def hiF (w : Nat) : FVal := f32 (bits w 32 32)
/-- A row from its words. -/
def UpdRow.ofWords (l : List Nat) : UpdRow :=
  let w := fun (k : Nat) => l.getD k 0
  { w0 := w 0, w1 := w 1, w2 := w 2, w3 := w 3, w4 := w 4, w5 := w 5, w6 := w 6, w7 := w 7 }
/-- Step number. -/
def UpdRow.t (r : UpdRow) : Nat := bits r.w5 0 32

/-! ## Commits (R156, R157) -/

/-- The registers of a live row. -/
def liveRegs : List RegName :=
  [.partUpdL0, .partUpdL1, .partUpdL2, .partUpdL3, .partUpdL4, .partUpdL5, .partUpdL6, .partUpdL7]

/-- Staged row `r` of partition `p`, with the factors and the valid bit that the live copy gets. -/
def State.stagedRow (s : State) (p r : Nat) : UpdRow :=
  let i := p * 16 + r
  let w5 := s.reg .partUpdS5 i
  let t := bits w5 0 32
  let c1b := biasFactor (bitAt w5 39) (loF (s.reg .partUpdS0 i)) t
  let c2b := biasFactor (bitAt w5 40) (loF (s.reg .partUpdS1 i)) t
  { w0 := s.reg .partUpdS0 i, w1 := s.reg .partUpdS1 i, w2 := s.reg .partUpdS2 i, w3 := s.reg .partUpdS3 i,
    w4 := s.reg .partUpdS4 i, w5 := w5, w6 := bits32 c1b + bits32 c2b * 2 ^ 32, w7 := 1 }

/-- Word `k` of a row. -/
def UpdRow.word (r : UpdRow) (k : Nat) : Nat := [r.w0, r.w1, r.w2, r.w3, r.w4, r.w5, r.w6, r.w7].getD k 0

/-- Why a staged row fails its commit: 1 T_ZERO, 2 CODE, 3 BIAS_RANGE, 0 none. -/
def rowFault (r : UpdRow) : Nat :=
  if r.t == 0 then 1
  else if bits r.w5 36 2 == 3 then 2
  else if biasBad (bitAt r.w5 39) (loF r.w0) r.t || biasBad (bitAt r.w5 40) (loF r.w1) r.t then 3
  else 0

/-- Rows named by a mask, in increasing order. -/
def rowsOf (mask : Nat) : List Nat := (List.range 16).filter (fun r => bitAt mask r)

/-- A go write to PART_UPD_COMMIT (R156); with `pending` set it has no effect. Log: 28 (DEDUCED). -/
def State.commitGo (s : State) (p : Nat) : State :=
  let rows := s.rd F.partUpdCommit_rows p
  let s := s.wr F.partUpdCommit_go p 1
  match (rowsOf rows).find? (fun r => rowFault (s.stagedRow p r) != 0) with
  | some r =>
    let s := s.wr F.partUpdCommit_status p (rowFault (s.stagedRow p r))
    let s := s.wr F.partUpdCommit_badRow p r
    s.wr F.partUpdCommit_go p 0
  | none =>
    if rows == 0 then (s.wr F.partUpdCommit_status p 4).wr F.partUpdCommit_go p 0
    else
      let words := (rowsOf rows).flatMap (fun r => (List.range 8).map (fun k => (8 * r + k, (s.stagedRow p r).word k)))
      let pend : UpdPend :=
        { rows := rows, words := words, markEn := s.flag F.partUpdCommit_markEn p, mark := s.rd F.partUpdCommit_mark p }
      let s := (s.wr F.partUpdCommit_status p 0).wr F.partUpdCommit_pending p 1
      { s with updPend := mput s.updPend p pend }

/-- A write to PART_UPD_COMMIT: the fields, and a commit when go is written and none is pending. Log: 93 (DEDUCED). -/
def State.commitWrite (s : State) (p v : Nat) : State :=
  let was := s.flag F.partUpdCommit_pending p
  let go := s.rd F.partUpdCommit_go p
  let s := (s.softWr .partUpdCommit p v).wr F.partUpdCommit_go p go
  if bitAt v 16 && !was then s.commitGo p else s

/-- Word `k` of live row `r` as core `g` has adopted it (R157). -/
def State.liveWord (s : State) (g r k : Nat) : Nat :=
  let p := partOf g
  let now := s.reg (liveRegs.getD k .partUpdL0) (p * 16 + r)
  match mget s.upd p with
  | some b => if b.waiting.contains g && bitAt b.rows r then mgetD b.old (8 * r + k) now else now
  | none => now

/-- Words of live row `r` as core `g` has adopted it. -/
def State.liveWords (s : State) (g r : Nat) : List Nat := (List.range 8).map (s.liveWord g r)
/-- Live row `r` as core `g` has adopted it. -/
def State.liveRow (s : State) (g r : Nat) : UpdRow := UpdRow.ofWords (s.liveWords g r)

/-- Cores of partition `p` a commit and an invalidation wait for: not retired, fenced, in reset, switched off or dark. -/
def State.awaited (s : State) (p : Nat) : List Nat :=
  ((List.range 576).map (fun n => 576 * p + n)).filter (fun g => s.alive g)

/-- The pending commit of partition `p` takes effect once commit_ft is 0 or reached (R157). Log: 27 (DEDUCED). -/
def State.commitFt (s : State) (p : Nat) : State :=
  match mget s.updPend p with
  | none => s
  | some c =>
    let at_ := s.rd F.partUpdCommitFt_commitFt p
    if at_ != 0 && s.ftPart p < at_ then s
    else
      let old := c.words.map (fun e => (e.1, s.reg (liveRegs.getD (e.1 % 8) .partUpdL0) (p * 16 + e.1 / 8)))
      let b : UpdBcast := { rows := c.rows, old := old, waiting := s.awaited p, markEn := c.markEn, mark := c.mark }
      let s := c.words.foldl (fun s e => s.setReg (liveRegs.getD (e.1 % 8) .partUpdL0) (p * 16 + e.1 / 8) e.2) s
      { s with updPend := mdel s.updPend p, upd := mput s.upd p b }

/-- No update command of core `g` is in execution. -/
def State.updIdle (s : State) (g : Nat) : Bool := (s.q (unitEng g 2)).started.all (fun x => x.done.isSome)

/-- Core `g` adopts the live rows. -/
def State.rowAdopt (s : State) (g : Nat) : State :=
  let p := partOf g
  match mget s.upd p with
  | none => s
  | some b =>
    if s.updIdle g then { s with upd := mput s.upd p { b with waiting := b.waiting.filter (fun h => h != g) } } else s

/-- The commit of partition `p` ends once every core waited for has adopted the rows. -/
def State.commitEnd (s : State) (p : Nat) : State :=
  match mget s.upd p with
  | none => s
  | some b =>
    if b.waiting.any (fun g => s.alive g) then s
    else
      let s := (s.wr F.partUpdCommit_pending p 0).wr F.partUpdCommit_go p 0
      let s := { s with upd := mdel s.upd p }
      if b.markEn then s.sendAdd { part := p, mark := b.mark, add := 1, stamp := s.ftPart p, src := unitPart p } else s

/-! ## The UPD command (R159 to R166) -/

/-- The UPD body (Table 6-6). -/
structure UpdCmd where
  rule : Nat
  pPair : Bool
  sBf : Bool
  gFmt : Nat
  nstate : Nat
  freeze : Nat
  imm : Bool
  count : Nat
  hdr : Nat
  p : Nat
  s1 : Nat
  s2 : Nat
  g : Nat
  frz : Nat
  fresh : Nat
  freshBit : Nat
  step : Nat
  deriving DecidableEq, Repr

/-- Read the UPD body. -/
def UpdCmd.of (c : Cmd) : UpdCmd :=
  { rule := bits c.w4 0 4, pPair := bitAt c.w4 4, sBf := bitAt c.w4 5, gFmt := bits c.w4 6 2, nstate := bits c.w4 8 2,
    freeze := bits c.w4 10 2, imm := bitAt c.w4 12, count := bits c.w4 16 11, hdr := bits c.w4 32 12,
    p := bits c.w5 0 12, s1 := bits c.w5 12 12, s2 := bits c.w5 24 12, g := bits c.w5 36 12, frz := bits c.w5 48 12,
    fresh := bits c.w6 0 12, freshBit := bits c.w6 12 12, step := bits c.w7 0 32 }

/-- Rows of the states. -/
def UpdCmd.sRows (u : UpdCmd) : Nat := if u.sBf then ceilDiv u.count 2 else u.count
/-- Rows of the gradient. -/
def UpdCmd.gRows (u : UpdCmd) : Nat := if u.gFmt == 1 then u.count else if u.gFmt == 0 then ceilDiv u.count 2 else ceilDiv u.count 16
/-- Row ranges the command writes. -/
def UpdCmd.writes (u : UpdCmd) : List (Nat × Nat) :=
  [(u.p, u.count)] ++ (if 1 ≤ u.nstate then [(u.s1, u.sRows), (u.fresh, 1)] else []) ++ (if u.nstate == 2 then [(u.s2, u.sRows)] else [])
/-- Row ranges it only reads. -/
def UpdCmd.reads (u : UpdCmd) : List (Nat × Nat) :=
  [(u.g, u.gRows)] ++ (if u.freeze != 0 then [(u.frz, ceilDiv u.count 32)] else []) ++ (if u.imm then [] else [(u.hdr, 1)])

/-- Whether any two ranges of a list overlap. -/
def selfOverlap : List (Nat × Nat) → Bool
  | [] => false
  | a :: r => r.any (fun b => overlaps a.1 a.2 b.1 b.2) || selfOverlap r

/-- Checks 0x50 and 0x52 (R165). -/
def updCheck (c : Cmd) : Nat :=
  let u := UpdCmd.of c
  if bits c.w4 13 3 != 0 || bits c.w4 27 5 != 0 || bits c.w4 44 20 != 0 || bits c.w5 60 4 != 0 || bits c.w6 24 40 != 0
     || bits c.w7 32 32 != 0 || u.gFmt == 3 || u.nstate == 3 || u.freeze == 3 || u.count == 0 || decide (1024 < u.count)
     || (u.imm && u.hdr != 0) || (!u.imm && u.step != 0)
     || (u.nstate == 0 && (u.sBf || u.s1 != 0 || u.fresh != 0 || u.freshBit != 0))
     || (decide (u.nstate ≤ 1) && u.s2 != 0) || (u.freeze == 0 && u.frz != 0) then 0x50
  else if (u.writes ++ u.reads).any (fun r => decide (3072 < r.1 + r.2)) || decide (4096 < u.freshBit + u.count)
     || selfOverlap u.writes
     || u.writes.any (fun a => u.reads.any (fun b => overlaps a.1 a.2 b.1 b.2)) then 0x52
  else 0

/-- Step number of a command: bytes 8 to 11 of its header row, or step_imm (R164). -/
def State.updStep (s : State) (g : Nat) (u : UpdCmd) : Nat := if u.imm then u.step else s.mem.rdLE (cmRow g u.hdr + 8) 4

/-- Bits of element `i` of group `j` of the gradient (Table 6-7, R160). -/
def State.updG (s : State) (g : Nat) (u : UpdCmd) (j i : Nat) : FVal :=
  if u.gFmt == 1 then f32 (s.mem.rdLE (cmRow g (u.g + j) + 4 * i) 4)
  else if u.gFmt == 0 then Fmt.bf16.decode (s.mem.rdLE (cmRow g (u.g + j / 2) + 256 * (j % 2) + 2 * i) 2)
  else
    let w := s.mem.rdLE (cmRow g (u.g + j / 16) + 32 * (j % 16) + 4 * (i / 16)) 4
    let k := bits w (2 * (i % 16)) 2
    if k == 1 then fOne else if k == 3 then fOne.negate else FVal.zero

/-- Address of element `i` of group `j` of a state. -/
def sAddr (g : Nat) (u : UpdCmd) (row j i : Nat) : Nat :=
  if u.sBf then cmRow g (row + j / 2) + 256 * (j % 2) + 2 * i else cmRow g (row + j) + 4 * i

/-- Bytes of a state element. -/
def UpdCmd.sBytes (u : UpdCmd) : Nat := if u.sBf then 2 else 4

/-- A state element's bits: zero while the group is fresh (R163). -/
def State.updS (s : State) (g : Nat) (u : UpdCmd) (row j i : Nat) (fresh : Bool) : Nat :=
  if fresh then 0 else s.mem.rdLE (sAddr g u row j i) u.sBytes

/-- Value of a state element. -/
def UpdCmd.sVal (u : UpdCmd) (w : Nat) : FVal := if u.sBf then Fmt.bf16.decode w else f32 w

/-- Value of a parameter word: FP32, or hi + lo rounded to nearest even (R160). -/
def UpdCmd.pVal (u : UpdCmd) (w : Nat) : FVal :=
  if u.pPair then f32 (Fmt.fp32.ieee (FVal.add (Fmt.bf16.decode (bits w 16 16)) (Fmt.bf16.decode (bits w 0 16)))) else f32 w

/-- The split of a stored parameter and what it clamps (R53, R161). -/
def splitStore (v : FVal) : Conv :=
  match v with
  | .nan => { w := Fmt.bf16.nanBits * 2 ^ 16 }
  | .inf n => { w := Fmt.bf16.maxBits n * 2 ^ 16, sat := 1 }
  | .fin n m e =>
    let hi := Fmt.bf16.convert false (.fin n m e)
    let lo := Fmt.bf16.convert false (FVal.sub (.fin n m e) (Fmt.bf16.decode hi.w))
    { w := hi.w * 2 ^ 16 + lo.w, sat := hi.sat + lo.sat }

/-- What one element becomes: its words, and what it counts. -/
structure UpdOut where
  p : Nat
  s1 : Nat
  s2 : Nat
  n : Counts := {}
  pBad : Bool := false
  sBad : Bool := false
  frozen : Bool := false
  deriving DecidableEq, Repr

/-- A result that is NaN or infinite. -/
def FVal.nonfinite (v : FVal) : Bool := v.isNan || v.isInf

/-- Flushes of a list of operations. -/
def flushes (l : List Flush) : Nat := (l.filter (fun f => f.flushed)).length

/-- One element under the recurrence of R151, with freeze (R162) and storage (R161); `pw`, `w1`, `w2` are the words read. -/
def updElem (u : UpdCmd) (r : UpdRow) (frozen : Bool) (pw w1 w2 : Nat) (g : FVal) : UpdOut :=
  if frozen && u.freeze == 1 then { p := pw, s1 := w1, s2 := w2, frozen := true }
  else
    let s1 := if 1 ≤ u.nstate then u.sVal w1 else FVal.zero
    let s2 := if u.nstate == 2 then u.sVal w2 else FVal.zero
    let p := u.pVal pw
    let x1 := uForm (bits r.w5 32 2) g
    let x2 := uForm (bits r.w5 34 2) g
    let m1 := uMul (loF r.w0) s1
    let m2 := uMul (hiF r.w0) x1.v
    let s1n := uAdd m1.v m2.v
    let m3 := uMul (loF r.w1) s2
    let m4 := uMul (hiF r.w1) x2.v
    let s2n := uAdd m3.v m4.v
    let st := fun (v : FVal) => if u.sBf then Fmt.bf16.convert false v else { w := bits32 v }
    let c1 := st s1n.v
    let c2 := st s2n.v
    let sCount := (if 1 ≤ u.nstate then c1.sat else 0) + (if u.nstate == 2 then c2.sat else 0)
    let sBad := (decide (1 ≤ u.nstate) && s1n.v.nonfinite) || (u.nstate == 2 && s2n.v.nonfinite)
    let n1 := flushes [x1, x2, m1, m2, s1n, m3, m4, s2n]
    if frozen then
      { p := pw, s1 := c1.w, s2 := c2.w, n := { updFtz := n1, sat := sCount }, frozen := true }
    else
      let v1 := uMul (loF r.w2) (if bitAt r.w5 38 then s1 else s1n.v)
      let v2 := uMul (hiF r.w2) x1.v
      let v := uAdd v1.v v2.v
      let m := uMul v.v (loF r.w6)
      let phi := bits r.w5 36 2
      let (dir, nd) : FVal × Nat :=
        if phi == 0 then (m.v, 0)
        else if phi == 1 then (uSgn m.v, 0)
        else
          let a := uMul s2n.v (hiF r.w6)
          let b := uSqrt a.v
          let d := uAdd b.v (loF r.w3)
          let q := uDiv m.v d.v
          (q.v, flushes [a, b, d, q])
      let k := uMul (loF r.w4) dir
      let l := uMul (hiF r.w3) p
      let t := uAdd k.v l.v
      let e := uMul (hiF r.w4) t.v
      let pn := uSub p e.v
      let pc := if u.pPair then splitStore pn.v else { w := bits32 pn.v }
      { p := pc.w, s1 := c1.w, s2 := c2.w,
        n := { updFtz := n1 + nd + flushes [v1, v2, v, m, k, l, t, e, pn], sat := sCount + pc.sat },
        pBad := pn.v.nonfinite, sBad := sBad }

/-- The fresh bit of a group. -/
def State.freshOf (s : State) (g : Nat) (u : UpdCmd) (j : Nat) : Bool :=
  decide (1 ≤ u.nstate) && bitAt (s.mem.rd (cmRow g u.fresh + (u.freshBit + j) / 8)).toNat ((u.freshBit + j) % 8)

/-- The freeze bit of an element. -/
def State.frozenOf (s : State) (g : Nat) (u : UpdCmd) (j i : Nat) : Bool :=
  u.freeze != 0 && bitAt (s.mem.rd (cmRow g (u.frz + j / 32) + 16 * (j % 32) + i / 8)).toNat (i % 8)

/-- Rows the command reads for group `j`. -/
def UpdCmd.groupRows (u : UpdCmd) (j : Nat) : List Nat :=
  let sr := fun (r : Nat) => r + (if u.sBf then j / 2 else j)
  [u.p + j, u.g + (if u.gFmt == 1 then j else if u.gFmt == 0 then j / 2 else j / 16)]
  ++ (if 1 ≤ u.nstate then [sr u.s1, u.fresh] else []) ++ (if u.nstate == 2 then [sr u.s2] else [])
  ++ (if u.freeze != 0 then [u.frz + j / 32] else [])

/-- One group: its elements from the rows as they stand, then its row writes, each of a whole row (R171), with the fresh bit cleared where the states are
stored (R163). -/
def State.updGroup (s : State) (g : Nat) (u : UpdCmd) (r : UpdRow) (j : Nat) : State :=
  let fresh := s.freshOf g u j
  let outs : List UpdOut := (List.range 128).map (fun i =>
    updElem u r (s.frozenOf g u j i) (s.mem.rdLE (cmRow g (u.p + j) + 4 * i) 4) (s.updS g u u.s1 j i fresh)
      (s.updS g u u.s2 j i fresh) (s.updG g u j i))
  let m := s.mem.wrN (cmRow g (u.p + j)) (outs.flatMap (fun (o : UpdOut) => leBytes 4 o.p))
  let put := fun (m : Store) (row : Nat) (l : List Byte) =>
    (m.wrN (sAddr g u row j 0) l).clean (cmRow g (row + (if u.sBf then j / 2 else j))) 512
  let m := if 1 ≤ u.nstate then put m u.s1 (outs.flatMap (fun (o : UpdOut) => leBytes u.sBytes o.s1)) else m
  let m := if u.nstate == 2 then put m u.s2 (outs.flatMap (fun (o : UpdOut) => leBytes u.sBytes o.s2)) else m
  let m := if fresh then
      let a := cmRow g u.fresh + (u.freshBit + j) / 8
      (m.wr a (BitVec.ofNat 8 (putBits (m.rd a).toNat ((u.freshBit + j) % 8) 1 0))).clean (cmRow g u.fresh) 512
    else m
  let s := ({ s with mem := m }).counts g (Counts.sum (outs.map UpdOut.n))
  let s := s.arithBit g F.coreUpdSticky_pNonfinite (outs.any UpdOut.pBad)
  let s := s.arithBit g F.coreUpdSticky_sNonfinite (outs.any UpdOut.sBad)
  let fz := (outs.filter UpdOut.frozen).length
  (s.incUnit F.coreUpdAct_elemK g 1024 (128 - fz)).incUnit F.coreUpdAct_frozenK g 1024 fz

/-- The reads of the first `n` groups: errors they correct are counted (R195), and waits for memory banks and for the load-step notice
(R167). Log: 148 (DESIGN CHOICE). -/
def State.updReads (s : State) (g : Nat) (u : UpdCmd) (n : Nat) : State :=
  let s := s.countWait g F.coreUpdStall_noticeWait 256
  let s := s.fresh.2.inc F.coreUpdStall_bankWait g s.fresh.1
  ((List.range n).flatMap u.groupRows).eraseDups.foldl (fun s k => s.corr (cmRow g k) 512) s

/-- UPD executes with the row it read at its start (R158), group by group; at an uncorrectable error the groups before it stand and the command faults (R166). Log: 12 (DEDUCED). -/
def State.updRun (s : State) (g : Nat) : State :=
  let q := unitEng g 2
  match s.oldest q 0x60 with
  | none => s
  | some x =>
    let u := UpdCmd.of x.e.cmd
    let r := UpdRow.ofWords x.prog.words
    if !s.runs g || u.writes.any (fun w => s.lockedMem (cmRow g w.1) (512 * w.2)) then s
    else
      match lowest u.count (fun j => (u.groupRows j).any (fun k => s.cmHurt g k)) with
      | some j =>
        let s := loop j (fun i s => s.updGroup g u r i) (s.updReads g u j)
        let bad := ((u.groupRows j).find? (fun k => s.cmHurt g k)).getD u.p
        let s := s.engUnc g 2 0x60 (cmRow g bad)
        let s := s.wr F.coreUpdErr_faultGroup g j
        s.opFail q x 0x58 0
      | none => (loop u.count (fun i s => s.updGroup g u r i) (s.updReads g u u.count)).opDone q x.id

/-- UPD_COMMIT_GO: a write to PART_UPD_COMMIT. -/
def execUpdCommitGo (f : Func) (p : PartId) (v : Word64) (s : State) : Host.Outcome State Fault Refusal :=
  finish (s.host f .partUpdCommit p true (fun s => s.commitWrite p v.toNat))
/-- UPD_COMMIT_FT. -/
def execUpdCommitFt (p : PartId) (s : State) : Host.Outcome State Fault Refusal := finish (s.commitFt p)
/-- ROW_ADOPT. -/
def execRowAdopt (g : CoreId) (s : State) : Host.Outcome State Fault Refusal := finish (s.rowAdopt g)
/-- UPD_COMMIT_COMPLETE. -/
def execUpdCommitComplete (p : PartId) (s : State) : Host.Outcome State Fault Refusal := finish (s.commitEnd p)
/-- UPD. -/
def execUpd (g : CoreId) (s : State) : Host.Outcome State Fault Refusal := finish (s.updRun g)

end Sys2Proof.Machine
end

