-- ==== Sys2Proof/Machine/Assay.lean ====
section
/-! DEFINITION. Assay, canaries and the fault log (chapter 17): sampling, witnesses, captures, verdicts, canary runs, the
retirement record and the fault log in flash. -/

namespace Sys2Proof.Machine

/-! ## Witnesses (R454 to R456) -/

/-- The Assay policy in force: the active layout's, or the one of R260. -/
def State.policy (s : State) : AssayPol := (s.active.map (·.assay)).getD {}

/-- All four queues of core `g` are idle. -/
def State.coreQuiet (s : State) (g : Nat) : Bool := (List.range 4).all (fun e => (s.q (unitEng g e)).quiet)

/-- Core `g` holds a bench index. -/
def State.indexed (s : State) (g : Nat) : Bool := (mget s.roles g).any (fun r => r.kind == 1)

/-- Core `g` is available (R454); `busy` says whether it serves already. -/
def State.available (s : State) (g : Nat) : Bool :=
  s.alive g && !s.indexed g && s.coreQuiet g && !s.flag F.coreId_witness g && !s.flag F.coreId_canary g

/-- Core `g` would be available but for a canary run that the device scheduled, which a need for a witness ends (R468). -/
def State.freeable (s : State) (g : Nat) : Bool :=
  s.alive g && !s.indexed g && s.coreQuiet g && !s.flag F.coreId_witness g
    && s.canaries.any (fun c => c.core == g && !c.byHost)

/-- Cores of core `g`'s partition. -/
def coresOf (p : Nat) : List Nat := (List.range 576).map (fun n => 576 * p + n)

/-- Free pillars of the bench of core `g`, in its partition. -/
def State.pillarCands (s : State) (g : Nat) : List Nat :=
  match mget s.roles g with
  | none => []
  | some r => (coresOf (partOf g)).filter (fun x => x != g && (mget s.roles x).any (fun y => y.kind == 2 && y.bench == r.bench))

/-- IDLE cores of the partition in clusters other than core `g`'s. -/
def State.idleCands (s : State) (g : Nat) : List Nat :=
  (coresOf (partOf g)).filter (fun x => cluOf x != cluOf g && (mget s.roles x).isNone)

/-- Of one kind of candidates, one outside the original's cluster is preferred, then the lowest number. Log: 112 (DEDUCED). -/
def preferOf (g : Nat) (l : List Nat) : Option Nat :=
  match l.find? (fun x => cluOf x != cluOf g) with
  | some x => some x
  | none => l.head?

/-- The core that R454 chooses for core `g` among those that meet `ok`. Log: 112 (DEDUCED). -/
def State.pickServer (s : State) (g : Nat) (ok : Nat → Bool) : Option Nat :=
  let pol := s.policy
  let pick := fun (l : List Nat) => preferOf g (l.filter ok)
  if pol.witness == 2 || s.active.isNone then pick (s.idleCands g)
  else
    match pick (s.pillarCands g) with
    | some x => some x
    | none => if pol.witness == 0 then pick (s.idleCands g) else none

/-- A server for core `g` among those that meet `ok`, not one of `no`: an available core, or one whose scheduled canary run ends for it
(R468). -/
def State.serverOf (s : State) (g : Nat) (no : List Nat) (ok : Nat → Bool) : Option Nat :=
  match s.pickServer g (fun x => s.available x && !no.contains x && ok x) with
  | some x => some x
  | none => s.pickServer g (fun x => s.freeable x && !no.contains x && ok x)

/-- A server for core `g`; during a roll one that has changed is preferred (R511). Log: 112 (DEDUCED). -/
def State.findServer (s : State) (g : Nat) (no : List Nat) : Option Nat :=
  match (match s.roll with
    | none => none
    | some r => s.serverOf g no (fun x => r.changed.contains x)) with
  | some x => some x
  | none => s.serverOf g no (fun _ => true)

/-- Service overwrites a core's buffers, accumulator file, row stage and core memory (R455). -/
def State.overwrite (s : State) (g : Nat) : State :=
  let n := s.freeCtr
  { s with mem := s.mem.forget (cmRow g 0) (cmRow (g + 1) 0) n, bufs := s.bufs.forget (g * 2 ^ 20) ((g + 1) * 2 ^ 20) (n + 1),
           freeCtr := n + 2 }

/-- Core `w` serves a duplicate or a repeat: counted, marked, its stores overwritten, its cluster at the original's point at least
(R456). -/
def State.serve (s : State) (w : Nat) : State :=
  let s := s.dropCanary w
  let s := ((s.inc F.coreAssayCnt2_served w).wr F.coreId_witness w 1).overwrite w
  s.select (cluIdx w)

/-! ## Sampling and capture (R453, R457, R458) -/

/-- Kind of an eligible command (R453). -/
def eligible (c : Cmd) : Option Nat :=
  if c.opcode == 0x20 then some 0
  else if c.opcode == 0x60 then some 1
  else if c.opcode == 0x40 && !bitAt c.w4 24 && !bitAt c.w4 23 then some 2
  else none

/-- Rows an update command reads, each once (Table 17-1). -/
def UpdCmd.readRows (u : UpdCmd) : List (Nat × Nat) :=
  u.reads ++ [(u.p, u.count)] ++ (if 1 ≤ u.nstate then [(u.s1, u.sRows), (u.fresh, 1)] else [])
    ++ (if u.nstate == 2 then [(u.s2, u.sRows)] else [])

/-- Rows of a list of ranges. -/
def rowCount (l : List (Nat × Nat)) : Nat := (l.map (·.2)).foldl (· + ·) 0

/-- Row ranges of a core's memory as addresses. -/
def rowAddrs (g : Nat) (l : List (Nat × Nat)) : List (Nat × Nat) := l.map (fun r => (cmRow g r.1, cmRow g (r.1 + r.2)))

/-- Accumulator tiles an MM writes, as addresses. -/
def MmCmd.tiles (m : MmCmd) (g : Nat) : Nat × Nat := (accWord g m.accTile 0, accWord g (m.accTile + m.w * m.mt * m.nt) 0)

/-- The capture of Table 17-1 that is known at the start: ranges of memory and of the private buffers. -/
def captureOf (g : Nat) (c : Cmd) (kind : Nat) : List (Nat × Nat) × List (Nat × Nat) :=
  if kind == 0 then
    let m := MmCmd.of c
    let units := [(abuf g + 256 * m.aTile, abuf g + 256 * (m.aTile + m.u * m.mt * m.kt)),
                  (bbuf g + 256 * m.bTile, bbuf g + 256 * (m.bTile + m.u * m.nt * m.kt))]
    let strips := if m.mx then [(abuf g + 16 * m.aScale, abuf g + 16 * m.aScale + 16 * m.nb * m.mt),
                                (bbuf g + 16 * m.bScale, bbuf g + 16 * m.bScale + 16 * m.nb * m.nt)] else []
    ([], units ++ strips ++ (if m.accInit then [] else [m.tiles g]))
  else if kind == 1 then (rowAddrs g (UpdCmd.of c).readRows, [])
  else ([], [(stageBuf g, stageBuf g + 0x20000)])

/-- The next value of the generator of core `g` (R453). Log: 111 (DESIGN CHOICE). -/
def State.drawNext (s : State) (g : Nat) : Nat × State :=
  let x := match mget s.genState g with
    | some v => Config.draw (BitVec.ofNat 32 v)
    | none => Config.drawSeed s.genSeed g
  (x.toNat, { s with genState := mput s.genState g x.toNat })

/-- Whether the command draws, and has drawn, a sample (R453). -/
def State.sampled (s : State) (g : Nat) (c : Cmd) : Option Nat × State :=
  match eligible c with
  | none => (none, s)
  | some k =>
    if !s.policy.enable then (none, s)
    else
      let (v, s) := s.drawNext g
      let n := if k == 2 then s.policy.kVec else s.policy.kCmd
      (if v % 2 ^ n == 0 then some k else none, s)

/-- A command `id` of core `g`, engine `e`, that starts is sampled or not; the answer says whether its start waits for the copy of a
capture (R453, R454, R457, R458). -/
def State.sample (s : State) (g e id : Nat) (en : Entry) : Bool × State :=
  match s.sampled g en.cmd with
  | (none, s) => (false, s)
  | (some k, s) =>
    let s := s.inc F.coreAssayCnt_sampled g
    match s.findServer g [g] with
    | none => (false, s.inc F.coreAssayCnt2_skipped g)
    | some w =>
      let (im, ib) := captureOf g en.cmd k
      let x : Sample := { core := g, eng := e, id := id, kind := k, witness := w, captured := s.ftCore g, since := s.ftCore g,
                          entry := en, inMem := im, inBuf := ib }
      let u := UpdCmd.of en.cmd
      if k == 1 && decide (3072 < rowCount u.readRows + 2 * rowCount u.writes) then
        (false, (s.assayLast x 6 1).inc F.coreAssayCnt2_abandoned g)
      else (true, { (s.serve w) with samples := s.samples ++ [x] }.select (cluIdx w))

/-- A sample by its core, engine and command. -/
def State.sampleOf (s : State) (g e id : Nat) : Option Sample := s.samples.find? (fun x => x.isOf (unitEng g e) id)

/-- Change a sample. -/
def State.modSample (s : State) (x : Sample) (f : Sample → Sample) : State :=
  { s with samples := s.samples.map (fun y => if y.isOf x.unit x.id then f y else y) }

/-- The capture has reached the witness: the original and the witness start (R457); a witness that met an error abandons. -/
def State.copyDone (s : State) (g e id : Nat) (err : Bool) : State :=
  match s.sampleOf g e id with
  | none => s
  | some x =>
    if x.phase != .copying then s
    else if err then s.abandon x 8
    else
      let s := s.modSample x (fun y => { y with phase := .running })
      s.modStarted x.unit x.id (fun y => { y with prog := { y.prog with ready := true } })

/-- The original of a sample has completed with OK: its results are locked and sent to the witness (R459). -/
def State.compareStart (s : State) (x : Sample) : State :=
  let g := x.core
  s.modSample x (fun y =>
    { y with phase := .comparing, since := s.ftCore g,
             lockMem := if x.kind == 1 then rowAddrs g (UpdCmd.of x.entry.cmd).writes else y.lockMem,
             lockBuf := if x.kind == 0 then [(MmCmd.of x.entry.cmd).tiles g]
                        else if x.kind == 2 then [(stageBuf g, stageBuf g + 0x20000)] else [] })

/-! ## Comparison and verdicts (R459 to R464) -/

/-- Mark signals of core `g` that waited for a sample are never sent (R462). -/
def State.dropHeld (s : State) (x : Sample) : State :=
  let q := s.q x.unit
  s.setQ x.unit { q with held := q.held.filter (fun h => !h.samples.contains x.id) }

/-- A mismatch (R462). -/
def State.mismatch (s : State) (x : Sample) (first n : Nat) : State :=
  let g := x.core
  let s := s.coreErr g 4 x.eng x.entry.cmd.opcode
  let s := (s.inc F.coreErrCount_mismatches g).inc F.coreAssayCnt2_mismatches g
  let s := s.dropHeld x
  let s := if s.roll.isSome then s.wr F.hfFwRoll_rollHalted 0 1 else s
  let s := loop 4 (fun e s =>
    let u := unitEng g e
    if e == x.eng then s.halt u 0x0A x.entry.cmd.opcode 0 x.entry.index x.entry.tag else s.haltBare u 0x0A 0) s
  let s := s.note (partOf g) x.unit 0x0600 (x.kind + x.witness * 2 ^ 16 + first * 2 ^ 32) 0
  let t := s.findServer g [g, x.witness]
  let s := s.modSample x (fun y => { y with phase := .repeating, since := s.ftCore g, firstDiff := first, diffs := n, third := t })
  match t with
  | none => s
  | some t => s.serve t

/-- The witness has compared (R459); its own error abandons the duplicate (Table 17-2). Log: 113 (DESIGN CHOICE). -/
def State.compareDone (s : State) (g e id : Nat) (out : AssayOut) : State :=
  match s.sampleOf g e id with
  | none => s
  | some x =>
    match out with
    | .witnessError => s.abandon x 8
    | .same =>
      if x.phase != .comparing then s
      else (((s.assayLast x 1 0).inc F.coreAssayCnt_passed g).endSample x).flushHeld x.unit
    | .differs first n => if x.phase != .comparing then s else s.mismatch x first n

/-- Fields fmt, mode and shape of a report (Table 17-7). Log: 115 (DEDUCED). -/
def reportFields (c : Cmd) (kind : Nat) : Nat × Nat × Nat :=
  if kind == 0 then
    let m := MmCmd.of c
    (m.aFmt + 256 * m.bFmt, m.mode, m.mt + m.nt * 2 ^ 7 + m.kt * 2 ^ 14)
  else if kind == 1 then
    let u := UpdCmd.of c
    (bits c.w4 4 4, u.rule, u.count)
  else (0, bits c.w4 17 6, bits c.w4 0 17)

/-- A report of cause ASSAY (R472, R473). -/
def State.assayReport (s : State) (x : Sample) (verdict : Nat) : State :=
  let (f, m, sh) := reportFields x.entry.cmd x.kind
  s.report 0x01 { s.blank x.unit with
    verdict := verdict, retireCause := if verdict == 3 then 1 else 0, global := x.core, engine := x.eng,
    opcode := x.entry.cmd.opcode, fmt := f, mode := m, shape := sh, witness := x.witness,
    third := x.third.getD 0xFFFF, detail := [x.captured, x.firstDiff, x.diffs] }

/-- The repeat has overwritten the command's inputs and results in the original's buffers and core memory (R462). Log: 113 (DESIGN CHOICE). -/
def State.repeatWrites (s : State) (x : Sample) : State :=
  let f := fun (st : Store) (n : Nat) (l : List (Nat × Nat)) => l.foldl (fun (st : Store) r => st.forget r.1 r.2 n) st
  { s with mem := f s.mem s.freeCtr (x.inMem ++ x.lockMem), bufs := f s.bufs (s.freeCtr + 1) (x.inBuf ++ x.lockBuf),
           freeCtr := s.freeCtr + 2 }

/-- A canary run starts on a core (R467). -/
def State.startCanary (s : State) (g : Nat) (byHost : Bool) : State :=
  { ((s.wr F.coreId_canary g 1).overwrite g) with canaries := s.canaries ++ [{ core := g, byHost := byHost }] }

/-- A verdict of Table 17-3 and its action. Log: 113 (DESIGN CHOICE), 161 (DESIGN CHOICE). -/
def State.verdict (s : State) (x : Sample) (v : Nat) : State :=
  let g := x.core
  let p := partOf g
  let s := (s.assayLast x v 0).repeatWrites x
  let s := s.assayReport x v
  let rep := s.reportCount
  let (f, s) := s.fresh
  let s := s.note p x.unit 0x0601 (v + x.kind * 2 ^ 8 + x.witness * 2 ^ 16 + (x.third.getD (f % 65536)) * 2 ^ 32) rep
  let s := s.endSample x
  if v == 2 then ((s.inc F.partAssayStat_transient p).coreErr g 5 x.eng x.entry.cmd.opcode).transient g
  else if v == 3 then ((s.inc F.partAssayStat_permanent p).coreErr g 6 x.eng x.entry.cmd.opcode).retire g 1 rep
  else if v == 4 then
    ((s.inc F.partAssayStat_witness p).coreErr x.witness 7 x.eng x.entry.cmd.opcode).startCanary x.witness true
  else s.inc F.partAssayStat_unresolved p

/-- Verdict of Table 17-3 from what the repeats equal: 0 the original result, 1 the witness result, 2 neither. Log: 114 (DEDUCED). -/
def verdictOf (o2 t : Nat) : Nat :=
  if o2 == 1 && t == 1 then 2 else if o2 == 0 && t == 1 then 3 else if o2 == 0 && t == 0 then 4 else 5

/-- The repeats are in (R463). Log: 114 (DEDUCED). -/
def State.verdictIn (s : State) (g e id o2 t : Nat) : State :=
  match s.sampleOf g e id with
  | none => s
  | some x => if x.phase != .repeating then s else s.verdict x (if x.third.isNone then 5 else verdictOf o2 t)

/-- The bound on a verdict in ticks (Table 17-12). -/
def State.assayWait (s : State) (p : Nat) : Nat := max 1 (s.rd F.partAssayCtrl_assayWait p)

/-- No verdict within the bound: from the original's completion the duplicate is abandoned, from the mismatch on the verdict is
UNRESOLVED (R461, R463). -/
def State.assayTimeout (s : State) (g e id : Nat) : State :=
  match s.sampleOf g e id with
  | none => s
  | some x =>
    if s.ftCore g < x.since + s.assayWait (partOf g) then s
    else if x.phase == .comparing then s.abandon x 3
    else if x.phase == .repeating then s.verdict x 5
    else s

/-! ## Canaries (R467 to R469) -/

/-- Ticks of 60 minutes. -/
def hourTicks : Nat := 3600000000000

/-- The device starts a canary run on the next available core of the cycle (R468). Log: 117 (DEDUCED). -/
def State.canarySchedule (s : State) : State :=
  let s := if 4608 ≤ s.canaryNext && decide (s.canaryCycle + hourTicks ≤ s.up) then { s with canaryNext := 0, canaryCycle := s.up } else s
  if !s.policy.canary || !s.ready then s
  else
    match (List.range (4608 - s.canaryNext)).find? (fun i => s.available (s.canaryNext + i)) with
    | none => { s with canaryNext := 4608 }
    | some i => { (s.startCanary (s.canaryNext + i) false) with canaryNext := s.canaryNext + i + 1 }

/-- CANARY_FAIL: sticky bit, count, tally and report; `how` is 0 transient, 1 confirmed (R469, R472). -/
def State.canaryFail (s : State) (g k how : Nat) : State :=
  let p := partOf g
  let s := (s.coreErr g 8 0 0).inc F.coreErrCount_canaryFails g
  let s := s.report 0x02 { s.blank (unitPart p) with global := g, retireCause := if how == 1 then 3 else 0, detail := [k] }
  s.note p (unitPart p) 0x0602 (g + k * 2 ^ 16 + how * 2 ^ 24) 0

/-- A first wrong answer runs the set again; a correct second run advances the transient count, a second wrong answer retires the core
with cause CANARY (R469). `bad` is the first command with a wrong answer. -/
def State.canaryResult (s : State) (g : Nat) (bad : Option Nat) : State :=
  match s.canaries.find? (fun c => c.core == g) with
  | none => s
  | some c =>
    match bad with
    | none =>
      let s := s.dropCanary g
      if c.rerun then (s.canaryFail g c.firstBad 0).transient g else s
    | some k =>
      if c.rerun then
        let s := (s.dropCanary g).canaryFail g k 1
        s.retire g 3 s.reportCount
      else
        { s with canaries := s.canaries.map (fun (y : Canary) => if y.core == g then { y with rerun := true, firstBad := k } else y) }

/-! ## Flash records (R466, R472, R475) -/

/-- HF_FAULT_LOG follows the log. -/
def State.logCounts (s : State) : State :=
  (s.wr F.hfFaultLog_held 0 s.log.length).wr F.hfFaultLog_fatalHeld 0 (s.log.filter (fun r => r.severity == 1)).length

/-- Take the first element that meets `p` out of a list. -/
def takeOut {α : Type} (p : α → Bool) : List α → Option (List α)
  | [] => none
  | x :: r => if p x then some r else (takeOut p r).map (x :: ·)

/-- Records the fault log holds. -/
def logMax : Nat := 8192

/-- A report enters the log (R475). -/
def State.logAdd (s : State) (r : Report) : State :=
  if s.log.length < logMax then { s with log := s.log ++ [r] }.logCounts
  else
    match takeOut (fun (x : Report) => x.severity == 2 || x.severity == 3) s.log with
    | some l => { s with log := l ++ [r] }.logCounts
    | none =>
      match takeOut (fun (x : Report) => x.severity == 0) s.log with
      | some l => { s with log := l ++ [r] }.logCounts
      | none => ((s.inc F.hfFaultLog_dropped 0).hfErr 3 0).noteAll unitFw 0x0604 (r.number % 2 ^ 32) 0

/-- Report `k` of those not yet in flash is written; a write that fails its check sets flash_err and the report stays. Log: 116 (DEDUCED). -/
def State.logFlash (s : State) (k : Nat) (ok : Bool) : State :=
  match s.reports[k]? with
  | none => s
  | some r => if !ok then s.hfErr 2 0 else { s with reports := dropNth s.reports k }.logAdd r

/-- Retirement `k` of those not yet in flash is added to the retirement record. Log: 116 (DEDUCED). -/
def State.retireWrite (s : State) (k : Nat) (ok : Bool) : State :=
  match s.retirePend[k]? with
  | none => s
  | some r =>
    if !ok then s.hfErr 2 0
    else { s with retirePend := dropNth s.retirePend k, retireFlash := s.retireFlash ++ [(r.1, r.2.1)] }

/-! ## Events -/

/-- CAPTURE_COPY_DONE. -/
def execCaptureCopyDone (g : CoreId) (e : Fin 4) (id : Nat) (err : Bool) (s : State) : Host.Outcome State Fault Refusal :=
  finish (s.copyDone g e id err)
/-- ASSAY_COMPARE_DONE. -/
def execAssayCompareDone (g : CoreId) (e : Fin 4) (id : Nat) (out : AssayOut) (s : State) : Host.Outcome State Fault Refusal :=
  finish (s.compareDone g e id out)
/-- ASSAY_VERDICT. -/
def execAssayVerdict (g : CoreId) (e : Fin 4) (id : Nat) (o2 t : Fin 3) (s : State) : Host.Outcome State Fault Refusal :=
  finish (s.verdictIn g e id o2 t)
/-- ASSAY_TIMEOUT. -/
def execAssayTimeout (g : CoreId) (e : Fin 4) (id : Nat) (s : State) : Host.Outcome State Fault Refusal :=
  finish (s.assayTimeout g e id)
/-- RETIREMENT_FLASH_WRITE. -/
def execRetirementFlashWrite (k : Nat) (ok : Bool) (s : State) : Host.Outcome State Fault Refusal := finish (s.retireWrite k ok)
/-- CANARY_SCHEDULE. -/
def execCanarySchedule (s : State) : Host.Outcome State Fault Refusal := finish s.canarySchedule
/-- CANARY_RESULT. -/
def execCanaryResult (g : CoreId) (bad : Option Nat) (s : State) : Host.Outcome State Fault Refusal := finish (s.canaryResult g bad)
/-- FAULT_LOG_FLASH_WRITE. -/
def execFaultLogFlashWrite (k : Nat) (ok : Bool) (s : State) : Host.Outcome State Fault Refusal := finish (s.logFlash k ok)

end Sys2Proof.Machine
end

