-- ==== Sys2Proof/Machine/Fw.lean ====
section
/-! DEFINITION. Firmware copies in flash (R497 to R502): headers, validity, manifests and consistent sets. A copy that nothing has
written is the one the module was delivered with. -/

namespace Sys2Proof.Machine

/-- Number of a copy: set 0 or 1, component 0 to 6. -/
def fwCopy (set comp : Nat) : Nat := set * 8 + comp
/-- Its first byte in the flash store. -/
def fwBase (set comp : Nat) : Nat := fwCopy set comp * 2 ^ 25
/-- The copy is the delivered one. Log: 121 (DEDUCED). -/
def State.fwDelivered (s : State) (set comp : Nat) : Bool := !s.fwWritten.contains (fwCopy set comp)
/-- Bytes of a copy. -/
def State.fwBytes (s : State) (set comp off n : Nat) : List Byte := s.fw.rdN (fwBase set comp + off) n
/-- A number in a copy. -/
def State.fwLE (s : State) (set comp off n : Nat) : Nat := leNat (s.fwBytes set comp off n)
/-- The set the boot pointer names. -/
def State.fwSet (s : State) : Nat := s.rd F.hfFwStatus_activeSet 0
/-- The staged set. -/
def State.fwOther (s : State) : Nat := 1 - s.flash.bootSet

/-- Largest body of a component (Table 19-1). -/
def fwMax (comp : Nat) : Nat := [4096, 16777216, 2097152, 262144, 1048576, 2097152, 524288].getD comp 0
/-- Version of a copy (Table 19-2); the delivered ones are version 0. -/
def State.fwVersion (s : State) (set comp : Nat) : Nat := if s.fwDelivered set comp then 0 else s.fwLE set comp 8 4
/-- Security version of a copy. -/
def State.fwSvn (s : State) (set comp : Nat) : Nat := if s.fwDelivered set comp then 0 else s.fwLE set comp 12 1
/-- Fused security version of a component (R500). -/
def State.fwFused (s : State) (comp : Nat) : Nat := s.flash.svn.getD comp 0
/-- SHA-384 of a copy's header. -/
def State.fwHash (s : State) (set comp : Nat) : List Nat :=
  if s.fwDelivered set comp then Config.factoryHash comp else (sha384 (s.fwBytes set comp 0 4096)).map (·.toNat)

/-- Bytes as numbers. -/
def nums (l : List Byte) : List Nat := l.map (·.toNat)

/-- The header fields of a written copy that have one right value or range (R498, Table 19-2). -/
def State.fwHeaderOk (s : State) (set comp : Nat) : Bool :=
  let zero_ := fun (off n : Nat) => (s.fwBytes set comp off n).all (· == 0)
  s.fwBytes set comp 0 4 == [0x44, 0x58, 0x46, 0x57] && s.fwLE set comp 4 2 == comp && s.fwLE set comp 6 2 == 1
  && decide (s.fwLE set comp 12 1 ≤ 64) && zero_ 13 3 && decide (s.fwLE set comp 16 4 ≤ fwMax comp) && zero_ 20 4
  && zero_ 225 31 && zero_ 2124 1972

/-- Result code of a copy's checks (R498, Table 19-4); 0 when it is valid. -/
def State.fwCheck (s : State) (set comp : Nat) : Nat :=
  if s.fwDelivered set comp then (if 0 < s.fwFused comp then 6 else 0)
  else
    let region := nums (s.fwBytes set comp 0 256)
    let ec := s.fwBytes set comp 72 97
    let lms := s.fwBytes set comp 169 56
    if !s.fwHeaderOk set comp then 1
    else if sha384 ec != Config.ecdsaKeyHash || sha256 lms != Config.lmsKeyHash then 2
    else if !Config.verify 5 (nums ec) region (nums (s.fwBytes set comp 256 96)) then 3
    else if !Config.verify 6 (nums lms) region (nums (s.fwBytes set comp 352 1772)) then 4
    else if sha384 (s.fwBytes set comp 4096 (s.fwLE set comp 16 4)) != s.fwBytes set comp 24 48 then 5
    else if s.fwSvn set comp < s.fwFused comp then 6
    else 0

/-- manifest_version of a set (R499). -/
def State.fwManifest (s : State) (set : Nat) : Nat := if s.fwDelivered set 0 then 0 else s.fwLE set 0 4096 4

/-- A component agrees with its set's manifest: the entry's number, version, svn and header hash (R499). -/
def State.fwListed (s : State) (set comp : Nat) : Bool :=
  if s.fwDelivered set 0 then
    s.fwVersion set comp == 0 && s.fwSvn set comp == 0 && s.fwHash set comp == Config.factoryHash comp
  else
    let e := 4096 + 64 * comp
    s.fwLE set 0 e 2 == comp && s.fwLE set 0 (e + 4) 4 == s.fwVersion set comp && s.fwLE set 0 (e + 8) 1 == s.fwSvn set comp
    && nums (s.fwBytes set 0 (e + 16) 48) == s.fwHash set comp

/-- Result code of component `comp` of a set, as FW_VERIFY gives it: its own check, then the manifest's (R499, R505). -/
def State.fwResult (s : State) (set comp : Nat) : Nat :=
  let c := s.fwCheck set comp
  if c != 0 then c
  else if comp == 0 then (if s.fwDelivered set 0 || s.fwLE set 0 4100 1 == 6 then 0 else 7)
  else if s.fwListed set comp then 0 else 7

/-- The first component of a set that fails, with its result; none for a consistent set (R499). Log: 126 (DEDUCED). -/
def State.fwFail (s : State) (set : Nat) : Option (Nat × Nat) :=
  ((List.range 7).map (fun c => (c, s.fwResult set c))).find? (fun e => e.2 != 0)

/-- Whether a set is consistent. -/
def State.fwOk (s : State) (set : Nat) : Bool := (s.fwFail set).isNone

/-- Number of the alias key: it changes with the Headframe firmware's header, which holds its svn, and only then (R516). -/
def State.aliasKey (s : State) : Nat :=
  if s.fwDelivered s.fwSet 1 then 0 else 1 + leNat (sha384 (s.fwBytes s.fwSet 1 0 4096))

end Sys2Proof.Machine
end

