-- ==== Sys2Proof/Machine/Boot.lean ====
section
/-! DEFINITION. Power-on, the boot sequence and the memory test (chapter 18, R482 to R487; R502, R512). -/

namespace Sys2Proof.Machine

/-! ## What a module reset and a loss of power leave (R492) -/

/-- The register of a key is sticky (R11). -/
def stickyKey (k : Nat) : Bool := ((allRegs[keyName k]?).map (fun r => r.info.dom)) == some .sticky

/-- Power-on seconds over the module's life (R445). -/
def State.onSecs (s : State) : Nat := s.onNs / 1000000000

/-- Energy counts since power-on or the last module reset: the module, B8, B0 to B7 (R444). Log: 105 (DEDUCED). -/
def State.energies (s : State) : List Nat :=
  [s.rd F.hfPwrEnergy_moduleUj 0, s.rd F.hfPwrEnergyCommon_b8Uj 0] ++ (List.range 8).map (fun p => s.rd F.partPwrEnergy_bankUj p)

/-- Lifetime totals (R445). Log: 105 (DEDUCED). -/
def State.lifeNow (s : State) : List Nat := s.lifeBase.zipWith (fun a b => (a + b) % 2 ^ 64) s.energies

/-- Nothing but flash, fuses, pins and, where `sticky` says so, sticky registers is left of the state; what the model itself counts goes on. An ageing cap (R285)
and the scrub's counts of power-on time (R199) last until power-off. -/
def State.cleared (s : State) (sticky : Bool) : State :=
  let r := State.reset
  { r with
    regs := if sticky then s.regs.filter (fun e => stickyKey e.1) else [],
    up := s.up, onAt := s.onAt, lifeBase := s.lifeNow, secBase := s.secBase, board := s.board, firstBoot := s.firstBoot, testDue := s.testDue, flash := s.flash,
    clu := (s.clu.map (fun e => (e.1, ({ trim := e.2.trim, ageing := if sticky then e.2.ageing else 7 } : Clu)))).filter (fun e => e.2 != {}),
    fuses := s.fuses, scrubHits := if sticky then s.scrubHits else [],
    reportCount := s.reportCount, reports := s.reports, log := s.log, retireFlash := s.retireFlash, retirePend := s.retirePend,
    softRepair := s.softRepair, transientTimes := s.transientTimes, fw := s.fw, fwWritten := s.fwWritten, fwFresh := s.fwFresh,
    mpRestart := s.mpRestart, signatures := s.signatures, mgmt := s.mgmt, sent := s.sent, nextId := s.nextId, freeCtr := s.freeCtr,
    genSeed := s.genSeed, pending := s.pending }

/-- What a module reset does not bring back (R424): working phases of converters, and partitions whose rails are off. Log: 107 (DEDUCED). -/
def State.keepRails (old s : State) : State :=
  let s := s.wr F.hfPwrPart_dark 0 (old.rd F.hfPwrPart_dark 0)
  let s := s.wr F.hfPwrPart_cause 0 (old.rd F.hfPwrPart_cause 0)
  let s := loop 8 (fun p s => s.wr F.partPwrBank_phasesOk p (old.rd F.partPwrBank_phasesOk p)) s
  let s := loop 48 (fun z s => s.wr F.partPwrZone_phases z (old.rd F.partPwrZone_phases z)) s
  let s := loop 288 (fun c s => if bitAt (old.rd F.hfPwrPart_dark 0) (c / 36) then s.wr F.partPwrClu_state c 3 else s) s
  let d := old.rd F.hfPwrPart_dark 0
  { s with net := { s.net with dark := d }, netWant := { s.netWant with dark := d } }

/-- What a module reset leaves: flash, fuses, pins, sticky registers and the state of the rails; a running mailbox command has ended with
ABORTED (R418). -/
def State.moduleLost (s : State) : State :=
  let aborted := s.flag F.hfMboxStatus_busy 0 || (s.rd F.hfMboxStatus_status 0 == 6 && s.stage == 0)
  let s := s.keepRails (s.cleared true)
  if aborted then s.wr F.hfMboxStatus_status 0 6 else s

/-- HF_BOOT_TEST shows the flash setting (R485). -/
def State.bootTestShow (s : State) : State :=
  let now := s.onSecs
  let since := match s.flash.fullAt with
    | none => 2 ^ 32 - 1
    | some t => min (now - t) (2 ^ 32 - 1)
  (s.wr F.hfBootTest_nextQuick 0 (ofBool s.flash.quick)).wr F.hfBootTest_sinceFull 0 since

/-! ### Repair (R199, R200) -/

/-- Unit whose spares a row at address `d` uses (R200): core memory of core `u`, shared-memory slice `u - 4608`, or stack `u - 5760`. -/
def State.repairUnit (s : State) (d : Nat) : Nat :=
  if d < hbmEnd then 5760 + s.stackOf d else if d < cmBase then 4608 + (d - smBase) / smSlice else (d - cmBase) / cmCore
/-- Unit of a row of the host's address space; none for a row that reaches no memory. -/
def State.rowUnit (s : State) (row : Nat) : Option Nat := (s.resolve (512 * row)).map s.repairUnit
/-- Spares of a unit: 64 rows of a core, 4,096 half-rows of a slice; those of a stack's banks are not stated (R200). -/
def unitSpares (u : Nat) : Option Nat := if u < 4608 then some 64 else if u < 5760 then some 4096 else none
/-- Every entry in the order it is applied: the fuse map, then the soft-repair table (R199). -/
def State.repairRows (s : State) : List Nat := s.fuses.rows ++ s.softRepair.map (·.1)
/-- Spares that entries use up in unit `u`: one each (R200). Log: 144 (DEDUCED). -/
def State.sparesUsed (s : State) (u : Nat) : Nat := (s.repairRows.filter (fun r => s.rowUnit r == some u)).length
/-- Spares left in unit `u`. -/
def State.sparesLeft (s : State) (u : Nat) : Nat := (unitSpares u).getD 0 - s.sparesUsed u
/-- The unit of a list with the fewest spares left, the first of several, and how many. Log: 144 (DEDUCED). -/
def State.fewest (s : State) (us : List Nat) : Nat × Nat :=
  match us with
  | [] => (0, 0)
  | u :: r => r.foldl (fun m x => if s.sparesLeft x < m.2 then (x, s.sparesLeft x) else m) (u, s.sparesLeft u)
/-- PART_MEM_REPAIR of every partition as the entries leave it (Table 7-15). Log: 144 (DEDUCED). -/
def State.repairShow (s : State) : State :=
  loop 8 (fun p s =>
    let sm := s.fewest ((List.range 144).map (fun i => 4608 + 144 * p + i))
    let cm := s.fewest ((List.range 576).map (fun n => 576 * p + n))
    let s := (s.wr F.partMemRepair_smSpareMin p sm.2).wr F.partMemRepair_smWorstSlice p (sm.1 - 4608 - 144 * p)
    (s.wr F.partMemRepair_cmSpareMin p cm.2).wr F.partMemRepair_cmWorstCore p (cm.1 - 576 * p)) s
/-- Rows of a list of entries that find their unit's spares used up by those before them (R200). -/
def State.unsparedIn (s : State) : List Nat → List Nat → List Nat
  | _, [] => []
  | seen, r :: rest =>
    let out := (s.rowUnit r).any (fun u => (unitSpares u).any (fun n =>
      decide (n ≤ (seen.filter (fun x => s.rowUnit x == some u)).length)))
    if out then r :: s.unsparedIn seen rest else s.unsparedIn (r :: seen) rest
/-- Rows that stay in use because their unit has no spare left for their entry. Log: 144 (DEDUCED). -/
def State.unspared (s : State) : List Nat := s.unsparedIn [] s.repairRows

/-- A row left in use for want of a spare: its unit shows 0, with the sticky records and a SPARE_OUT report (R200, R472, R486). -/
def State.spareOut (s : State) (row : Nat) : State :=
  match s.resolve (512 * row) with
  | none => s
  | some d =>
    let p := s.ownerOf d
    let s :=
      if d < hbmEnd then (s.wr F.hbmEcc_pprFree (s.stackOf d) 0).hfErr 1 (s.stackOf d)
      else match cmHolder d with
        | some h => ((s.wr F.partMemRepair_cmSpareMin p 0).wr F.partMemRepair_cmWorstCore p (h - 576 * p)).coreErr h 3 0 0
        | none =>
          ((s.wr F.partMemRepair_smSpareMin p 0).wr F.partMemRepair_smWorstSlice p (s.repairUnit d - 4608 - 144 * p)).partErr p 2 0x3FF
    s.report 0x05 { s.blank (if d < hbmEnd then unitHbm (s.stackOf d) else unitPart p) with part := p, detail := [storeCode d, d] }

/-- Fused and flash values in the registers that show them (Tables 17-13, 18-9, 19-7), and the records applied (R199, R317, R428). How many
repair resources a stack's banks have is not stated: HBM_ECC shows free values. Log: 5 (DESIGN CHOICE), 6 (DESIGN CHOICE). -/
def State.applyFlash (s : State) : State :=
  let s := (s.logCounts).bootTestShow
  let s := loop 7 (fun c s => s.wr ⟨.hfFwSvn, 7 * c, 7, .ro, 0⟩ 0 (s.flash.svn.getD c 0)) s
  let s := (s.wr F.hfSecState_topIndex 0 s.flash.topIndex).wr F.hfSecState_lmsExhausted 0 (ofBool s.flash.exhausted)
  let s := s.wr F.hfPwrEnergyLife_lifeUj 0 (s.lifeBase.getD 0 0)
  let s := s.wr F.hfVxSerial_serial 0 Config.serial.toNat
  let s := loop 8 (fun p s =>
    s.wr F.partNetRouter_failed p (s.flash.routers.getD p 0)) s
  let s := loop 16 (fun h s =>
    let (f, s) := s.fresh
    s.wr F.hbmEcc_pprFree h f) s
  let s := (s.unspared).foldl (fun s r => s.spareOut r) s.repairShow
  let s := s.retireFlash.foldl (fun s e =>
    ((s.wr F.coreId_retired e.1 1).wr F.coreId_retireCause e.1 e.2).setFence e.1 true) s
  let s := s.flash.darkClu.foldl (fun s c => s.wr F.partPwrClu_state c 3) s
  let s := s.flash.phases.foldl (fun s e =>
    ((s.wr F.partPwrClu_phasesOk e.1 e.2).wr F.partPwrClu_op5Cap e.1 1).setClu e.1 { s.cluSt e.1 with regulator := 5 }) s
  let s := s.clu.foldl (fun s e => s.wr F.cluOp_trim e.1 e.2.trim) s
  { s with net := { s.net with failed := s.flash.routers }, netWant := { s.netWant with failed := s.flash.routers } }

/-- The die identity check (R21): the eight compute dies report each partition index once, and all carry the Headframe's serial number. Log: 121 (DEDUCED). -/
def State.diesOk (s : State) : Bool :=
  (List.range 8).all (fun p => (s.fuses.dies.filter (fun d => d.1 == p)).length == 1)
  && s.fuses.dies.all (fun d => decide (d.1 < 8) && d.2 == Config.serial)

/-- The firmware broadcast (R19): microcode reaches every logical core and every physical unit that repair leaves unused; these are then held in
reset, and unused clusters lose their rail. The delivered microcode is version 0. Log: 121 (DEDUCED). -/
def State.broadcastFw (s : State) (v : Nat) : State :=
  let s := if v == 0 then s else loop 4608 (fun g s => s.wr F.coreMcode_version g v) s
  { s with spares := (List.range 8).map (fun p => (p, ({ rail := false, held := true, mcode := v } : Spares))) }

/-- Step 1 of Table 18-1: the ROM picks a consistent set, or enters recovery mode (R502, R512). Where the dies pass their check the links train and the
broadcast follows; where they fail it they receive no firmware (R21). -/
def State.bootRom (s : State) : State :=
  let b := s.flash.bootSet
  let pick := if s.fwOk b then some b else if s.fwOk (1 - b) then some (1 - b) else none
  let rec_ := fun (s : State) (cause : Nat) =>
    ((s.wr F.hfFwStatus_recovery 0 1).wr F.hfFwStatus_recoveryCause 0 cause).wr F.hfBootStatus_stage 0 9
  if !s.board.recoveryN then rec_ (s.wr F.hfFwStatus_activeSet 0 b) 2
  else
    match pick with
    | none => rec_ (s.wr F.hfFwStatus_activeSet 0 b) 1
    | some k =>
      let s := (s.wr F.hfFwStatus_activeSet 0 k).wr F.hfFwStatus_bootFallback 0 (ofBool (k != b))
      let s := s.wr F.hfFwStatus_manifestVersion 0 (s.fwManifest k)
      if s.diesOk then loop 144 (fun d s => s.wr F.partD2dLink_state d 1) (s.broadcastFw (s.fwVersion k 3)) else s

/-- The module starts from nothing: the first step of Table 18-1, after a power-on or a module reset. HBM content is not defined. Log: 6 (DESIGN CHOICE), 121 (DEDUCED). -/
def State.boot (s : State) : State :=
  let first := s.firstBoot
  let s := if first then s.cleared false else s.moduleLost
  let s := if first then { s with flash := { s.flash with onCount := s.flash.onCount + 1 }, onAt := s.up } else s
  let s := if first then { s with lifeBase := s.flash.life, secBase := s.flash.onSeconds } else s
  let s := { s with testDue := first }
  let s := { s with firstBoot := false, bootAt := s.up, mem := s.mem.forget 0 hbmEnd s.freeCtr, freeCtr := s.freeCtr + 1 }
  let s := (s.wr F.hfBoard_slotId 0 s.board.strap).wr F.hfBoard_recoveryStrap 0 (ofBool (!s.board.recoveryN))
  s.applyFlash.bootRom

/-- READY is reached (step 11): a held load starts (R483). -/
def State.goReady (s : State) : State :=
  let s := (s.wr F.hfBootStatus_stage 0 7).wr F.hfBootStatus_bootMs 0 ((s.up - s.bootAt) / 1000000)
  if s.heldLoad then { s with heldLoad := false }.loadStart else s

/-- The module is tripped and still too hot for the module reset that ends it (R449). -/
def State.tooHot (s : State) : Bool := s.thermNow && decide (380 < signedOf 16 (s.rd F.hfPwrTherm_hottest 0))

/-- PERST_ASSERT: while PGOOD stays high, a module reset without drain: what is in flight is lost (R490, R524). -/
def State.perstLow (s : State) : State :=
  let s := { s with board := { s.board with perstN := false } }
  if !s.board.pgood || s.firstBoot || s.tooHot then s else s.moduleLost

/-- PERST_RELEASE: pins are sampled, FT starts at 0 and Table 18-1 runs. Log: 3 (DESIGN CHOICE). -/
def State.perstHigh (s : State) (straps : Nat) (recoveryN : Bool) : State :=
  if s.board.perstN || !s.board.pgood then s
  else
    let s := { s with board := { s.board with perstN := true, strap := straps, recoveryN := recoveryN } }
    if s.tooHot then s else s.boot

/-- The top tree's next index is advanced in flash (R520); none once it is used up. Log: 130 (DEDUCED). -/
def State.topNext (s : State) : Option State :=
  if 1048576 ≤ s.flash.topIndex then none
  else
    let n := s.flash.topIndex + 1
    some ({ s with flash := { s.flash with topIndex := n } }.wr F.hfSecState_topIndex 0 n)

/-- The top tree is used up: lms_exhausted (R520). -/
def State.topOut (s : State) : State := { s with flash := { s.flash with exhausted := true } }.wr F.hfSecState_lmsExhausted 0 1

/-- The per-boot tree that a boot makes (R520); with the top tree used up, or its index not written to flash, it has no leaf to use. Log: 130 (DEDUCED). -/
def State.bootTree (s : State) (flashOk : Bool) : State :=
  match s.topNext with
  | none => s.topOut.wr F.hfSecState_bootLeaves 0 32768
  | some s' => if flashOk then s'.wr F.hfSecState_bootLeaves 0 0 else (s.hfErr 2 0).wr F.hfSecState_bootLeaves 0 32768

/-- MANAGEMENT_READY: step 8, or STOPPED where the die identity check of step 3 failed (R482, R484). Steps 4 to 7 are done: links train,
clusters are on, core and shared memory hold zeros. Log: 3 (DESIGN CHOICE), 121 (DEDUCED). -/
def State.mgmtReady (s : State) (flashOk : Bool) : State :=
  if !s.board.powered || !s.board.perstN || 4 ≤ s.stage then s
  else
  let s := s.bootTree flashOk
  if s.diesOk then s.wr F.hfBootStatus_stage 0 4
  else (s.wr F.hfBootStatus_stage 0 8).wr F.hfBootStatus_stopCause 0 1

/-- The test that a power-on runs: full, or quick where the setting asks for it and a full test is no more than 30 days old (R485). -/
def State.quickNow (s : State) : Bool × Bool :=
  let old := match s.flash.fullAt with
    | none => true
    | some t => decide (2592000 < s.onSecs - t)
  (s.flash.quick && !old, s.flash.quick && old)

/-- HBM_TRAINING_DONE: the end of step 9. Log: 3 (DESIGN CHOICE). -/
def State.hbmTrained (s : State) (ok : Bool) : State :=
  if s.stage != 4 && s.stage != 5 then s
  else if !ok then (s.wr F.hfBootStatus_stage 0 8).wr F.hfBootStatus_stopCause 0 2
  else if s.testDue then
    let (q, refused) := s.quickNow
    ((s.wr F.hfBootStatus_stage 0 6).wr F.hfBootStatus_testRun 0 (if q then 2 else 1)).wr F.hfBootStatus_quickRefused 0 (ofBool refused)
  else s.goReady

/-- MEMORY_TEST_DONE: step 10 (R486): rows mapped out, every store zero, READY. Log: 3 (DESIGN CHOICE). -/
def State.testDone (s : State) (t : TestResult) : State :=
  if s.stage != 6 then s
  else
    let full := s.rd F.hfBootStatus_testRun 0 == 1
    let fail := !t.left.isEmpty
    let rows := t.cm ++ t.sm ++ t.hbm
    let rep : MemTest := { run := s.rd F.hfBootStatus_testRun 0, fail := fail, quickRefused := s.flag F.hfBootStatus_quickRefused 0, ms := t.ms,
                           cmRows := t.cm.length, smRows := t.sm.length, hbmRows := t.hbm.length, left := t.left.length }
    let now := s.onSecs
    let fl := { s.flash with test := rep, fullAt := if full && !fail then some now else s.flash.fullAt }
    let s := { s with flash := fl, mem := { lines := s.mem.lines }, softRepair := s.softRepair ++ rows.map (fun r => (r, 1)) }
    let s := (s.wr F.hfBootStatus_testFail 0 (ofBool fail)).wr F.hfBootStatus_newRepairs 0 (min rows.length 65535)
    (t.left.foldl (fun s r => s.spareOut r) s.repairShow).bootTestShow.goReady

/-! ## Events -/

/-- PERST_ASSERT. -/
def execPerstAssert (s : State) : Host.Outcome State Fault Refusal := finish s.perstLow
/-- PERST_RELEASE. -/
def execPerstRelease (straps : Fin 16) (recoveryN : Bool) (s : State) : Host.Outcome State Fault Refusal :=
  finish (s.perstHigh straps recoveryN)
/-- MANAGEMENT_READY. -/
def execManagementReady (flashOk : Bool) (s : State) : Host.Outcome State Fault Refusal := finish (s.mgmtReady flashOk)
/-- HBM_TRAINING_DONE. -/
def execHbmTrainingDone (ok : Bool) (s : State) : Host.Outcome State Fault Refusal := finish (s.hbmTrained ok)
/-- MEMORY_TEST_DONE. -/
def execMemoryTestDone (t : TestResult) (s : State) : Host.Outcome State Fault Refusal := finish (s.testDone t)
/-- CXL_LINK_TRAINING_DONE: a rate, a width and a flit mode; below 32 GT/s or x4 (rate 0 or width 3) the link stays in training (R393). -/
def execCxlLinkTrainingDone (rate width : Fin 4) (lopt : Bool) (s : State) : Host.Outcome State Fault Refusal :=
  finish (if rate.val == 0 || width.val == 3 || !s.board.powered || !s.board.perstN || s.stage == 9 then s
    else ((s.wr F.hfHostLink_rate 0 rate).wr F.hfHostLink_width 0 width).wr F.hfHostLink_lopt 0 (ofBool lopt))

end Sys2Proof.Machine
end

