-- ==== Sys2Proof/Machine/Fabric.lean ====
section
/-! DEFINITION. Operations on fabric ports, messages, the link-state database, bookings, transfers and running collectives that the
events of chapters 12, 13, 14, 16 and 18 share. -/

namespace Sys2Proof.Machine

/-! ## Ports -/

/-- Partition whose ports include port `x`. -/
def portPart (x : Nat) : Nat := x / 8
/-- What port `x` holds besides its registers. -/
def State.port (s : State) (x : Nat) : Port := mgetD s.ports x {}
/-- Store it. -/
def State.setPort (s : State) (x : Nat) (p : Port) : State := { s with ports := mputD s.ports x p {} }
/-- State of port `x` (Table 12-14): 0 DARK, 1 TRAINING, 2 HELLO, 3 UNTRUSTED, 4 UP, 5 DOWN_WAIT. -/
def State.pst (s : State) (x : Nat) : Nat := s.rd F.vxPortState_state x
/-- Port `x` is UP. -/
def State.portUp (s : State) (x : Nat) : Bool := s.pst x == 4
/-- Local FT of port `x`. -/
def State.ftPort (s : State) (x : Nat) : Nat := s.ftPart (portPart x)

/-- A fabric event (R351): to the fault_ring of a partition, and source 83. -/
def State.fabricNote (s : State) (p unit event lo hi : Nat) : State := (s.note p unit event lo hi).raise 83

/-- Flits of a packet of `n` bytes. -/
def flitsOf (n : Nat) : Nat := max 1 (ceilDiv n 240)

/-- The model's number of a message, and what the message says as numbers. -/
def VxMsg.words : VxMsg → Nat × List Nat
  | .sync => (1, [])
  | .syncResp t1 t2 st h => (2, [t1, t2, st, h])
  | .announce a => (3, [a.r, a.prio, a.serial, a.id, a.hops, a.epoch])
  | .hello h => (4, [h.serial, h.id, ofBool h.idValid, h.port, h.nonce, h.peerNonce, h.keyId] ++ h.sig)
  | .cert c => (5, c)
  | .lsa l => (6, [l.origin, l.id, ofBool l.idValid, l.seq]
      ++ l.recs.flatMap (fun (r : LsaRec) => [r.port, r.state, r.peerPort, r.peerSerial, r.delay]))
  | .confirm i p lat n sl => (7, [i, p, lat, n] ++ sl)
  | .confirmed i lat n => (8, [i, lat, n])
  | .refused i h r => (9, [i, h, r])
  | .revoke i c => (10, [i, c])
  | .ack i n => (11, [i, n])
  | .elect p n => (12, [p, n])
  | .contrib n g c u sl => (13, [n, g, c, u, ofBool sl.isSome, ofSigned 64 (sl.getD 0)])
  | .grant n w => (14, [n, w])
  | .packet c _ => (15, [c])

/-- The body of a message: as Tables 12-5 and 12-6 lay it out, with the stamps of Class T still 0; where the spec gives no layout its bytes are
free, a CONFIRM holding the 512 bytes of its map, a link-state advertisement 16 bytes and 16 for each record. Log: 145 (DESIGN CHOICE). -/
def VxMsg.body (m : VxMsg) : List Byte :=
  let free := fun (n : Nat) => (List.range n).map (fun i => Config.vxByte m.words.1 m.words.2 i)
  match m with
  | .sync => leBytes 9 0
  | .syncResp t1 t2 st h => leBytes 8 (t1 / 16) ++ leBytes 1 (t1 % 16) ++ leBytes 8 (t2 / 16) ++ leBytes 1 (t2 % 16) ++ leBytes 9 0 ++ leBytes 1 st ++ leBytes 1 h
  | .announce a => leBytes 1 a.r ++ leBytes 1 a.prio ++ leBytes 8 a.serial ++ leBytes 3 a.id ++ leBytes 1 a.hops ++ leBytes 4 a.epoch
  | .hello h => leBytes 8 h.serial ++ leBytes 4 (h.id + ofBool h.idValid * 2 ^ 31) ++ leBytes 1 h.port ++ leBytes 3 0 ++ leBytes 16 h.nonce
      ++ leBytes 16 h.peerNonce ++ leBytes 16 h.keyId ++ (List.range 96).map (fun i => BitVec.ofNat 8 (h.sig.getD i 0))
  | .cert c => c.map (BitVec.ofNat 8)
  | .lsa l => free (16 + 16 * l.recs.length)
  | .confirm _ _ _ _ _ => free (8 + 512)
  | .packet _ b => b
  | _ => free (Config.vxLen m.words.1 % 201)

/-- The module whose ID or serial number a message is addressed by: hellos, certificates, advertisements and election messages by the serial
number of the peer, as VX_PORT_PEER shows it (R333). Log: 145 (DESIGN CHOICE). -/
def VxMsg.bySerial : VxMsg → Bool
  | .hello _ => true
  | .cert _ => true
  | .lsa _ => true
  | .announce _ => true
  | .elect _ _ => true
  | _ => false

/-- Destination ID of a message that port `x` sends: the broker's or the member's, or the peer's. -/
def State.msgDst (s : State) (x : Nat) (m : VxMsg) : Nat :=
  let at_ := fun (serial : Nat) => ((s.lsdb.find? (fun e => e.lsa.origin == serial)).map (·.lsa.id)).getD 0
  match m with
  | .contrib _ _ _ _ _ => at_ (s.rd F.hfPwrBrokerId_brokerSerial 0)
  | .grant n _ => at_ n
  | _ => s.rd F.vxPortPeerId_peerId x

/-- The packet of a message that the module originates on port `x` (R332, Table 12-3). Log: 145 (DESIGN CHOICE). -/
def State.packetOf (s : State) (x : Nat) (m : VxMsg) : List Byte :=
  let (tag, what) := m.words
  let ser := m.bySerial
  let named := s.flag F.hfVxId_idValid 0
  let kind := if tag ≤ 3 then tag else (Config.vxKind tag).toNat
  let p0 := (if ser then 0 else s.msgDst x m) + (if named then s.rd F.hfVxId_id 0 else 0) * 2 ^ 17 + ofBool ser * 2 ^ 34
    + ofBool (!named) * 2 ^ 35 + 31 * 2 ^ 36 + kind * 2 ^ 48
  let p1 := if ser then leBytes 8 (s.rd F.vxPortPeer_peerSerial x) else (List.range 8).map (fun i => Config.vxByte (256 + tag) what i)
  leBytes 8 p0 ++ p1 ++ (if named then [] else leBytes 8 (s.rd F.hfVxSerial_serial 0)) ++ m.body

/-- Most bytes of a packet: its header of 16 bytes and 8,192 more (R332). -/
def packetMax : Nat := 16 + 8192

/-- A packet that has come in on port `src` goes on at port `x`; it fills the buffer of `src` until its flits have left (R331). -/
def State.portPass (s : State) (x rank cls src : Nat) (b : List Byte) : State :=
  let p := s.port x
  s.setPort x { p with out := p.out ++ [{ rank := rank, msg := .packet cls b, flits := flitsOf b.length, bytes := b, src := some src }] }

/-- A message that the module originates is queued at port `x` under a rank of Table 12-2, while the port can carry it: an UP port everything, a
port in HELLO or UNTRUSTED only HELLO and CERT (R338); no packet is longer than R332 allows. -/
def State.portSend (s : State) (x rank : Nat) (m : VxMsg) : State :=
  let b := s.packetOf x m
  let st := s.pst x
  let only := match m with
    | .hello _ => true
    | .cert _ => true
    | _ => false
  if (st == 4 || ((st == 2 || st == 3) && only)) && decide (b.length ≤ packetMax) then
    let p := s.port x
    s.setPort x { p with out := p.out ++ [{ rank := rank, msg := m, flits := flitsOf b.length, bytes := b }] }
  else s

/-- The same message on every UP port that meets `ok`. -/
def State.portSendAll (s : State) (rank : Nat) (m : VxMsg) (ok : Nat → Bool) : State :=
  loop 64 (fun x s => if s.portUp x && ok x then s.portSend x rank m else s) s

/-! ## Link-state database (R339) -/

/-- The module's own advertisement, with the next sequence number. Log: 73 (DEDUCED). -/
def State.ownLsa (s : State) : Lsa :=
  let recs := ((List.range 64).filter (fun x => s.pst x == 3 || s.pst x == 4)).map (fun x =>
    ({ port := x, state := s.pst x, peerPort := s.rd F.vxPortPeerId_peerPort x, peerSerial := s.rd F.vxPortPeer_peerSerial x,
       delay := s.rd F.vxPortDelay_delay x } : LsaRec))
  { origin := s.rd F.hfVxSerial_serial 0, id := s.rd F.hfVxId_id 0, idValid := s.flag F.hfVxId_idValid 0,
    seq := (s.lsaSeq + 1) % 2 ^ 32, recs := recs }

/-- lsdb_entries follows the database. Log: 73 (DEDUCED). -/
def State.setLsdb (s : State) (l : List LsdbEntry) : State := { s with lsdb := l }.wr F.hfVxStat_lsdbEntries 0 l.length

/-- An advertisement enters the database, in place of the one its origin had. -/
def State.lsdbPut (s : State) (l : Lsa) : State :=
  s.setLsdb (s.lsdb.filter (fun e => e.lsa.origin != l.origin) ++ [{ lsa := l, at_ := s.ft }])

/-- An advertisement of origin `o` finds a place: one it had, or one of the 1,024 (R339). -/
def State.lsdbRoom (s : State) (o : Nat) : Bool := s.lsdb.any (fun e => e.lsa.origin == o) || decide (s.lsdb.length < 1024)

/-- The module floods its advertisement on every UP port (R339). Log: 73 (DEDUCED). -/
def State.flood (s : State) : State :=
  if !s.flag F.hfVxCtrl_floodEn 0 then s
  else
    let l := s.ownLsa
    let s := { s with lsaSeq := l.seq, lsaAt := s.ft }
    let s := if s.lsdbRoom l.origin then s.lsdbPut l else s.inc F.hfVxStat_lsdbFull 0
    s.portSendAll 2 (.lsa l) (fun _ => true)

/-! ## Collectives that end with a fault (R374) -/

/-- Word `i` of a descriptor. -/
def Coll.d (c : Coll) (i : Nat) : Nat := c.desc.getD i 0

/-- Bits of an element of a destination copy: out_fmt, ternary signs, or in_fmt (R356). -/
def Coll.outWidth (c : Coll) : Nat :=
  let op := bits (c.d 0) 0 3
  if op ≤ 1 then (if bits (c.d 0) 3 3 == 3 then 2 else cvtWidth (bits (c.d 0) 14 4)) else cvtWidth (bits (c.d 0) 6 4)

/-- Elements of a destination copy (Table 13-4). -/
def Coll.copyElems (c : Coll) : Nat :=
  let op := bits (c.d 0) 0 3
  if op == 1 then bits (c.d 7) 32 32
  else if op == 4 then (bits (c.d 0) 19 5 + 1) * bits (c.d 7) 32 32
  else bits (c.d 1) 0 32

/-- Bytes of `n` elements of `w` bits; ternary codes fill 32-bit words (R28). -/
def dataBytes (n w : Nat) : Nat := if w == 2 then 4 * ceilDiv n 16 else ceilDiv (n * w) 8

/-- Rows of a destination copy with its header row. -/
def Coll.copyRows (c : Coll) : Nat := 1 + ceilDiv (dataBytes c.copyElems c.outWidth) 512

/-- Virtual addresses of the rows of every destination copy. -/
def Coll.copyVas (c : Coll) : List Nat :=
  (List.range (bits (c.d 5) 32 13)).flatMap (fun k =>
    (List.range c.copyRows).map (fun r => (bits (c.d 4) 0 57 + 512 * (k * bits (c.d 5) 0 32 + r)) % 2 ^ 57))

/-- The DPA a virtual row stands at now, if it can be written. -/
def State.rowAt (s : State) (p ctx va : Nat) : Option Nat :=
  match (s.walkCtx p ctx va).1 with
  | .page d sh w => if w then s.tenantDpa p (d + va % 2 ^ sh) else none
  | .fail _ => none

/-- A COLL ends with an execution fault: its copies are undefined, offers accepted run on, and it completes with the fault (R374). -/
def State.collFail (s : State) (p st sub : Nat) : State :=
  match mget s.colls p with
  | none => s
  | some c =>
    let u := unitColl p
    let rows := c.copyVas.filterMap (fun va => s.rowAt c.ctxPart c.ctx va)
    let m := rows.foldl (fun (m : Store) d => m.forget d (d + 512) s.freeCtr) s.mem
    let s := { s with mem := m, freeCtr := s.freeCtr + 1, colls := mdel s.colls p,
                      offers := s.offers.filter (fun (o : Offer) => !c.offers.contains o.id) }
    match s.startedOf u c.id with
    | none => s
    | some x => s.opFail u x st sub

/-- An offer has ended with a status of Table 12-8: OK, or the fault CE_SEND of its command (R373, R374). -/
def State.offerEnd (s : State) (id st : Nat) : State :=
  match s.colls.find? (fun e => e.2.offers.contains id) with
  | none => s
  | some (p, c) =>
    if st == 0 then { s with colls := mput s.colls p { c with offers := c.offers.filter (fun i => i != id) } }
    else s.collFail p 0x8A st

/-! ## Bookings (R343 to R349) -/

/-- State of booking entry `b`: 0 FREE, 1 CONFIRMING, 2 ACTIVE, 3 REVOKED. -/
def State.bookSt (s : State) (b : Nat) : Nat := s.rd F.hfVxBook0_state b
/-- Its role: 0 SOURCE, 1 TRANSIT, 2 DESTINATION. -/
def State.bookRole (s : State) (b : Nat) : Nat := s.rd F.hfVxBook0_role b
/-- A booking event: by the management firmware, to the entry's part (R351). -/
def State.bookNote (s : State) (b event lo : Nat) : State := s.fabricNote (s.rd F.hfVxBook0_part b) unitFw event lo 0
/-- Any booking is CONFIRMING or ACTIVE. -/
def State.anyBooked (s : State) : Bool := (List.range 4096).any (fun b => s.bookSt b == 1 || s.bookSt b == 2)
/-- Slots of a port's calendar that name an entry. -/
def State.slotsOf (s : State) (x b : Nat) : List Nat :=
  (List.range 4096).filter (fun i =>
    s.flag F.vxPortCal_valid (x * 4096 + i) && s.rd F.vxPortCal_booking (x * 4096 + i) == b)

/-- An accepted transfer ends at its source with a status and its subcode: counted, and its command told (R348). -/
def State.transferEnd (s : State) (t : Transfer) (st sub : Nat) : State :=
  let s := { s with transfers := s.transfers.filter (fun (y : Transfer) => y.id != t.id), xferEnds := mput s.xferEnds t.book (st, sub) }
  let s := if st == 0 then s.inc F.hfVxBook2_xferOk t.book else s.inc F.hfVxBook2_xferRevoked t.book
  s.offerEnd t.id st

/-- A revocation with a cause meets an accepted transfer of its entry: an offer of this very tick is refused (R350), any other ends REVOKED with
the tick, unless its ACK comes in it. -/
def State.transferHit (s : State) (cause now : Nat) (t : Transfer) : State :=
  if t.at_ == now then
    ({ s with transfers := s.transfers.filter (fun (y : Transfer) => y.id != t.id) }).offerEnd t.id 0x90
  else
    { s with transfers := s.transfers.map (fun (y : Transfer) =>
        if y.id == t.id && y.rev.isNone then { y with rev := some cause } else y) }

/-- Entry `b` is revoked with a cause (R349); flits of a TRANSIT entry that have not left are discarded (R345). -/
def State.revoke (s : State) (b cause : Nat) : State :=
  if s.bookSt b != 1 && s.bookSt b != 2 then s
  else
    let s := ((s.wr F.hfVxBook0_state b 3).wr F.hfVxBook0_activate b 0).wr F.hfVxBook1_cause b cause
    let s := s.bookNote b 0x0405 (b + cause * 2 ^ 16)
    let s := { s with incoming := s.incoming.filter (fun (i : Incoming) => i.book != b) }
    if s.bookRole b == 0 then
      let now := s.ftPort (s.rd F.hfVxBook0_outPort b)
      (s.transfers.filter (fun (t : Transfer) => t.book == b)).foldl (fun s t => s.transferHit cause now t) s
    else
      let o := s.rd F.hfVxBook0_outPort b
      let s := s.setPort o { s.port o with transit := (s.port o).transit.filter (fun (t : Transit) => t.book != b) }
      s.portSend (s.rd F.hfVxBook0_inPort b) 0 (.revoke (s.rd F.hfVxBook0_prevIndex b) cause)

/-- Every entry that meets a test is revoked. -/
def State.revokeAll (s : State) (cause : Nat) (ok : State → Nat → Bool) : State :=
  ((List.range 4096).filter (fun b => ok s b)).foldl (fun s b => s.revoke b cause) s

/-- Entry `b` uses port `x`. -/
def State.bookUses (s : State) (x b : Nat) : Bool :=
  (s.bookRole b != 2 && s.rd F.hfVxBook0_outPort b == x) || (s.bookRole b != 0 && s.rd F.hfVxBook0_inPort b == x)

/-! ## Links that go down (R329) -/

/-- No port owes port `x` credits for its packets any more: the flits it held are gone. -/
def State.forgetSrc (s : State) (x : Nat) : State :=
  { s with ports := s.ports.map (fun (e : Nat × Port) =>
      (e.1, { e.2 with out := e.2.out.map (fun (m : OutMsg) => if m.src == some x then { m with src := none } else m) })) }

/-- Port `x` goes down with a cause of Table 12-9: every flit is dropped, its bookings are revoked, and the module floods (R339). A port held
DARK (cause 4) goes there and holds no lock, any other to DOWN_WAIT, its lanes as they stand. Log: 70 (DESIGN CHOICE). -/
def State.portDown (s : State) (x cause : Nat) : State :=
  let st := s.pst x
  let next := if cause == 4 then 0 else 5
  if st == 0 then s
  else if st == 1 || st == 5 then (if cause == 4 then (((s.wr F.vxPortState_state x 0).wr F.vxPortState_locked x 0).setPort x {}).flood else s)
  else
    let s := ((s.wr F.vxPortState_state x next).wr F.vxPortState_trusted x 0).forgetSrc x
    let s := if cause == 4 then s.wr F.vxPortState_locked x 0 else s
    let s := s.inc F.vxPortState_downs x
    let s := s.setPort x { downAt := s.ftPort x }
    let s := s.fabricNote (portPart x) (unitPort x) 0x0401 (x + cause * 2 ^ 8) 0
    (s.revokeAll 1 (fun s b => s.bookUses x b)).flood

/-- A Lamp or enable that holds port `x` DARK no longer does: the port trains (R337, R339). -/
def State.portLit (s : State) (x : Nat) : State :=
  if s.pst x == 0 && s.flag F.vxPortCtrl_enable x then (s.wr F.vxPortState_state x 1).flood else s

/-! ## Landing areas (R371, R372) -/

/-- Landing entry `j` of partition `p`. -/
def landKey (p j : Nat) : Nat := p * 64 + j
/-- What it holds. -/
def State.land (s : State) (k : Nat) : Land := mgetD s.lands k {}
/-- Store it; full counts the messages held (Table 13-8). -/
def State.setLand (s : State) (k : Nat) (l : Land) : State :=
  { s with lands := mputD s.lands k l {} }.wr F.partCeLand0_full k l.msgs.length

/-- The valid landing entry of a booking in partition `p`. -/
def State.landOf (s : State) (p b : Nat) : Option Nat :=
  ((List.range 64).map (fun j => landKey p j)).find? (fun k => s.flag F.partCeLand0_valid k && s.rd F.partCeLand0_booking k == b)

/-- Bytes of a landing slot. -/
def State.slotBytes (s : State) (k : Nat) : Nat := 512 * s.rd F.partCeLand0_slotRows k
/-- DPA of slot `i` of a landing entry. -/
def State.slotDpa (s : State) (k i : Nat) : Nat := 512 * s.rd F.partCeLand1_dpa k + s.slotBytes k * i

/-- The ring a tally of partition `p`'s engine goes to: its running command's tally_ring where tally_en is set, else fault_ring (R376). Log: 75 (DESIGN CHOICE). -/
def State.ceRing (s : State) (p : Nat) : Nat :=
  match (mget s.colls p).bind (fun c => s.startedOf (unitColl p) c.id) with
  | some x => if x.e.cmd.tallyEn then x.e.cmd.tallyRing else s.rd F.partTallyCtrl_faultRing p
  | none => s.rd F.partTallyCtrl_faultRing p

/-- A landing discard (R372): counted, and a tally that names entry, cause and step. Log: 75 (DESIGN CHOICE). -/
def State.landDiscard (s : State) (k cause step : Nat) : State :=
  let p := k / 64
  (s.inc F.partCeStat_discards p).tallyAt (s.ftPart p) p (s.ceRing p) (unitColl p) 0x0442 0 (k % 64 + cause * 2 ^ 8 + step * 2 ^ 32) 0

/-- The oldest message of a landing entry leaves it (R371). -/
def State.landPop (s : State) (k : Nat) : State :=
  let l := s.land k
  s.setLand k { l with msgs := l.msgs.drop 1 }

/-! ## Compute resets (R375) -/

/-- A compute reset of partition `p` ends its running COLL without completion, and frees every landing slot. -/
def State.collReset (s : State) (p : Nat) : State :=
  let ids := ((mget s.colls p).map (·.offers)).getD []
  let s := { s with colls := mdel s.colls p, offers := s.offers.filter (fun (o : Offer) => !ids.contains o.id) }
  loop 64 (fun j s => s.setLand (landKey p j) { s.land (landKey p j) with msgs := [], next := 0 }) s

end Sys2Proof.Machine
end

