-- ==== Sys2Proof/Machine/Mover.lean ====
section
/-! DEFINITION. The mover (R182 to R188): field checks, placements, conversion on move and execution row by row; ring events. -/

namespace Sys2Proof.Machine

/-- The MOVE body (Table 7-4) with the strides of a bench command applied (R183). -/
structure MoveCmd where
  srcKind : Nat
  dstKind : Nat
  append : Bool
  nonsat : Bool
  srcFmt : Nat
  dstFmt : Nat
  cvt : Bool
  mx : Nat
  rc : Bool
  rows : Nat
  sclRow : Nat
  src : Nat
  dst : Nat
  deriving DecidableEq, Repr

/-- Amount one bench stride adds to an address of a kind. -/
def strideUnit (kind : Nat) : Nat := if kind == 3 then 512 else if kind == 4 then 32 else if kind == 5 || kind == 6 then 2 else 1

/-- Read the MOVE body of an entry. -/
def MoveCmd.of (e : Entry) : MoveCmd :=
  let c := e.cmd
  let i := (e.bench.map (·.index)).getD 0
  let sk := bits c.w4 0 3
  let dk := bits c.w4 3 3
  { srcKind := sk, dstKind := dk, append := bitAt c.w4 6, nonsat := bitAt c.w4 7, srcFmt := bits c.w4 8 4,
    dstFmt := bits c.w4 12 4, cvt := bitAt c.w4 16, mx := bits c.w4 17 4, rc := bitAt c.w4 21, rows := bits c.w4 32 16,
    sclRow := bits c.w4 48 12,
    src := bits c.w5 0 57 + i * bits c.w7 0 32 * strideUnit sk,
    dst := bits c.w6 0 57 + i * bits c.w7 32 32 * strideUnit dk }

/-- Bits of a source element; 8 where nothing is converted. -/
def MoveCmd.srcW (m : MoveCmd) : Nat := if m.cvt || m.mx != 0 then cvtWidth m.srcFmt else 8
/-- MX blocks of the source (R185). -/
def MoveCmd.blocks (m : MoveCmd) : Nat := m.rows * (4096 / m.srcW) / 32
/-- Bytes of the elements of one block. -/
def MoveCmd.blockBytes (m : MoveCmd) : Nat := if m.mx == 14 then 16 else 32
/-- Blocks of the streams, compensating ones included. -/
def MoveCmd.streamBlocks (m : MoveCmd) : Nat := m.blocks * (if m.rc then 2 else 1)
/-- Destination rows (R184, R185). -/
def MoveCmd.dstRows (m : MoveCmd) : Nat :=
  if m.mx != 0 then ceilDiv (m.streamBlocks * m.blockBytes) 512
  else if m.cvt then m.rows * cvtWidth m.dstFmt / m.srcW else m.rows
/-- Scale rows. -/
def MoveCmd.sclRows (m : MoveCmd) : Nat := if m.mx != 0 then ceilDiv m.streamBlocks 512 else 0

/-- A ring address of core `g`'s partition. -/
def State.moveRing (s : State) (g n : Nat) : Option Ring := s.ringDef (partOf g) n

/-- Sequence slot of an address (Table 7-5). -/
def seqSlotOf (a : Nat) : Nat := bits a 0 5
/-- Row index within the sequence; a stride may carry it past 32 bits. -/
def seqRowOf (a : Nat) : Nat := a / 32

/-- A sequence slot of the partition of core `g`. -/
def State.seqSlot (s : State) (p k : Nat) : Option SeqSlot := mget s.seqSlots (p * 32 + k)

/-- Checks 0x70 to 0x72 of Table 7-6. Log: 29 (DEDUCED). -/
def State.moveCheck (s : State) (g : Nat) (e : Entry) : Nat :=
  let c := e.cmd
  let m := MoveCmd.of e
  let conv := m.cvt || m.mx != 0
  let kindBits := fun (k a : Nat) => k == 4 && decide (2 ^ 37 ≤ bits a 0 57)
  if bits c.w4 22 10 != 0 || bits c.w4 60 4 != 0 || bits c.w5 57 7 != 0 || bits c.w6 57 7 != 0
     || decide (5 ≤ m.srcKind) || m.dstKind == 7 || (m.append && m.dstKind != 4) || m.rows == 0
     || (e.bench.isNone && c.w7 != 0)
     || (!conv && (m.srcFmt != 0 || m.nonsat)) || (!m.cvt && m.dstFmt != 0) || (m.mx == 0 && (m.rc || m.sclRow != 0))
     || (m.cvt && (m.mx != 0 || decide (4 < m.srcFmt) || decide (7 < m.dstFmt)))
     || (m.mx != 0 && (decide (m.mx < 9) || decide (14 < m.mx) || decide (1 < m.srcFmt)))
     || kindBits m.srcKind c.w5 || kindBits m.dstKind c.w6 then 0x70
  else
    let sr := if m.srcKind == 1 then s.moveRing g m.src else none
    let dr := if m.dstKind == 1 then s.moveRing g m.dst else none
    let seq := if m.append then s.seqSlot (partOf g) (seqSlotOf m.dst) else none
    if (m.srcKind == 3 && m.src % 512 != 0) || (m.dstKind == 3 && m.dst % 512 != 0)
       || sr.any (fun r => m.rows % r.slotRows != 0) || dr.any (fun r => m.dstRows % r.slotRows != 0)
       || (m.cvt && m.rows * cvtWidth m.dstFmt % m.srcW != 0)
       || seq.any (fun q => m.dstRows % (q.tokenBytes / 512) != 0) then 0x71
    else
      let scl := m.sclRow + m.sclRows
      if (m.srcKind == 0 && decide (3072 < m.src + m.rows)) || (m.dstKind == 0 && decide (3072 < m.dst + m.dstRows))
         || (m.srcKind == 2 && decide (256 < m.src + m.rows)) || (m.dstKind == 2 && decide (256 < m.dst + m.dstRows))
         || ((m.dstKind == 5 || m.dstKind == 6) && decide (256 < m.dst + 2 * m.dstRows))
         || (m.srcKind == 1 && sr.isNone) || (m.dstKind == 1 && dr.isNone)
         || (m.mx != 0 && (decide (3072 < scl)
              || [sr, dr].any (fun o => o.any (fun r => s.ringCore r == some g && overlaps m.sclRow m.sclRows r.first (r.slots * r.slotRows)))
              || (m.srcKind == 0 && overlaps m.sclRow m.sclRows m.src m.rows)
              || (m.dstKind == 0 && overlaps m.sclRow m.sclRows m.dst m.dstRows))) then 0x72
      else 0

/-! ## Sequence slots (R204 to R206) -/

/-- Where a sequence row lies: a page that is present, or a subcode of MOV_SEQ; 9 for an uncorrectable entry, and 10 for an
entry or page outside the tenancy. -/
inductive SeqAt where
  | dpa (d : Nat)
  | fail (sub : Nat)
  deriving DecidableEq, Repr

/-- Row `r` of a sequence (R204). Log: 30 (DEDUCED). -/
def State.seqAt (s : State) (p : Nat) (q : SeqSlot) (r : Nat) : SeqAt :=
  let b := 512 * r
  let i := b / 2 ^ q.pageShift
  if q.capacity ≤ i then .fail 2
  else
    match s.tenantDpa p (q.root + 8 * i) with
    | none => .fail 10
    | some a =>
      if s.tableLost a then .fail 9
      else
        let e := s.mem.rdLE a 8
        if !bitAt e 0 then .fail 2
        else
          match s.tenantDpa p (bits e 12 40 * 4096 + b % 2 ^ q.pageShift) with
          | none => .fail 10
          | some d => .dpa d

/-- The page-list entry of a row, where it can be looked up (R204). -/
def State.seqEntry (s : State) (p : Nat) (q : SeqSlot) (r : Nat) : Option Nat :=
  s.tenantDpa p (q.root + 8 * (512 * r / 2 ^ q.pageShift))

/-- The records of the first entry that cannot be used among those of `n` rows from `r` on (R197, Table 17-12). Log: 35 (DEDUCED). -/
def State.seqUnc (s : State) (g : Nat) (q : SeqSlot) (r n : Nat) : State :=
  let p := partOf g
  match (List.range n).findSome? (fun k => (s.seqEntry p q (r + k)).filter s.tableLost) with
  | some a => s.tableUnc g p a
  | none => s

/-- First failing page of `n` rows from `r` on, checked before any row moves (R205). -/
def State.seqPages (s : State) (p : Nat) (q : SeqSlot) (r n : Nat) : Option Nat :=
  let first := 512 * r / 2 ^ q.pageShift
  let last := (512 * (r + n) - 1) / 2 ^ q.pageShift
  (List.range (last + 1 - first)).findSome? (fun k =>
    match s.seqAt p q (max r ((first + k) * 2 ^ q.pageShift / 512)) with
    | .fail 2 => some 2
    | .fail 9 => some 9
    | _ => none)

/-- Rows of one token. -/
def SeqSlot.tokenRows (q : SeqSlot) : Nat := q.tokenBytes / 512
/-- Current length in tokens. -/
def State.seqLen (s : State) (p k : Nat) : Nat := s.rd F.partSeqLen_length (p * 32 + k)

/-- The checks of a read or a non-append write (R205). -/
def State.seqCheck (s : State) (p a n : Nat) : Nat :=
  match s.seqSlot p (seqSlotOf a) with
  | none => 3
  | some q =>
    if s.seqLen p (seqSlotOf a) * q.tokenBytes < 512 * (seqRowOf a + n) then 1
    else (s.seqPages p q (seqRowOf a) n).getD 0

/-! ## Execution -/

/-- What one step of a MOVE gives: a change of its progress, a wait, a fault, or its end. -/
inductive MoveStep where
  | go (pr : Prog)
  | wait
  | fault (st sub addr : Nat)
  | over
  deriving DecidableEq, Repr

/-- A faulting ring access has no address of Table 7-9's kinds: the register takes a free value. -/
def State.ringAddr (s : State) : Nat × State := ((s.fresh).1 % 2 ^ 57, (s.fresh).2)

/-- The place of a row: a canonical DPA, or an address in the private buffers. -/
inductive RowPlace where
  | mem (d : Nat)
  | buf (a : Nat)
  | stop (m : MoveStep)
  deriving DecidableEq, Repr

/-- Row `i` of an address of a kind other than RING. -/
def State.place (s : State) (g cp ctx kind a i : Nat) (write : Bool) : RowPlace × State :=
  if kind == 0 then (.mem (cmRow g (a + i)), s)
  else if kind == 2 then (.buf (stageBuf g + 512 * (a + i)), s)
  else if kind == 5 then (.buf (abuf g + 256 * (a + 2 * i)), s)
  else if kind == 6 then (.buf (bbuf g + 256 * (a + 2 * i)), s)
  else if kind == 3 then
    let va := (a + 512 * i) % 2 ^ 57
    match s.xlat g cp ctx va write with
    | (.fail k, s) => (.stop (if k == 9 then .fault 0x79 0 va else .fault 0x78 k va), s)
    | (.ok d, s) => (.mem d, s)
  else
    let p := partOf g
    let r := seqRowOf a + i
    match s.seqSlot p (seqSlotOf a) with
    | none => (.stop (.fault 0x7B 3 r), s)
    | some q =>
      match s.seqAt p q r with
      | .dpa d => (.mem d, ((s.seqEntry p q r).map (fun a => s.corr a 8)).getD s)
      | .fail k => (.stop (if k == 9 then .fault 0x79 0 r else if k == 10 then .fault 0x78 3 r else .fault 0x7B k r), if k == 9 then s.seqUnc g q r 1 else s)

/-- Row `i` of a ring address: the slot is claimed at its first row (R178), and the row lies in it. -/
def State.ringPlace (s : State) (g u id : Nat) (r : Ring) (slot : Option Nat) (i : Nat) (write : Bool) : RowPlace × Option Nat × State :=
  let inSlot := fun (k : Nat) (s : State) =>
    match s.ringRow r k (i % r.slotRows) with
    | some d => (RowPlace.mem d, some k, s)
    | none => (RowPlace.stop .wait, some k, s)
  match slot with
  | some k => inSlot k s
  | none =>
    match s.ringAsk r write (.cmd u id) (s.ftCore g) with
    | (.slot k, s) => inSlot k s
    | (.wait, s) => (.stop .wait, none, s)
    | (.fault, s) =>
      let (a, s) := s.ringAddr
      (.stop (.fault 0x7A (if write then 2 else 1) a), none, s)

/-- Row number a fault reports for a place that is no VA or sequence row. Log: 29 (DEDUCED). -/
def faultRow (m : MoveCmd) (write : Bool) (i : Nat) : Nat :=
  let k := if write then m.dstKind else m.srcKind
  let a := if write then m.dst else m.src
  if k == 3 then (a + 512 * i) % 2 ^ 57 else if k == 4 then seqRowOf a + i else if k == 1 then i else a + i

/-- A row that a unit has sent to `d` has not arrived: its own later accesses to the row wait, in order (R234). -/
def State.unsent (s : State) (u d : Nat) : Bool := s.bulk.any (fun (b : BulkRow) => b.unit == u && b.row == d && !b.got)

/-- Read a source row. -/
def State.moveRead (s : State) (g i : Nat) (m : MoveCmd) (pl : RowPlace) : (MoveStep ⊕ List Byte) × State :=
  match pl with
  | .stop x => (.inl x, s)
  | .buf a =>
    if s.bufs.hurt a 512 then (.inl (.fault 0x79 0 (faultRow m false i)), s.bufUnc g 3 0x70 a)
    else (.inr (s.bufs.rdN a 512), s.corrBuf g a 512)
  | .mem d =>
    if s.unsent (unitEng g 3) d then (.inl .wait, s)
    else match s.rowRead g d with
    | (.data l, s) => (.inr l, s)
    | (.wait, s) => (.inl .wait, s)
    | (.unc, s) => (.inl (.fault 0x79 0 (faultRow m false i)), s.engUnc g 3 0x70 d)
    | (.net k, s) => (.inl (.fault 0x7C k (faultRow m false i)), s)

/-- Rows of a command that are not yet acknowledged (R309). -/
def State.unacked (s : State) (u id : Nat) : Bool := s.bulk.any (fun (b : BulkRow) => b.unit == u && b.id == id)

/-- Write a destination row, or send it when it travels as Class S; locked operands and locked results hold it (R84, R459). Log: 33 (DESIGN CHOICE). -/
def State.moveWrite (s : State) (g id i : Nat) (m : MoveCmd) (pl : RowPlace) (l : List Byte) : Option MoveStep × State :=
  match pl with
  | .stop x => (some x, s)
  | .buf a =>
    if s.operandLocked g a 512 then (some .wait, s.fresh.2.inc F.coreMmStall_lockWait g s.fresh.1)
    else if s.lockedBuf a 512 then (some .wait, s)
    else (none, { s with bufs := s.bufs.wrN a l })
  | .mem d =>
    if s.classS g d then
      if s.fenced g then (some .wait, s)
      else
        let b : BulkRow := { unit := unitEng g 3, id := id, row := d, addr := faultRow m true i, data := l, seq := s.bulkSeq }
        (none, { s with bulk := s.bulk ++ [b], bulkSeq := s.bulkSeq + 1 })
    else if s.unsent (unitEng g 3) d then (some .wait, s)
    else match s.rowWrite g d l with
    | (.done, s) => (none, s)
    | (.wait, s) => (some .wait, s)
    | (.unc, s) => (some (.fault 0x79 0 (faultRow m true i)), s.engUnc g 3 0x70 d)
    | (.net k, s) => (some (.fault 0x7C k (faultRow m true i)), s)

/-- Elements of a row of a format, little-endian (R28). -/
def rowElems (fmt : Nat) (row : List Byte) : List FVal :=
  let w := cvtWidth fmt
  (List.range (4096 / w)).map (fun i => cvtDecode fmt (leNat ((row.drop (i * (w / 8))).take (w / 8))))

/-- Packed bytes of elements of a width (R28): 4-bit elements two to a byte, the lower index low. -/
def packElems (width : Nat) : List Nat → List Byte
  | [] => []
  | [x] => if width == 4 then [BitVec.ofNat 8 x] else leBytes (width / 8) x
  | x :: y :: r =>
    (if width == 4 then [BitVec.ofNat 8 (x % 16 + y % 16 * 16)] else leBytes (width / 8) x ++ leBytes (width / 8) y)
      ++ packElems width r

/-- The bytes, scales and counts a source row adds: as it is, converted (R184), or quantised (R185). -/
structure RowOut where
  bytes : List Byte
  scales : List Nat := []
  comp : List Byte := []
  compScales : List Nat := []
  n : Counts := {}
  deriving DecidableEq, Repr

/-- Transform one source row. -/
def MoveCmd.transform (m : MoveCmd) (row : List Byte) : RowOut :=
  if m.cvt then
    let cs := (rowElems m.srcFmt row).map (fun v => cvtConvert m.dstFmt m.nonsat v)
    { bytes := packElems (cvtWidth m.dstFmt) (cs.map Conv.w), n := Counts.sum (cs.map Conv.counts) }
  else if m.mx != 0 then
    let f := mxOf m.mx
    let w := if m.mx == 14 then 4 else 8
    (chunks 32 16 (rowElems m.srcFmt row)).foldl (fun (o : RowOut) xs =>
      let b := f.quantise xs
      let c := f.residual xs b
      { bytes := o.bytes ++ packElems w b.q, scales := o.scales ++ [b.scale],
        comp := if m.rc then o.comp ++ packElems w c.q else [],
        compScales := if m.rc then o.compScales ++ [c.scale] else [],
        n := o.n.add { zeroBlocks := b.zeroBlocks, vanished := b.vanished } }) { bytes := [] }
  else { bytes := row }

/-- First acts of a MOVE: sequence checks and the reservation of an append (R205, R206). Log: 29 (DEDUCED). -/
def State.moveBegin (s : State) (g : Nat) (m : MoveCmd) (pr : Prog) : MoveStep × State :=
  let p := partOf g
  let seqFault := fun (k a : Nat) => if k == 9 then MoveStep.fault 0x79 0 a else MoveStep.fault 0x7B k a
  let note := fun (k a n : Nat) => if k == 9 then ((s.seqSlot p (seqSlotOf a)).map (fun q => s.seqUnc g q (seqRowOf a) n)).getD s else s
  let k := if m.srcKind == 4 then s.seqCheck p m.src m.rows else 0
  if k != 0 then (seqFault k (seqRowOf m.src), note k m.src m.rows)
  else if m.dstKind != 4 then (.go { pr with begun := true }, s)
  else if !m.append then
    let k := s.seqCheck p m.dst m.dstRows
    if k != 0 then (seqFault k (seqRowOf m.dst), note k m.dst m.dstRows) else (.go { pr with begun := true }, s)
  else
    let n := seqSlotOf m.dst
    match s.seqSlot p n with
    | none => (.fault 0x7B 3 (seqRowOf m.dst), s)
    | some q =>
      let row := q.append * q.tokenRows
      match s.seqPages p q row m.dstRows with
      | some k => (seqFault k row, if k == 9 then s.seqUnc g q row m.dstRows else s)
      | none =>
        let hi := q.append + m.dstRows / q.tokenRows
        let q := { q with append := hi, ranges := q.ranges ++ [(row / q.tokenRows, hi, false)] }
        (.go { pr with begun := true, base := row }, { s with seqSlots := mput s.seqSlots (p * 32 + n) q })

/-- One step of a MOVE: write a scale row that is due, write a full destination row, or read the next source row (R183, R185). -/
def State.moveStep (s : State) (u g cp ctx id : Nat) (m : MoveCmd) (pr : Prog) : MoveStep × State :=
  let srcEnd := pr.src == m.rows
  let dstEnd := pr.dst == m.dstRows
  let sclDue := m.mx != 0 && decide (pr.scl < m.sclRows) &&
    (dstEnd || (decide (512 * (pr.scl + 1) ≤ pr.scales.length) && decide ((pr.scl + 1) * m.blockBytes ≤ pr.dst)))
  if !pr.begun then s.moveBegin g m pr
  else if pr.full then
    if s.unacked u id then (.go { pr with ready := false }, s)
    else
      let s := match (if m.dstKind == 1 then s.moveRing g m.dst else none), pr.dstSlot with
        | some r, some k => s.ringRelease r.part r.number k true
        | _, _ => s
      (.go { pr with full := false, dstSlot := none }, s)
  else if srcEnd && !pr.comp.isEmpty then
    (.go { pr with bytes := pr.bytes ++ pr.comp, scales := pr.scales ++ pr.compScales, comp := [], compScales := [] }, s)
  else if sclDue then
    let l := ((pr.scales.drop (512 * pr.scl)).take 512).map (fun x => (BitVec.ofNat 8 x : Byte))
    let l := l ++ List.replicate (512 - l.length) 0
    match s.moveWrite g id pr.scl m (.mem (cmRow g (m.sclRow + pr.scl))) l with
    | (none, s) => (.go { pr with scl := pr.scl + 1 }, s)
    | (some x, s) => (x, s)
  else if !dstEnd && (decide (512 ≤ pr.bytes.length) || (srcEnd && !pr.bytes.isEmpty)) then
    let l := pr.bytes.take 512
    let l := l ++ List.replicate (512 - l.length) 0
    let ring := if m.dstKind == 1 then s.moveRing g m.dst else none
    let (pl, slot, s) : RowPlace × Option Nat × State :=
      match ring with
      | some r => s.ringPlace g u id r pr.dstSlot pr.dst true
      | none =>
        let a := if m.append then seqSlotOf m.dst + 32 * pr.base else m.dst
        let (pl, s) := s.place g cp ctx m.dstKind a pr.dst true
        (pl, none, s)
    match s.moveWrite g id pr.dst m pl l with
    | (some .wait, s) => (.go { pr with dstSlot := slot, begun := true, ready := false }, s)
    | (some x, s) => (x, s)
    | (none, s) =>
      let last := ring.any (fun r => (pr.dst + 1) % r.slotRows == 0)
      let wait := last && s.unacked u id
      let s := match ring, slot with
        | some r, some k => if last && !wait then s.ringRelease r.part r.number k true else s
        | _, _ => s
      (.go { pr with dst := pr.dst + 1, bytes := pr.bytes.drop 512, dstSlot := if last && !wait then none else slot, full := wait }, s)
  else if !srcEnd then
    let ring := if m.srcKind == 1 then s.moveRing g m.src else none
    let (pl, slot, s) : RowPlace × Option Nat × State :=
      match ring with
      | some r => s.ringPlace g u id r pr.srcSlot pr.src false
      | none =>
        let (pl, s) := s.place g cp ctx m.srcKind m.src pr.src false
        (pl, none, s)
    match s.moveRead g pr.src m pl with
    | (.inl .wait, s) => (.go { pr with srcSlot := slot, begun := true, ready := false }, s)
    | (.inl x, s) => (x, s)
    | (.inr row, s) =>
      let o := m.transform row
      let s := s.counts g o.n
      let last := ring.any (fun r => (pr.src + 1) % r.slotRows == 0)
      let s := match ring, slot with
        | some r, some k => if last then s.ringRelease r.part r.number k false else s
        | _, _ => s
      (.go { pr with src := pr.src + 1, bytes := pr.bytes ++ o.bytes, scales := pr.scales ++ o.scales, comp := pr.comp ++ o.comp,
                     compScales := pr.compScales ++ o.compScales, srcSlot := if last then none else slot }, s)
  else (.over, s)

/-- Steps of a MOVE until it waits, faults or is over. A step that waits gives back its progress marked not ready. -/
def State.moveLoop (u g cp ctx id : Nat) (m : MoveCmd) : Nat → Prog → State → MoveStep × Prog × State
  | 0, pr, s => (.wait, pr, s)
  | n + 1, pr, s =>
    match s.moveStep u g cp ctx id m pr with
    | (.go q, s) => if q.ready then State.moveLoop u g cp ctx id m n q s else (.wait, { q with ready := true }, s)
    | (x, s) => (x, pr, s)

/-- An append's range is completely written (R206). Log: 30 (DEDUCED). -/
def State.appendDone (s : State) (p : Nat) (m : MoveCmd) (pr : Prog) : State :=
  if !m.append then s
  else
    let n := seqSlotOf m.dst
    match s.seqSlot p n with
    | none => s
    | some q =>
      let lo := pr.base / q.tokenRows
      let rs := q.ranges.map (fun r => if r.1 == lo then (r.1, r.2.1, true) else r)
      { s with seqSlots := mput s.seqSlots (p * 32 + n) { q with ranges := rs } }

/-- MOVE executes: rows in order, until it is over, waits, or faults (R186). Log: 12 (DEDUCED). -/
def State.moveRun (s : State) (g : Nat) : State :=
  let u := unitEng g 3
  match s.oldest u 0x70 with
  | none => s
  | some x =>
    let m := MoveCmd.of x.e
    let (cp, ctx) := s.cmdCtx u x.e
    if !s.runs g then s
    else
      let fuel := m.rows + 2 * m.dstRows + m.sclRows + 8
      match State.moveLoop u g cp ctx x.id m fuel x.prog s with
      | (.over, pr, s) =>
        if s.unacked u x.id then s.modStarted u x.id (fun y => { y with prog := pr }) else
        ((s.appendDone (partOf g) m pr).modStarted u x.id (fun y => { y with prog := pr })).opDone u x.id
      | (.fault st sub a, _, s) => ((s.wr F.coreMovFaultAddr_addr g a).opFail u x st sub).repeated g
      | (_, pr, s) => s.modStarted u x.id (fun y => { y with prog := pr })

/-! ## Ring events (R178 to R181) -/

/-- Local FT of the engine that makes a ring access. -/
def State.whoFt (s : State) : Who → Nat
  | .cmd q _ => s.ftUnit q
  | .gang g _ => s.ftCore g

/-- RING_SLOT_CLAIM: the `k`-th waiting access, when it is the first of its ring and direction and its slot has reached the needed
state before its deadline, claims it (R178, R179). -/
def State.ringClaim (s : State) (k : Nat) : State :=
  match s.ringWaits[k]? with
  | none => s
  | some w =>
    let same := fun (x : RingWait) => x.part == w.part && x.ring == w.ring && x.write == w.write && x.slot.isNone
    let first := !(s.ringWaits.take k).any same
    match s.ringDef w.part w.ring with
    | none => s
    | some r =>
      let st := s.ringSt w.part w.ring
      let late := (w.deadline r).any (fun d => decide (d ≤ s.whoFt w.who))
      if w.slot.isSome || late || !first || s.ringResets.any (fun x => x == (w.part, w.ring)) || !st.ok w.write then s
      else
        let (i, st) := st.claim r.slots w.write
        { (s.setRing w.part w.ring st) with ringWaits := setNth s.ringWaits k { w with slot := some i } }

/-- RING_TIMEOUT: a waiting access faults at `f + timeout` of its ring; 0 sets no limit (R179, R180). Log: 23 (DEDUCED). -/
def State.ringTimeout (s : State) (k : Nat) : State :=
  match s.ringWaits[k]? with
  | none => s
  | some w =>
    match s.ringDef w.part w.ring with
    | none => s
    | some r =>
      let core := w.who.core
      let late := s.expired core (w.since + r.timeout)
      if w.slot.isSome || !(w.deadline r).any (fun d => decide (d ≤ s.whoFt w.who)) || s.clockStopped (cluIdx core) then s
      else
        let s := { s with ringWaits := dropNth s.ringWaits k }
        let sub := if w.write then 2 else 1
        match w.who with
        | .cmd u id =>
          (match s.startedOf u id with
           | none => s
           | some x =>
             if u % 4 == 0 then s.opFail u x 0x38 sub 0 late
             else
               let (a, s) := s.ringAddr
               (s.wr F.coreMovFaultAddr_addr (u / 4) a).opFail u x 0x7A sub 0 late)
        | .gang g n =>
          (match s.gang g n with
           | none => s
           | some q =>
             let w := match s.launch g q.launch with
               | some la => ((s.iline g la.ctxPart la.ctx ((la.code + 8 * q.pc) / 512 * 512)).map
                   (fun l => l.words.getD ((la.code + 8 * q.pc) % 512 / 8) 0)).getD 0
               | none => 0
             s.vecFault g n 0x4E sub (q.active w) (q.stageRow w) late)

/-- A write to PART_RING_RESET; go returns the named ring to its start (R181) and reads 0 again. -/
def State.ringReset (s : State) (p v : Nat) : State :=
  let s := s.softWr .partRingReset p v
  if bitAt v 31 then (s.ringClear p (s.rd F.partRingReset_ring p)).wr F.partRingReset_go p 0 else s

/-- MOVE. -/
def execMove (g : CoreId) (s : State) : Host.Outcome State Fault Refusal := finish (s.moveRun g)
/-- RING_SLOT_CLAIM. -/
def execRingSlotClaim (k : Nat) (s : State) : Host.Outcome State Fault Refusal := finish (s.ringClaim k)
/-- RING_TIMEOUT. -/
def execRingTimeout (k : Nat) (s : State) : Host.Outcome State Fault Refusal := finish (s.ringTimeout k)
/-- RING_RESET. -/
def execRingReset (f : Func) (p : PartId) (v : Word64) (s : State) : Host.Outcome State Fault Refusal :=
  finish (s.host f .partRingReset p true (fun s => s.ringReset p v.toNat))

end Sys2Proof.Machine
end

