-- ==== Sys2Proof/Machine/QueueRows.lean ====
section
/-! DEFINITION. The events of the command queues (chapter 8): starts, completions, stops and runs, marks, tallies and bench
broadcasts. -/

namespace Sys2Proof.Machine

/-! ## Units that run a queue -/

/-- The unit that runs queue `u` is powered and in no reset; a bench queue is run by the Headframe for partition ctx_part. Log: 39 (DEDUCED). -/
def State.queueUp (s : State) (u : Nat) : Bool :=
  if isCoreQ u then s.runs (u / 4) && s.alive (u / 4)
  else !s.partDark (s.queuePart u) && (isBenchQ u || (!s.partInReset (s.queuePart u) && !s.transitHold.contains (s.queuePart u)))

/-- A number for a command that leaves its queue, above those of every started one. -/
def State.nextOf (s : State) : Nat × State := (s.nextId, { s with nextId := s.nextId + 1 })

/-! ## Checks and starts (R219, R222) -/

/-- The COLL body (R353, Table 13-6). -/
def collCheck (c : Cmd) : Nat :=
  if bits c.w4 57 7 != 0 || bits c.w5 32 32 != 0 || c.w6 != 0 || c.w7 != 0 || bits c.w4 0 10 != 0 then 0x80 else 0

/-- The engine's own checks at step 2 of R219. -/
def State.engineCheck (s : State) (u : Nat) (e : Entry) : Nat :=
  let c := e.cmd
  let g := u / 4
  if c.opcode == 0x20 then mmCheck c
  else if c.opcode == 0x21 then mmLoadCheck c
  else if c.opcode == 0x22 then s.mmStoreCheck g c
  else if c.opcode == 0x40 || c.opcode == 0x41 then s.vecCheck c
  else if c.opcode == 0x60 then updCheck c
  else if c.opcode == 0x70 then s.moveCheck g e
  else if c.opcode == 0x80 then collCheck c
  else 0

/-- A member's copy of a broadcast command has its field substituted (R225). -/
def Entry.own (e : Entry) : Entry :=
  match e.bench with
  | none => e
  | some b => { e with cmd := e.cmd.substitute b.index }

/-- The checks of a command at the head of queue `u`, in their order; 0 if it passes (Table 8-7, R219). -/
def State.headCheck (s : State) (u : Nat) (e : Entry) : Nat :=
  if !accepts (kindOf u) e.cmd.opcode then 0x03
  else if hdrFieldBad e then 0x02
  else if e.cmd.opcode == 2 && s.syncFieldBad u e.own.cmd then 0x05
  else s.engineCheck u e.own

/-- Stamp of an event that the command's message causes (R237). -/
def State.entryStamp (s : State) (u : Nat) (e : Entry) : Nat := max (s.queueFt u) (if e.bench.isSome then e.stamp + 1 else 0)

/-- The head of queue `u` leaves it with a status and no operation. -/
def State.endHead (s : State) (u : Nat) (e : Entry) (st sub : Nat) (hi : Nat := 0) (now : Option Nat := none) : State :=
  let (id, s) := (s.popHead u).nextOf
  s.complete u id e (if e.bench.isSome then e.stamp + 1 else 0) st sub hi 0x0100 now

/-- A launch may start (R111, R458). -/
def State.launchOk (s : State) (g : Nat) (c : Cmd) : Bool :=
  let st := (s.q (unitEng g 1)).started
  !s.samples.any (fun x => x.core == g && x.eng == 1 && (x.phase == .copying || x.phase == .running))
  && (if bitAt c.w4 23 then
        st.all (fun x => x.e.cmd.opcode != 0x40 || x.done.isSome || x.prog.src == 1)
        && decide (bits c.w4 17 6 ≤ countBelow 32 (fun n => s.gangFree g n)) && decide (s.resident g < 8)
      else st.isEmpty)

/-- The engine accepts the command (step 4 of R219): launches under R111, update commands and collectives one after another (R161), a
MOVE once the one before it has read its source. -/
def State.engineFree (s : State) (u : Nat) (e : Entry) : Bool :=
  let st := (s.q u).started
  let op := e.cmd.opcode
  if op == 0x40 then s.launchOk (u / 4) e.cmd
  else if op == 0x60 || op == 0x80 then st.all (fun x => x.done.isSome)
  else if op == 0x70 then st.all (fun x => x.e.cmd.opcode != 0x70 || x.done.isSome || decide ((MoveCmd.of x.e).rows ≤ x.prog.src))
  else true

/-- The second stage of an UPD command's checks: its status, or none to go on (R165). -/
def State.updStage (s : State) (u : Nat) (e : Entry) : Option State :=
  let g := u / 4
  let c := UpdCmd.of e.cmd
  let r := s.liveRow g c.rule
  if !bitAt r.w7 0 then some (s.endHead u e 0x51 0)
  else if !c.imm && s.cmHurt g c.hdr then
    let s := s.engUnc g 2 0x60 (cmRow g c.hdr)
    some ((s.wr F.coreUpdErr_faultGroup g 0).endHead u e 0x58 0)
  else
    let step := s.updStep g c
    if step == r.t then none
    else
      let s :=
        if s.flag F.coreUpdSticky_stepMismatch g then s
        else ((s.wr F.coreUpdStep_tableT g r.t).wr F.coreUpdStep_cmdStep g step).wr F.coreUpdSticky_stepMismatch g 1
      some (s.endHead u e 0x53 0 (step + r.t * 2 ^ 32))

/-- The base instant of a command that started at tick `t` (R357). -/
def State.ceBase (s : State) (t : Nat) : Nat :=
  match s.active with
  | none => t
  | some l =>
    let o := s.rd F.hfLayoutOrigin_origin 0
    if s.flag F.hfShift_open 0 && decide (o ≤ t) && l.shiftLen != 0 then o + l.shiftLen * ((t - o) / l.shiftLen) else t

/-- The head of queue `u` starts (step 4 of R219), sampled or not (R453); a fence at DEVICE or FABRIC scope invalidates the
remote-data cache of the partition (R191), and an update command reads its row (R158). -/
def State.startHead (s : State) (u : Nat) (e : Entry) : State :=
  let at_ := s.startStamp u e
  let base := if e.cmd.opcode == 0x80 then s.ceBase at_ else 0
  let (id, s) := (s.popHead u).nextOf
  let s := if e.cmd.fence == 4 || e.cmd.fence == 5 then s.rdcInvalidate (s.queuePart u) else s
  let (hold, s) := if isCoreQ u then s.sample (u / 4) (u % 4) id e else (false, s)
  let q := s.q u
  let words := if e.cmd.opcode == 0x60 then s.liveWords (u / 4) (UpdCmd.of e.cmd).rule else []
  s.setQ u { q with started := q.started ++ [{ id := id, e := e, at_ := at_, prog := { ready := !hold, words := words, base := base } }] }

/-- The wait bits of STATE show what the head waits for (Table 8-6). Log: 43 (DEDUCED). -/
def State.showWaits (s : State) (u : Nat) (c : Cmd) : State :=
  ((s.wr F.qState_markWait u (ofBool (!s.markOk u c))).wr F.qState_gateWait u (ofBool (!s.gateOk u c))).wr
    F.qState_fenceWait u (ofBool (!s.fenceOk u c))

/-- COMMAND_START: the head of queue `u` is checked, waits, or starts (R219 to R222). A command whose deadline has come does not
start, and LATE comes before every other status (R221, R222). -/
def State.startCommand (s : State) (u : Nat) : State :=
  match (s.q u).waiting with
  | [] => s
  | e :: _ =>
    if isBenchQ u || !s.mayStart u then s
    else
      match e.err with
      | some (st, sub) => s.endHead u e st sub
      | none =>
        let bad := s.headCheck u e
        if s.pastDeadline u e.cmd then s
        else if bad != 0 then s.endHead u e bad 0
        else
          let e := e.own
          let s := s.showWaits u e.cmd
          if !s.markOk u e.cmd || !s.gateOk u e.cmd || !s.fenceOk u e.cmd || !s.engineFree u e then s
          else
            match (if e.cmd.opcode == 0x60 then s.updStage u e else none) with
            | some s => s
            | none => s.startHead u e

/-- LATE: the deadline of the head of queue `u` has come and it has not started (R221), in an activation not before the resume (R506); a limit that ran out while the clock stood keeps
its own stamp (R294). -/
def State.lateHead (s : State) (u : Nat) : State :=
  match (s.q u).waiting with
  | [] => s
  | e :: _ =>
    if isBenchQ u || s.qst u != 1 || !s.queueUp u || s.act.any (fun a => a.begun) || e.err.isSome || !s.pastDeadline u e.cmd then s
    else s.endHead u e.own 0x01 0 0 (if isCoreQ u then s.expired (u / 4) e.cmd.w2 else none)

/-! ## Operations of the common commands, and completion -/

/-- NOP does nothing but what its header asks for (R210). -/
def State.nopRun (s : State) (u : Nat) : State :=
  match s.oldest u 0x00 with
  | none => s
  | some x => s.opDone u x.id

/-- SYNC: the remote add with release semantics, and the user tally (R211). -/
def State.syncRun (s : State) (u : Nat) : State :=
  match s.oldest u 0x02 with
  | none => s
  | some x =>
    let c := x.e.cmd
    let stamp := max (s.queueFt u) x.at_
    let s :=
      if bitAt c.w4 0 then
        s.signal u x.id { part := bits c.w4 1 3, mark := bits c.w4 4 12, add := c.w5, stamp := stamp, src := u }
      else s
    let ev := bits c.w6 0 16
    let s := if ev != 0 then s.tallyAt stamp (s.queuePart u) c.tallyRing u ev 0 c.w7 0 else s
    s.opDone u x.id

/-- The entry as its completion uses it: the user tally of a SYNC replaces its completion tally (R211). -/
def Entry.forEnd (e : Entry) : Entry :=
  if e.cmd.opcode == 2 && bits e.cmd.w6 0 16 != 0 then { e with cmd := { e.cmd with w0 := putBits e.cmd.w0 13 1 0 } } else e

/-- The results of a sampled command that has completed are locked and sent to its witness (R459). -/
def State.compareFor (s : State) (u id : Nat) : State :=
  match s.samples.find? (fun y => y.isOf u id) with
  | some y => s.compareStart y
  | none => s

/-- COMMAND_COMPLETE: the oldest started command of queue `u` completes once its operation is over (R229); launches of a vector queue
complete in any order (R111). Log: 40 (DEDUCED). -/
def State.completeNext (s : State) (u : Nat) : State :=
  let st := (s.q u).started
  let next := if isCoreQ u && u % 4 == 1 then st.find? (fun x => x.done.isSome) else (st.head?).filter (fun x => x.done.isSome)
  match next with
  | none => s
  | some x =>
    if isCoreQ u && !s.runs (u / 4) then s
    else
      let (c, sub) := x.done.getD (0, 0)
      (((s.dropStarted u x.id).complete u x.id x.e.forEnd x.at_ c sub).compareFor u x.id).flushHeld u

/-! ## Queue registers that the host writes (R215, R216, R226) -/

/-- A run = 1 write, accepted or refused (R216); a bench queue whose member is still HALTED halts again at once (R226). Log: 38 (DEDUCED), 39 (DEDUCED). -/
def State.runQueue (s : State) (u : Nat) : State :=
  let sz := s.rd F.qCtrl_sizeLog2 u
  let noMember := (s.benchMode u && !s.flag F.qBench_member u) || (isBenchQ u && !s.benchExists ((u - 18456) / 4))
  if sz < 3 || 16 < sz || noMember || !s.ready then s.wr F.qState_cfgErr u 1
  else
    let s := s.wr F.qState_cfgErr u 0
    let s := if s.qst u == 2 then s.resumeNote u else s
    let s := s.setQst u 1
    if !isBenchQ u then s
    else
      let s := s.wr F.qMember_hvalid u 0
      let b := (u - 18456) / 4
      let e := (u - 18456) % 4
      match s.haltedMember b e with
      | some g => s.benchHalt u g (unitEng g e)
      | none => s

/-- A write to CTRL (R216, R224). Log: 39 (DEDUCED). -/
def State.ctrlWrite (s : State) (u v : Nat) : State :=
  if s.qst u == 1 then (if bitAt v 12 then s.wr F.qState_cfgErr u 0 else s.stopQueue u)
  else
    let s := (s.wr F.qCtrl_ctx u (bits v 0 6)).wr F.qCtrl_sizeLog2 u (bits v 6 5)
    let s := s.wr F.qCtrl_tag u (bits v 32 16)
    let s := if isCoreQ u then s.setMode u (bits v 11 1) else s
    let s := if isBenchQ u then s.wr F.qCtrl_ctxPart u (bits v 13 3) else s
    if bitAt v 12 then s.runQueue u else s.setQst u 0

/-- A write to BASE or HEAD is ignored while the queue is RUNNING (R216). -/
def State.idleWrite (s : State) (r : RegName) (u v : Nat) : State := if s.qst u == 1 then s else s.softWr r u v

/-- A write to TAIL (R215). -/
def State.tailWrite (s : State) (u v : Nat) : State :=
  let tail := bits v 0 16
  let tag := bits v 16 16
  let s := s.wr F.qTail_tailTag u tag
  if tag == s.rd F.qCtrl_tag u then s.wr F.qTail_tail u tail
  else ((s.wr F.qTail_pendTail u tail).wr F.qTail_pendTag u tag).wr F.qState_pendValid u 1

/-! ## Marks -/

/-- A host write sets a mark (R227). -/
def State.markSet (s : State) (p m v : Nat) : State :=
  { (s.wr F.partMark_value (markIdx p m) v) with markStamp := mput s.markStamp (markIdx p m) [(v, 0)] }

/-- A host write adds to a mark; it carries no stamp. -/
def State.markBump (s : State) (p m v : Nat) : State :=
  let i := markIdx p m
  let x := (s.mark p m + v) % 2 ^ 64
  { (s.wr F.partMark_value i x) with markStamp := mput s.markStamp i (s.markHist i ++ [(x, 0)]) }

/-- The `k`-th add on its way reaches its mark (R230), behind what its source sent before it (R236, R321). -/
def State.addArrive (s : State) (k : Nat) : State :=
  match s.adds[k]? with
  | none => s
  | some a => if s.sentBefore a.src a.num || s.transitHold.contains a.part then s else { s with adds := dropNth s.adds k }.markAdd a

/-! ## Tallies (R231, R233) -/

/-- A row of a tally ring may lie at DPA `d` (R233). Log: 42 (DEDUCED). -/
def State.ringRowOk (s : State) (p d : Nat) : Bool :=
  match s.resolve d with
  | none => false
  | some c =>
    decide (c < cmBase)
    && (if s.active.isNone then decide (c < hbmEnd) || s.ownerOf c == p else bitAt (s.tenancyMask p) (s.ownerOf c))

/-- The ring is configured: its first DPA and its number of records (R233). -/
def State.tallyRing (s : State) (p r : Nat) : Option (Nat × Nat) :=
  let i := p * 8 + r
  let n := s.rd F.partTallyBase_sizeLog2 i
  let base := s.rd F.partTallyBase_dpa i * 512
  if n < 4 || 24 < n then none
  else if (List.range (2 ^ n / 16)).all (fun k => s.ringRowOk p (base + 512 * k)) then some (base, 2 ^ n)
  else none

/-- Records of a ring not yet consumed. Log: 42 (DEDUCED). -/
def State.tallyHeld (s : State) (i : Nat) : Nat := (s.rd F.partTallyWr_wr i + 2 ^ 32 - s.rd F.partTallyRd_rd i) % 2 ^ 32

/-- The ring is at its level (Table 15-5). -/
def State.atLevel (s : State) (i : Nat) : Bool :=
  s.rd F.partTallyRd_level i != 0 && decide (s.rd F.partTallyRd_level i ≤ s.tallyHeld i)

/-- The 32 bytes of a record (Table 8-9). -/
def State.tallyBytes (s : State) (t : Tally) : List Byte :=
  let member := if s.flag F.hfVxId_idValid 0 then s.rd F.hfVxId_id 0 else 0
  leBytes 8 t.ft ++ leBytes 4 (member * 2 ^ 15 + t.unit) ++ leBytes 2 t.event ++ leBytes 1 t.status ++ leBytes 1 t.seq
    ++ leBytes 8 t.payLo ++ leBytes 8 t.payHi

/-- The `k`-th tally on its way reaches its ring, behind those its source sent before it (R231, R236, R321): written before wr advances,
or dropped and counted, in nacks too where its home is dark (R233, R314). A line of HBM that the host holds comes back first (R407). Log: 42 (DEDUCED). -/
def State.tallyWrite (s : State) (k : Nat) : State :=
  match s.tallies[k]? with
  | none => s
  | some t =>
    let i := t.part * 8 + t.ring
    let lose := fun (s : State) => s.inc F.partTallyWr_lost i
    let s' := { s with tallies := dropNth s.tallies k }
    if s.sentBefore t.unit t.num || s.transitHold.contains t.part then s
    else if s.partDark t.part then lose s'
    else
      match s.tallyRing t.part t.ring with
      | none => lose s'
      | some (base, n) =>
        if n ≤ s.tallyHeld i then lose s'
        else
          match s.resolve (base + 32 * (s.rd F.partTallyWr_wr i % n)) with
          | none => lose s'
          | some d =>
            let row := d / 512 * 512
            if s.homeDark row then lose (s'.inc F.partNetErr_nacks t.part)
            else if s.sliceLost row || s.snoopLost row then lose s'
            else if !(s.heldByHost row true).isEmpty then s.snoop row true
            else
              let was := s.atLevel i
              let s := { s' with mem := s'.mem.wrN d (s.tallyBytes t) }
              let s := s.wr F.partTallyWr_wr i ((s.rd F.partTallyWr_wr i + 1) % 2 ^ 32)
              if !was && s.atLevel i then s.raise (8 * t.part + t.ring) else s

/-- A write to PART_TALLY_RD (R415). -/
def State.tallyRdWrite (s : State) (p r v : Nat) : State :=
  let i := p * 8 + r
  let s := s.softWr .partTallyRd i v
  if s.atLevel i then s.raise (8 * p + r) else s

/-! ## Events -/

/-- NOP. -/
def execNop (q : QId) (s : State) : Host.Outcome State Fault Refusal := finish (s.nopRun (qUnit q))
/-- JUMP. -/
def execJump (q : QId) (s : State) : Host.Outcome State Fault Refusal :=
  finish (if s.queueUp (qUnit q) then s.takeJump (qUnit q) else s)
/-- SYNC. -/
def execSync (q : QId) (s : State) : Host.Outcome State Fault Refusal := finish (s.syncRun (qUnit q))
/-- COMMAND_FETCH. -/
def execCommandFetch (q : QId) (s : State) : Host.Outcome State Fault Refusal :=
  finish (if s.queueUp (qUnit q) then s.fetchRow (qUnit q) else s)
/-- COMMAND_START. -/
def execCommandStart (q : QId) (s : State) : Host.Outcome State Fault Refusal := finish (s.startCommand (qUnit q))
/-- LATE. -/
def execLate (q : QId) (s : State) : Host.Outcome State Fault Refusal := finish (s.lateHead (qUnit q))
/-- COMMAND_COMPLETE. -/
def execCommandComplete (q : QId) (s : State) : Host.Outcome State Fault Refusal := finish (s.completeNext (qUnit q))
/-- QUEUE_RUN: a write of run = 1 to CTRL. -/
def execQueueRun (f : Func) (q : QId) (v : Word64) (s : State) : Host.Outcome State Fault Refusal :=
  finish (if bitAt v.toNat 12 then s.host f .qCtrl (qUnit q) true (fun s => s.ctrlWrite (qUnit q) v.toNat) else s)
/-- QUEUE_STOP: a write of run = 0 to CTRL. -/
def execQueueStop (f : Func) (q : QId) (v : Word64) (s : State) : Host.Outcome State Fault Refusal :=
  finish (if bitAt v.toNat 12 then s else s.host f .qCtrl (qUnit q) true (fun s => s.ctrlWrite (qUnit q) v.toNat))
/-- TAIL_WRITE. -/
def execTailWrite (f : Func) (q : QId) (v : Word64) (s : State) : Host.Outcome State Fault Refusal :=
  finish (s.host f .qTail (qUnit q) true (fun s => s.tailWrite (qUnit q) v.toNat))
/-- BENCH_BROADCAST. -/
def execBenchBroadcast (b : BenchId) (e : Fin 4) (s : State) : Host.Outcome State Fault Refusal := finish (s.broadcast b e)
/-- MARK_WRITE. -/
def execMarkWrite (f : Func) (p : PartId) (m : MarkId) (v : Word64) (s : State) : Host.Outcome State Fault Refusal :=
  finish (s.host f .partMark (markIdx p m) true (fun s => s.markSet p m v.toNat))
/-- MARK_ADD. -/
def execMarkAdd (f : Func) (p : PartId) (m : MarkId) (v : Word64) (s : State) : Host.Outcome State Fault Refusal :=
  finish (s.host f .partMarkAdd (markIdx p m) true (fun s => s.markBump p m v.toNat))
/-- MARK_ADD_ARRIVE. -/
def execMarkAddArrive (k : Nat) (s : State) : Host.Outcome State Fault Refusal := finish (s.addArrive k)
/-- TALLY_WRITE. -/
def execTallyWrite (k : Nat) (s : State) : Host.Outcome State Fault Refusal := finish (s.tallyWrite k)
/-- TALLY_RD_WRITE. -/
def execTallyRdWrite (f : Func) (p : PartId) (r : Fin 8) (v : Word64) (s : State) : Host.Outcome State Fault Refusal :=
  finish (s.host f .partTallyRd (p.val * 8 + r.val) true (fun s => s.tallyRdWrite p r v.toNat))

end Sys2Proof.Machine
end

