-- ==== Sys2Proof/Machine/Collective.lean ====
section
/-! DEFINITION. The collective engines (chapter 13): descriptors, combining, sign-majority, messages up and down, copies, drops and
completion. -/

namespace Sys2Proof.Machine

/-! ## Descriptors (Tables 13-2 and 13-3) -/

/-- Operation: 0 ALL_REDUCE, 1 REDUCE_SCATTER, 2 ALL_GATHER, 3 BROADCAST, 4 ALL_TO_ALL. -/
def Coll.op (c : Coll) : Nat := bits (c.d 0) 0 3
/-- Reduction: 0 SUM, 1 MAX, 2 MIN, 3 SIGN_MAJ. -/
def Coll.red (c : Coll) : Nat := bits (c.d 0) 3 3
/-- Format of the sources. -/
def Coll.inFmt (c : Coll) : Nat := bits (c.d 0) 6 4
/-- Format code of partials: 0 FP32, 1 BF16. -/
def Coll.wireFmt (c : Coll) : Nat := bits (c.d 0) 10 4
/-- Format of the result. -/
def Coll.outFmt (c : Coll) : Nat := bits (c.d 0) 14 4
/-- conv_mode. -/
def Coll.nonsat (c : Coll) : Bool := bitAt (c.d 0) 18
/-- Child entries used. -/
def Coll.nchild (c : Coll) : Nat := bits (c.d 0) 19 5
/-- This module is the root. -/
def Coll.root (c : Coll) : Bool := bitAt (c.d 0) 24
/-- The operation combines values. -/
def Coll.reduces (c : Coll) : Bool := decide (c.op ≤ 1)
/-- The operation counts votes. -/
def Coll.votes (c : Coll) : Bool := c.reduces && c.red == 3
/-- Elements of the tensor. -/
def Coll.elements (c : Coll) : Nat := bits (c.d 1) 0 32
/-- Tree tag. -/
def Coll.tag (c : Coll) : Nat := bits (c.d 1) 32 16
/-- Sources. -/
def Coll.nsrc (c : Coll) : Nat := bits (c.d 3) 32 13
/-- Least number of voters. -/
def Coll.quorum (c : Coll) : Nat := bits (c.d 8) 0 18
/-- Modules of the subtree. -/
def Coll.size (c : Coll) : Nat := bits (c.d 8) 18 18
/-- This module's element range: its first element and its length. -/
def Coll.local_ (c : Coll) : Nat × Nat := (bits (c.d 7) 0 32, bits (c.d 7) 32 32)
/-- Ticks from the base instant after which a message is late; 0 for none. -/
def Coll.arriveRef (c : Coll) : Nat := bits (c.d 10) 0 32
/-- Ticks from the base instant that a child is waited for; 0 without limit. -/
def Coll.childWait (c : Coll) : Nat := bits (c.d 10) 32 32
/-- Deadline of every offer, if it has one (R369). -/
def Coll.sendDl (c : Coll) : Option Nat := if bits (c.d 11) 0 32 == 0 then none else some (c.base + bits (c.d 11) 0 32)
/-- Booking on which child `j` sends. -/
def Coll.upIn (c : Coll) (j : Nat) : Nat := bits (c.d (32 + 4 * j)) 0 12
/-- Booking toward child `j`. -/
def Coll.downOut (c : Coll) (j : Nat) : Nat := bits (c.d (32 + 4 * j)) 12 12
/-- Modules of the subtree of child `j`. -/
def Coll.csize (c : Coll) (j : Nat) : Nat := bits (c.d (32 + 4 * j)) 24 18
/-- Range of child `j`. -/
def Coll.crange (c : Coll) (j : Nat) : Nat × Nat := (bits (c.d (33 + 4 * j)) 0 32, bits (c.d (34 + 4 * j)) 0 32)
/-- The ranges of the children. -/
def Coll.cranges (c : Coll) : List (Nat × Nat) := (List.range c.nchild).map c.crange

/-- Two ranges share an element. -/
def meets (a b : Nat × Nat) : Bool := decide (a.1 < b.1 + b.2) && decide (b.1 < a.1 + a.2) && a.2 != 0 && b.2 != 0

/-- Some two ranges of a list share an element. -/
def anyMeet : List (Nat × Nat) → Bool
  | [] => false
  | a :: r => r.any (meets a) || anyMeet r

/-- First element and end of the union of some ranges. -/
def spanOf (l : List (Nat × Nat)) : Nat × Nat :=
  let l := l.filter (fun r => r.2 != 0)
  ((l.map (·.1)).foldl min ((l.head?.map (·.1)).getD 0), (l.map (fun r => r.1 + r.2)).foldl max 0)

/-- The union of some ranges is contiguous: every range but the first starts inside or right after the others. Log: 77 (DEDUCED). -/
def contiguous (l : List (Nat × Nat)) : Bool :=
  let l := l.filter (fun r => r.2 != 0)
  let (lo, _) := spanOf l
  l.all (fun r => r.1 == lo || l.any (fun q => decide (q.1 < r.1) && decide (r.1 ≤ q.1 + q.2)))

/-- Range of the module's subtree (R355). -/
def Coll.subRange (c : Coll) : Nat × Nat :=
  let (lo, hi) := spanOf (c.local_ :: c.cranges)
  (lo, hi - lo)

/-- A format that in_fmt and out_fmt allow. Log: 80 (DEDUCED). -/
def ceFmt (f : Nat) : Bool := f == 0 || f == 1 || f == 3 || f == 4

/-- CE_DESC (Table 13-6). Log: 77 (DEDUCED). -/
def Coll.descBad (c : Coll) : Bool :=
  let reserved :=
    bits (c.d 0) 25 39 != 0 || bits (c.d 1) 48 16 != 0 || bits (c.d 2) 57 7 != 0 || bits (c.d 3) 45 19 != 0 || bits (c.d 4) 57 7 != 0
    || bits (c.d 5) 45 19 != 0 || bits (c.d 6) 57 7 != 0 || bits (c.d 8) 36 28 != 0 || bits (c.d 9) 24 40 != 0 || bits (c.d 11) 32 32 != 0
    || (List.range 20).any (fun i => c.d (12 + i) != 0) || (List.range 32).any (fun i => c.d (96 + i) != 0)
    || (List.range 16).any (fun j => bits (c.d (32 + 4 * j)) 42 22 != 0 || bits (c.d (33 + 4 * j)) 32 32 != 0
                                      || bits (c.d (34 + 4 * j)) 32 32 != 0 || c.d (35 + 4 * j) != 0)
  let range :=
    4 < c.op || 3 < c.red || 1 < c.wireFmt || 16 < c.nchild || c.elements == 0 || 2 ^ 31 < c.elements
    || bits (c.d 2) 0 9 != 0 || bits (c.d 4) 0 9 != 0 || bits (c.d 6) 0 9 != 0
    || c.nsrc == 0 || 4608 < c.nsrc || (!c.reduces && c.nsrc != 1)
    || bits (c.d 5) 32 13 == 0 || 4608 < bits (c.d 5) 32 13 || 131072 < c.quorum
    || (c.op != 4 && (c.size == 0 || 131072 < c.size))
    || (List.range c.nchild).any (fun j => c.csize j == 0 || 131072 < c.csize j)
  let scatter := c.op == 1 || c.op == 2
  reserved || range
  || !ceFmt c.inFmt || !ceFmt c.outFmt
  || (!c.reduces && c.red != 0) || (c.votes && c.outFmt != 0)
  || (scatter && (anyMeet c.cranges || !contiguous (c.local_ :: c.cranges) || decide (c.elements < c.subRange.1 + c.subRange.2)))
  || (c.op != 4 && c.size != 1 + ((List.range c.nchild).map c.csize).foldl (· + ·) 0)

/-- Bits of a vote count of a sender of a size (R364). -/
def countWidth (size : Nat) : Nat :=
  if size < 2 then 1 else if size < 4 then 2 else if size < 16 then 4 else if size < 256 then 8 else if size < 65536 then 16 else 32

/-- Width field, elements and bits of an element of the message that goes up from a subtree of a size and range (Table 13-4). -/
def Coll.upShape (c : Coll) (size : Nat) (r : Nat × Nat) : Nat × Nat × Nat :=
  if c.votes then (countWidth size, c.elements, countWidth size)
  else if c.reduces then (0, c.elements, cvtWidth c.wireFmt)
  else if c.op == 4 then (0, c.local_.2, cvtWidth c.inFmt)
  else (0, r.2, cvtWidth c.inFmt)

/-- The same of the message of child or peer `j`. -/
def Coll.childShape (c : Coll) (j : Nat) : Nat × Nat × Nat := c.upShape (c.csize j) (c.crange j)

/-- Range of the elements that go down to a subtree. -/
def Coll.downRange (c : Coll) (r : Nat × Nat) : Nat × Nat := if c.op == 1 then r else (0, c.elements)

/-- Bytes of `n` packed elements of `w` bits; the codes of a sign-majority result fill whole words (R28). -/
def Coll.dataLen (ternary : Bool) (n w : Nat) : Nat := if ternary then dataBytes n w else ceilDiv (n * w) 8

/-- Children send messages up in this operation. -/
def Coll.upward (c : Coll) : Bool := c.op != 3

/-- CE_RANGE (Table 13-6): every booking that a message arrives on has a valid landing entry with slots long enough. Log: 77 (DEDUCED). -/
def State.ceRangeBad (s : State) (p : Nat) (c : Coll) : Bool :=
  let short := fun (b len : Nat) => match s.landOf p b with
    | none => true
    | some k => decide (s.slotBytes k < len)
  let up := (List.range c.nchild).any (fun j =>
    let (_, n, w) := c.childShape j
    short (c.upIn j) (64 + Coll.dataLen false n w))
  let down := short (bits (c.d 9) 12 12) (64 + Coll.dataLen c.votes (c.downRange c.subRange).2 c.outWidth)
  (c.upward && up) || (c.op != 4 && !c.root && down)

/-! ## Rows -/

/-- What the rows of an access give: their DPAs, a wait, or a status with its subcode. -/
inductive CeRows where
  | ok (ds : List Nat)
  | wait
  | stop (st sub : Nat)
  deriving DecidableEq, Repr

/-- A number outside the cores for the engine of partition `p`. -/
def ceUser (p : Nat) : Nat := tlbCore (unitColl p)

/-- The engine has read a row with an uncorrectable error (R197, R199, R472). Log: 80 (DEDUCED). -/
def State.ceUnc (s : State) (p d : Nat) : State :=
  let s := (if s.mem.hurt d 512 then (s.memUnc d).softEntry d else s).partErr p 3 0x3FF
  s.report 0x03 { s.blank (unitColl p) with part := p, opcode := 0x80, detail := [storeCode d, d] }

/-- Whether the row at a DPA can be read or written now; a unit in reset answers with CE_UNCORR, subcode 1 (Table 18-5). Log: 80 (DEDUCED). -/
def State.ceRow (s : State) (p d : Nat) (write : Bool) : Option CeRows × State :=
  match s.nack (ceUser p) d with
  | some k =>
    (some (.stop 0x89 (if k == 3 then 1 else 0)),
     if k == 3 then s.inc F.partRstStat_absorbed (s.ownerOf d) else s.inc F.partNetErr_nacks p)
  | none =>
    if s.sliceLost d then (some (.stop 0x89 0), s.ceUnc p d)
    else if s.snoopLost d then
      (some (.stop 0x89 0), { s with snoopDead := s.snoopDead.filter (fun l => l * 64 / 512 * 512 != d) }.ceUnc p d)
    else if !(s.heldByHost d write).isEmpty then (some .wait, s.snoop d write)
    else if write && s.lockedMem d 512 then (some .wait, s)
    else if !write && s.mem.hurt d 512 then (some (.stop 0x89 0), s.ceUnc p d)
    else (none, if write then s else s.corr d 512)

/-- Rows at DPAs. -/
def State.ceDpas (s : State) (p : Nat) (write : Bool) : List Nat → List Nat → CeRows × State
  | [], acc => (.ok acc.reverse, s)
  | d :: r, acc =>
    match s.ceRow p d write with
    | (some x, s) => (x, s)
    | (none, s) => s.ceDpas p write r (d :: acc)

/-- Rows at virtual addresses of a context. -/
def State.ceRows (s : State) (p : Nat) (x : Nat × Nat) (write : Bool) : List Nat → List Nat → CeRows × State
  | [], acc => (.ok acc.reverse, s)
  | va :: r, acc =>
    match s.xlat (ceUser p) x.1 x.2 (va % 2 ^ 57) write with
    | (.fail k, s) => (if k == 9 then .stop 0x89 0 else .stop 0x88 k, s)
    | (.ok d, s) =>
      match s.ceRow p d write with
      | (some y, s) => (y, s)
      | (none, s) => s.ceRows p x write r (d :: acc)

/-- Bytes of some rows. -/
def State.rowBytes (s : State) (ds : List Nat) : List Byte := ds.flatMap (fun d => s.mem.rdN d 512)

/-- Rows written with the pieces of some data, in order. -/
def State.putRows (s : State) (p : Nat) (ds : List Nat) (rows : List (List Byte)) : State :=
  (ds.zip rows).foldl (fun s e => { (s.rdcWrite p e.1 e.2) with mem := s.mem.wrN e.1 e.2 }) s

/-- `n` elements of `w` bits of some bytes, from bit 0 of the first byte on. -/
def ceUnpack (w n : Nat) (l : List Byte) : List Nat :=
  let x := leNat l
  (List.range n).map (fun i => bits x (w * i) w)

/-- Elements of `w` bits as a number, element 0 lowest. -/
def ceJoin (w : Nat) (xs : List Nat) : Nat := xs.foldr (fun x acc => x % 2 ^ w + acc * 2 ^ w) 0

/-- Elements packed into `n` bytes. -/
def cePack (w n : Nat) (xs : List Nat) : List Byte := leBytes n (ceJoin w xs)

/-! ## Messages (R367, R368) -/

/-- The reduction header (Table 13-5). Log: 76 (DEDUCED), 78 (DEDUCED). -/
def Coll.header (c : Coll) (w elements voters quorum flags ft : Nat) : List Byte :=
  leBytes 2 c.tag ++ leBytes 1 (c.op + c.red * 8) ++ leBytes 1 w ++ leBytes 4 elements ++ leBytes 4 c.step ++ leBytes 4 voters
    ++ leBytes 4 quorum ++ leBytes 1 flags ++ leBytes 3 0 ++ leBytes 8 ft ++ leBytes 32 0

/-- Subcode of CE_MISMATCH of a message, 0 if it agrees with the command (R368). Log: 78 (DEDUCED). -/
def Coll.mismatch (c : Coll) (l : List Byte) (w elements : Nat) : Nat :=
  let f := fun (a n : Nat) => leNat ((l.drop a).take n)
  if f 0 2 != c.tag then 1
  else if f 8 4 != c.step then 2
  else if f 2 1 != c.op + c.red * 8 || f 4 4 != elements || f 3 1 != w then 3
  else 0

/-- An offer of the running command on a booking (R369). -/
def State.ceOffer (s : State) (p : Nat) (book : Nat) (data : List Byte) : State :=
  match mget s.colls p with
  | none => s
  | some c =>
    let o : Offer := { id := s.offerNext, part := p, book := book, data := data, deadline := c.sendDl }
    { s with offerNext := s.offerNext + 1, offers := s.offers ++ [o], colls := mput s.colls p { c with offers := c.offers ++ [o.id] } }

/-- A tally of the running command: to its tally_ring, or to fault_ring (R376). Log: 79 (DEDUCED). -/
def State.ceNote (s : State) (p : Nat) (e : Entry) (event lo hi : Nat) : State :=
  let ring := if e.cmd.tallyEn then e.cmd.tallyRing else s.rd F.partTallyCtrl_faultRing p
  s.tallyAt (s.ftPart p) p ring (unitColl p) event 0 lo hi

/-- The bytes of the oldest message of a landing entry, once its rows can be read. -/
def State.landRead (s : State) (p k : Nat) (m : LandMsg) : CeRows × State :=
  let ds := (List.range (ceilDiv m.len 512)).map (fun i => s.resolve (s.slotDpa k m.slot + 512 * i))
  if ds.any Option.isNone then (.stop 0x88 3, s) else s.ceDpas p false (ds.filterMap id) []

/-! ## Start (R354, R357, R374) -/

/-- COLL: the started command reads its descriptor and is checked against it. -/
def State.collStart (s : State) (p : Nat) : State :=
  let u := unitColl p
  match s.oldest u 0x80, mget s.colls p with
  | some x, none =>
    if !s.queueUp u then s
    else
      let (cp, cx) := s.cmdCtx u x.e
      let va := bits x.e.cmd.w4 0 57
      match s.ceRows p (cp, cx) false [va, va + 512] [] with
      | (.wait, s) => s
      | (.stop st sub, s) => s.opFail u x st sub
      | (.ok ds, s) =>
        let c : Coll := { id := x.id, desc := (chunks 8 128 (s.rowBytes ds)).map leNat, base := x.prog.base, step := bits x.e.cmd.w5 0 32,
                          ctxPart := cp, ctx := cx }
        if c.descBad then s.opFail u x 0x81 0
        else if s.ceRangeBad p c then s.opFail u x 0x82 0
        else { s with colls := mput s.colls p c }
  | _, _ => s

/-! ## Local value (R358, R359, R363) -/

/-- Elements of one source (Table 13-4). -/
def Coll.srcElems (c : Coll) : Nat :=
  if c.op == 2 then c.local_.2 else if c.op == 4 then (c.nchild + 1) * c.local_.2 else c.elements

/-- Rows of one source. -/
def Coll.srcRows (c : Coll) : Nat := ceilDiv (dataBytes c.srcElems (cvtWidth c.inFmt)) 512

/-- Virtual addresses of the rows of every source; a BROADCAST reads its source at the root only. -/
def Coll.srcVas (c : Coll) : List Nat :=
  if c.op == 3 && !c.root then []
  else (List.range c.nsrc).flatMap (fun i =>
    (List.range c.srcRows).map (fun r => bits (c.d 2) 0 57 + 512 * (i * bits (c.d 3) 0 32 + r)))

/-- Virtual addresses of the working area. -/
def Coll.scratchVas (c : Coll) : List Nat :=
  if c.reduces then (List.range (ceilDiv (4 * c.elements) 512)).map (fun r => bits (c.d 6) 0 57 + 512 * r) else []

/-- One combination of FP32 words (R359). Votes are taken from sums. -/
def ceCombine (red a b : Nat) : Nat :=
  if red == 1 then Fmt.fp32.ieee (fmaxOf (f32 a) (f32 b))
  else if red == 2 then Fmt.fp32.ieee (fminOf (f32 a) (f32 b))
  else Fmt.fp32.ieee (FVal.add (f32 a) (f32 b))

/-- The local value from the sources' elements in increasing source index (R358). -/
def ceLocal (red : Nat) : List (List Nat) → List Nat
  | [] => []
  | x :: r => r.foldl (fun acc y => acc.zipWith (ceCombine red) y) x

/-- Vote of a local value (R363). Log: 76 (DEDUCED). -/
def ceVote (w : Nat) : Nat := ofBool (!(f32 w).isNan && !(f32 w).isZero && FVal.neg? (f32 w))

/-- Elements of a part of a list set. -/
def setRange (l : List Nat) (first : Nat) (xs : List Nat) : List Nat := l.take first ++ xs ++ l.drop (first + xs.length)

/-- Words converted to a format and the clamps of them (R359, R44). -/
def ceRound (fmt : Nat) (nonsat : Bool) (xs : List Nat) : List Nat × Nat :=
  let cs := xs.map (fun x => cvtConvert fmt nonsat (f32 x))
  (cs.map Conv.w, (cs.map Conv.sat).foldl (· + ·) 0)

/-- The ternary code of an element (R365). Log: 76 (DEDUCED). -/
def ceTernary (v quorum n : Nat) : Nat := if v < quorum || 2 * n == v then 0 else if 2 * n < v then 1 else 3

/-! ## Copies and messages down (R356, R361) -/

/-- Header fields of a result: voters, quorum and flags. -/
structure CeHead where
  voters : Nat
  quorum : Nat
  flags : Nat
  deriving DecidableEq, Repr

/-- The rows of a copy: the header row, whose bytes after the header the spec does not state, and the data padded with zeros. -/
def Coll.copyBytes (c : Coll) (h : CeHead) (id ft : Nat) (data : List Byte) : List (List Byte) :=
  let w0 := c.header 0 c.copyElems h.voters h.quorum h.flags ft
  let row0 := w0 ++ (List.range 448).map (fun i => Config.residue id (64 + i))
  let n := c.copyRows - 1
  row0 :: chunks 512 n (data ++ List.replicate (512 * n - data.length) 0)

/-- The node writes every copy of a result that starts at element `first` and offers each child its part; none while a row has to wait. -/
def State.ceResult (s : State) (p : Nat) (c : Coll) (first : Nat) (xs : List Nat) (h : CeHead) (pop : Option Nat) : State :=
  let popped := fun (s : State) => match pop with
    | some k => s.landPop k
    | none => s
  match s.ceRows p (c.ctxPart, c.ctx) true c.copyVas [] with
  | (.wait, s) => s
  | (.stop st sub, s) => (popped s).collFail p st sub
  | (.ok ds, s) =>
    let part := fun (r : Nat × Nat) => (xs.drop (r.1 - first)).take r.2
    let mine := if c.op == 1 then part c.local_ else xs
    let pack := fun (l : List Nat) => cePack c.outWidth (Coll.dataLen c.votes l.length c.outWidth) l
    let rows := c.copyBytes h s.freeCtr (s.ftPart p) (pack mine)
    let n := bits (c.d 5) 32 13
    let s := popped ({ s with freeCtr := s.freeCtr + 1 }.putRows p ds ((List.replicate n rows).flatten))
    let s := { s with colls := mput s.colls p { c with phase := 3, acc := [], blocks := [] } }
    if c.op == 4 then s
    else (List.range c.nchild).foldl (fun s j =>
      let r := c.downRange (c.crange j)
      s.ceOffer p (c.downOut j) (c.header 0 r.2 h.voters h.quorum h.flags 0 ++ pack (part r))) s

/-- Flags of a result or of a message down. -/
def ceFlags (below dropped : Bool) : Nat := 1 + 2 * ofBool below + 4 * ofBool dropped

/-- Every child of the node is combined: the partial goes up, or the root resolves the result (R359, R360, R364, R365). -/
def State.ceUp (s : State) (p : Nat) (c : Coll) (pop : Option Nat) : State :=
  let done := fun (s : State) => match pop with
    | some k => s.landPop k
    | none => s
  if c.op == 4 then
    let (f, s) := s.fresh
    let h : CeHead := { voters := f % 2 ^ 32, quorum := f / 2 ^ 32 % 2 ^ 32, flags := ceFlags false false }
    s.ceResult p c 0 c.blocks.flatten h pop
  else if c.root then
    if c.votes then
      let h : CeHead := { voters := c.voters, quorum := c.quorum, flags := ceFlags (c.voters < c.quorum) c.dropped }
      s.ceResult p c 0 (c.acc.map (ceTernary c.voters c.quorum)) h pop
    else
      let (xs, sat) := if c.reduces then ceRound c.outFmt c.nonsat c.acc else (c.acc, 0)
      let h : CeHead := { voters := c.size, quorum := c.quorum, flags := ceFlags false false }
      let s' := s.ceResult p c 0 xs h pop
      if (mget s'.colls p).any (fun c => c.phase == 3) then s'.inc F.partCeStat_convSat p sat else s'
  else
    let s := { (done s) with colls := mput s.colls p { c with phase := 2, acc := [], blocks := [] } }
    if c.op == 3 then s
    else
      let (wf, n, w) := c.upShape c.size c.subRange
      let (xs, sat) :=
        if c.votes then (c.acc, 0)
        else if c.reduces then ceRound c.wireFmt false c.acc
        else ((c.acc.drop c.subRange.1).take c.subRange.2, 0)
      let voters := if c.votes then c.voters else c.size
      let data := c.header wf n voters 0 (4 * ofBool c.dropped) 0 ++ cePack w (Coll.dataLen false n w) xs
      (s.inc F.partCeStat_convSat p sat).ceOffer p (bits (c.d 9) 0 12) data

/-- LOCAL_VALUE_FORMED; a node without children goes on at once, or as soon as the host has given up the lines its copies need. -/
def State.ceForm (s : State) (p : Nat) : State :=
  match mget s.colls p with
  | none => s
  | some c =>
    if !s.queueUp (unitColl p) then s
    else if c.phase == 1 && (c.nchild == 0 || !c.upward) then s.ceUp p c none
    else if c.phase != 0 then s
    else
      let x := (c.ctxPart, c.ctx)
      match s.ceRows p x false c.srcVas [] with
      | (.wait, s) => s
      | (.stop st sub, s) => s.collFail p st sub
      | (.ok ds, s) =>
        match s.ceRows p x true c.scratchVas [] with
        | (.wait, s) => s
        | (.stop st sub, s) => s.collFail p st sub
        | (.ok sc, s) =>
          let w := cvtWidth c.inFmt
          let srcs := (chunks c.srcRows c.nsrc ds).map (fun l => ceUnpack w c.srcElems (s.rowBytes l))
          let s := { s with mem := sc.foldl (fun (m : Store) d => m.forget d (d + 512) s.freeCtr) s.mem, freeCtr := s.freeCtr + 1 }
          let raw := srcs.headD []
          let loc := if c.reduces then ceLocal c.red (srcs.map (fun l => l.map (fun e => bits32 (cvtDecode c.inFmt e)))) else []
          let nan := if c.votes then (loc.filter (fun e => (f32 e).isNan)).length else 0
          let s := s.inc F.partCeStat_nanVotes p nan
          let acc :=
            if c.votes then loc.map ceVote
            else if c.reduces then loc
            else if c.op == 2 then setRange (List.replicate c.elements 0) c.local_.1 raw
            else raw
          let k := c.local_.2
          let own := (raw.drop (c.nchild * k)).take k
          let c := { c with acc := if c.op == 4 then [] else acc, voters := 1, phase := 1,
                            blocks := if c.op == 4 then List.replicate c.nchild [] ++ [own] else [] }
          let s := { s with colls := mput s.colls p c }
          let (f, s) := s.fresh
          let s :=
            if c.op == 4 then (List.range c.nchild).foldl (fun s j =>
              let l := (raw.drop (j * k)).take k
              s.ceOffer p (c.downOut j) (c.header 0 k (f % 2 ^ 32) (f / 2 ^ 32 % 2 ^ 32) 1 0 ++ cePack w (Coll.dataLen false k w) l)) s
            else s
          let c := (mget s.colls p).getD c
          if c.nchild == 0 || !c.upward then s.ceUp p c none else s

/-! ## Children (R360, R363, R370) -/

/-- The node has child `j` combined or dropped and goes on to the next, or up. -/
def State.ceNext (s : State) (p : Nat) (c : Coll) (pop : Option Nat) : State :=
  let c := { c with child := c.child + 1 }
  if c.child < c.nchild then
    let s := match pop with
      | some k => s.landPop k
      | none => s
    { s with colls := mput s.colls p c }
  else s.ceUp p c pop

/-- The message data of child `j` combined with what the node holds. -/
def Coll.combine (c : Coll) (j : Nat) (l : List Byte) : Coll :=
  let (_, n, w) := c.childShape j
  let xs := ceUnpack w n (l.drop 64)
  if c.votes then
    { c with acc := c.acc.zipWith (· + ·) xs, voters := c.voters + leNat ((l.drop 12).take 4),
             dropped := c.dropped || bitAt (leNat ((l.drop 20).take 1)) 2 }
  else if c.reduces then { c with acc := c.acc.zipWith (fun a x => ceCombine c.red a (bits32 (cvtDecode c.wireFmt x))) xs }
  else if c.op == 4 then { c with blocks := setNth c.blocks j xs }
  else { c with acc := setRange c.acc (c.crange j).1 xs }

/-- A command that fails on child `j`. -/
def State.ceChildFail (s : State) (p j st sub : Nat) : State := (s.wr F.partCeErr_child p j).collFail p st sub

/-- The node awaits the message of its next child. -/
def Coll.awaits (c : Coll) : Bool := c.phase == 1 && c.upward && decide (c.child < c.nchild)

/-- CHILD_MESSAGE_CONSUME: the awaited child's message, if it arrived in time. Log: 79 (DEDUCED). -/
def State.childConsume (s : State) (p : Nat) : State :=
  let u := unitColl p
  match mget s.colls p with
  | none => s
  | some c =>
    let j := c.child
    match s.startedOf u c.id, s.landOf p (c.upIn j) with
    | some x, some k =>
      match (s.land k).msgs with
      | [] => s
      | m :: _ =>
        if !c.awaits || !s.queueUp u || (c.childWait != 0 && decide (c.base + c.childWait < m.at_)) then s
        else
          match s.landRead p k m with
          | (.wait, s) => s
          | (.stop st sub, s) => (s.landPop k).ceChildFail p j st sub
          | (.ok ds, s) =>
            let l := (s.rowBytes ds).take m.len
            let now := s.ftPart p
            let ref := c.base + c.arriveRef
            let (w, n, _) := c.childShape j
            let bad := c.mismatch l w n
            let c' := c.combine j l
            let s' := if bad != 0 then (s.landPop k).ceChildFail p j 0x8C bad else s.ceNext p c' (some k)
            if (s'.land k).msgs == (s.land k).msgs then s'
            else if c.arriveRef != 0 && decide (ref < now) then
              (s'.inc F.partCeStat_late p).ceNote p x.e 0x0440 (j + c.step * 2 ^ 32) (now - ref)
            else s'
    | _, _ => s

/-- CHILD_WAIT_EXPIRY: the awaited child has sent nothing by the base instant plus child_wait. A dropped child's late message is
discarded as stale when it stands in the landing area already. -/
def State.childExpiry (s : State) (p : Nat) : State :=
  let u := unitColl p
  match mget s.colls p with
  | none => s
  | some c =>
    let j := c.child
    let lim := c.base + c.childWait
    let k := s.landOf p (c.upIn j)
    let head := (k.map (fun k => (s.land k).msgs)).getD []
    let inTime := (head.head?).any (fun m => decide (m.at_ ≤ lim))
    match s.startedOf u c.id with
    | none => s
    | some x =>
      if !c.awaits || !s.queueUp u || c.childWait == 0 || s.ftPart p ≤ lim || inTime then s
      else if !c.votes then s.ceChildFail p j 0x8B 0
      else
        let s' := s.ceNext p { c with dropped := true } none
        if (mget s'.colls p) == (mget s.colls p) then s'
        else
          let s := (s'.inc F.partCeStat_dropped p).ceNote p x.e 0x0441 (j + c.step * 2 ^ 32) (c.csize j)
          match k with
          | none => s
          | some k =>
            match head with
            | [] => s.setLand k { s.land k with drops := (s.land k).drops ++ [(c.tag, c.step)] }
            | m :: _ =>
              let a := (s.resolve (s.slotDpa k m.slot)).getD 0
              if s.mem.rdLE a 2 == c.tag && s.mem.rdLE (a + 8) 4 == c.step then (s.landPop k).landDiscard k 3 c.step
              else s.setLand k { s.land k with drops := (s.land k).drops ++ [(c.tag, c.step)] }

/-- DOWN_RESULT: the message on down_in, checked, written and passed on (R361, R368). Log: 78 (DEDUCED). -/
def State.downResult (s : State) (p : Nat) : State :=
  let u := unitColl p
  match mget s.colls p with
  | none => s
  | some c =>
    match s.startedOf u c.id, s.landOf p (bits (c.d 9) 12 12) with
    | some _, some k =>
      match (s.land k).msgs with
      | [] => s
      | m :: _ =>
        if c.phase != 2 || !s.queueUp u then s
        else
          match s.landRead p k m with
          | (.wait, s) => s
          | (.stop st sub, s) => (s.landPop k).collFail p st sub
          | (.ok ds, s) =>
            let l := (s.rowBytes ds).take m.len
            let (first, n) := c.downRange c.subRange
            let bad := c.mismatch l 0 n
            if bad != 0 then
              let (f, s) := s.fresh
              (s.landPop k).ceChildFail p (f % 16) 0x8C bad
            else
              let f := fun (a n : Nat) => leNat ((l.drop a).take n)
              s.ceResult p c first (ceUnpack c.outWidth n (l.drop 64)) { voters := f 12 4, quorum := f 16 4, flags := f 20 1 } (some k)
    | _, _ => s

/-- COLL_COMPLETE: every copy written and every offer ended (R373). -/
def State.collDone (s : State) (p : Nat) : State :=
  match mget s.colls p with
  | none => s
  | some c => if c.phase == 3 && c.offers.isEmpty then { s with colls := mdel s.colls p }.opDone (unitColl p) c.id else s

/-! ## Events -/

/-- COLL. -/
def execColl (p : PartId) (s : State) : Host.Outcome State Fault Refusal := finish (s.collStart p)
/-- LOCAL_VALUE_FORMED. -/
def execLocalValueFormed (p : PartId) (s : State) : Host.Outcome State Fault Refusal := finish (s.ceForm p)
/-- CHILD_MESSAGE_CONSUME. -/
def execChildMessageConsume (p : PartId) (s : State) : Host.Outcome State Fault Refusal := finish (s.childConsume p)
/-- CHILD_WAIT_EXPIRY. -/
def execChildWaitExpiry (p : PartId) (s : State) : Host.Outcome State Fault Refusal := finish (s.childExpiry p)
/-- DOWN_RESULT. -/
def execDownResult (p : PartId) (s : State) : Host.Outcome State Fault Refusal := finish (s.downResult p)
/-- COLL_COMPLETE. -/
def execCollComplete (p : PartId) (s : State) : Host.Outcome State Fault Refusal := finish (s.collDone p)
/-- CE_LAND_WRITE: word `w` of landing entry `j`, ignored unless the entry's booking is FREE or REVOKED (R377). -/
def execCeLandWrite (f : Func) (p : PartId) (j : Fin 64) (w : Fin 2) (v : Word64) (s : State) : Host.Outcome State Fault Refusal :=
  let k := landKey p j
  let r : RegName := if w.val == 0 then .partCeLand0 else .partCeLand1
  finish (s.host f r k true (fun s =>
    let b := s.bookSt (s.rd F.partCeLand0_booking k)
    if b == 0 || b == 3 then s.softWr r k v.toNat else s))

end Sys2Proof.Machine
end

