-- ==== Sys2Proof/Machine/Lamps.lean ====
section
/-! DEFINITION. Lamps and optical engines (chapter 14): lasers, hours, seating, verification and removal. -/

namespace Sys2Proof.Machine

/-- An event of bay `l` (R390), which raises source 84. -/
def State.lampNote (s : State) (l event lo hi : Nat) : State := (s.note l (unitLamp l) event lo hi).raise 84

/-- State of bay `l`: 0 EMPTY, 1 READING, 2 LIT, 3 REJECTED, 4 EJECTED. -/
def State.lampSt (s : State) (l : Nat) : Nat := s.rd F.lampState_state l
/-- State of laser `n` of bay `l`: 0 OFF, 1 RUNNING, 2 STANDBY, 3 FAILED. -/
def State.laser (s : State) (l n : Nat) : Nat := s.rd F.lampLaser0_state (l * 16 + n)
/-- Set it. -/
def State.setLaser (s : State) (l n v : Nat) : State := s.wr F.lampLaser0_state (l * 16 + n) v
/-- Every wavelength of bay `l` has a running laser. -/
def State.allLit (s : State) (l : Nat) : Bool := (List.range 8).all (fun w => s.laser l (2 * w) == 1 || s.laser l (2 * w + 1) == 1)
/-- Ports of bay `l`. -/
def portsOf (l : Nat) : List Nat := (List.range 8).map (fun i => 8 * l + i)

/-- The eight ports of a bay go down with a cause. -/
def State.portsDown (s : State) (l cause : Nat) : State := (portsOf l).foldl (fun s x => s.portDown x cause) s

/-- The light of the eight ports of a bay is gone: their lanes hold no lock, a port that trains is DARK, any other goes down (R337). -/
def State.portsCut (s : State) (l : Nat) : State :=
  (portsOf l).foldl (fun s x => (s.portDown x (if s.pst x == 1 then 4 else 1)).wr F.vxPortState_locked x 0) s

/-- Ticks of an hour. -/
def hour : Nat := 3600000000000
/-- Hours at which a laser is warned of (R386). -/
def eolHours : Nat := 51000

/-- The lit time of the lasers of bay `l` is counted up to now; hours that reach the limit raise the warning (R385, R386). Log: 83 (DEDUCED). -/
def State.lampSettle (s : State) (l : Nat) : State :=
  match mget s.lamps l with
  | none => s
  | some x =>
    let d := s.up - x.mark
    let lit := s.lampSt l == 2
    let ns := (List.range 16).map (fun n => x.ns.getD n 0 + (if s.laser l n == 1 then d else 0))
    let s := { s with lamps := mput s.lamps l { x with mark := s.up, ns := ns, unsaved := if lit then x.unsaved + d else x.unsaved } }
    match x.elem with
    | none => s
    | some e =>
      loop 16 (fun n s =>
        let h := min (e.hours.getD n 0 + ns.getD n 0 / hour) (2 ^ 24 - 1)
        let s := s.wr F.lampLaser1_hours (l * 16 + n) h
        if eolHours ≤ h && s.rd F.lampLaser0_eolHours (l * 16 + n) == 0 then
          ((s.wr F.lampLaser0_eolHours (l * 16 + n) 1).wr F.lampSticky_eol l 1).lampNote l 0x0414 (n + 2 ^ 8) 0
        else s) s

/-- The hours are written to the secure element: whole hours move there, the rest goes on. Log: 83 (DEDUCED). -/
def State.hoursWrite (s : State) (l : Nat) : State :=
  let s := s.lampSettle l
  match mget s.lamps l with
  | none => s
  | some x =>
    let e := x.elem.map (fun (e : LampElem) =>
      { e with hours := (List.range 16).map (fun n => e.hours.getD n 0 + x.ns.getD n 0 / hour) })
    { s with lamps := mput s.lamps l { x with elem := e, ns := x.ns.map (fun n => n % hour), unsaved := 0 } }

/-- Every laser that is not FAILED is turned off. -/
def State.lampOff (s : State) (l : Nat) : State :=
  let s := s.lampSettle l
  loop 16 (fun n s => if s.laser l n == 3 then s else s.setLaser l n 0) s

/-- A lighting: the A laser of each wavelength runs and the B laser stands by, or B runs where A is FAILED; a wavelength without a working
laser is dark (R378, R380). The ports train. -/
def State.lampLight (s : State) (l : Nat) : State :=
  let s := s.lampSettle l
  let s := loop 8 (fun w s =>
    let a := s.laser l (2 * w) == 3
    let b := s.laser l (2 * w + 1) == 3
    let s := if a then s else s.setLaser l (2 * w) 1
    let s := if b then s else s.setLaser l (2 * w + 1) (if a then 1 else 2)
    if a && b then (s.wr F.lampSticky_wlDark l 1).lampNote l 0x0415 w 0 else s) s
  let s := s.wr F.lampState_state l 2
  if s.partDark l then s else (portsOf l).foldl (fun s x => s.portLit x) s

/-- The running laser of a wavelength has failed (R380): that lane of every port of the bay loses its lock. -/
def State.laserSwitch (s : State) (l n : Nat) : State :=
  let w := n / 2
  let o := if n % 2 == 0 then n + 1 else n - 1
  let s := (portsOf l).foldl (fun s x => s.wr F.vxPortState_locked x (putBits (s.rd F.vxPortState_locked x) w 1 0)) s
  let s := s.portsDown l 1
  if s.laser l o == 3 then (s.wr F.lampSticky_wlDark l 1).lampNote l 0x0415 w 0
  else ((s.setLaser l o 1).wr F.lampSticky_switch l 1).lampNote l 0x0413 (w + n * 2 ^ 8 + o * 2 ^ 16) 0

/-- LASER_FAIL: a lit laser is FAILED, which its secure element keeps (R379, R381). -/
def State.laserFail (s : State) (l n : Nat) : State :=
  let st := s.laser l n
  if s.lampSt l != 2 || (st != 1 && st != 2) then s
  else
    let s := (s.lampSettle l).setLaser l n 3
    let s := match mget s.lamps l with
      | none => s
      | some x =>
        let y : Lamp := { x with elem := x.elem.map (fun (e : LampElem) => { e with failed := putBits e.failed n 1 1 }) }
        { s with lamps := mput s.lamps l y }
    if st == 1 then s.laserSwitch l n else s

/-- LAMP_HOURS_WRITE: every 10 minutes of lit time. Log: 83 (DEDUCED). -/
def State.hoursDue (s : State) (l : Nat) : State :=
  let s := s.lampSettle l
  match mget s.lamps l with
  | none => s
  | some x => if 600000000000 ≤ x.unsaved then s.hoursWrite l else s

/-- Ordered removal (R387, R389). Log: 82 (DEDUCED). -/
def State.lampEject (s : State) (l : Nat) : State :=
  let st := s.lampSt l
  if st == 0 || st == 4 then s
  else
    let s := ((s.hoursWrite l).lampOff l).wr F.lampState_state l 4
    let s := s.wr F.lampState_unverifiedRun l 0
    let s := match mget s.lamps l with
      | none => s
      | some x => { s with lamps := mput s.lamps l { x with waiting := false } }
    (s.portsDown l 4).lampNote l 0x0411 1 (s.rd F.lampSerial_serial l)

/-- The presence contact opens (R387, R389): an ejected Lamp is withdrawn, any other is lost. -/
def State.lampLost (s : State) (l : Nat) : State :=
  if s.rd F.lampState_present l == 0 then s
  else
    let st := s.lampSt l
    let s := (s.lampOff l).wr F.lampState_present l 0
    let s := ((s.wr F.lampState_state l 0).wr F.lampState_verified l 0).wr F.lampState_unverifiedRun l 0
    let s := { s with lamps := mdel s.lamps l }
    if st == 4 then s
    else ((s.wr F.lampSticky_surprise l 1).portsCut l).lampNote l 0x0411 2 (s.rd F.lampSerial_serial l)

/-- LAMP_SEATED: the identity is read, the Lamp is lit and verification starts (R382, R388); none is an element that does not answer. -/
def State.lampSeat (s : State) (l : Nat) (e : Option LampElem) : State :=
  if s.lampSt l != 0 || !s.board.powered || s.thermNow then s
  else
    let n := Config.random s.freeCtr
    let s := { s with freeCtr := s.freeCtr + 1,
                      lamps := mput s.lamps l { elem := e, nonce := n, mark := s.up } }
    let s := ((s.wr F.lampState_present l 1).inc F.lampState_inserts l).wr F.lampState_cause l 0
    let s := (s.wr F.lampState_verified l 0).wr F.lampState_unverifiedRun l 0
    match e with
    | none => s.wr F.lampState_state l 1
    | some e =>
      let s := (s.wr F.lampSerial_serial l e.serial).wr F.lampPart_partNumber (2 * l) e.part0
      let s := s.wr F.lampPart_partNumber (2 * l + 1) e.part1
      let s := (s.wr F.lampDate_year l e.year).wr F.lampDate_week l e.week
      let s := loop 16 (fun n s =>
        let i := l * 16 + n
        let s := (s.wr F.lampLaser0_state i (if bitAt e.failed n then 3 else 0)).wr F.lampLaser0_eolHours i 0
        let s := s.wr F.lampLaser0_eolBias i 0
        (s.wr F.lampLaser1_hours i (e.hours.getD n 0)).wr F.lampLaser1_biasInit i (e.biasInit.getD n 0)) s
      s.lampLight l

/-- DXT-LMP8 and zero bytes, as the words of part_number (Table 14-1). -/
def partNumber : Nat × Nat := (0x38504D4C2D545844, 0)

/-- The first check of R383 that fails, as the code of Table 14-3; 0 when the Lamp is verified. `sig` is its answer to the nonce. -/
def State.lampCause (x : Lamp) (sig : List Nat) : Nat :=
  match x.elem with
  | none => 1
  | some e =>
    if !Config.verify 2 [] e.cert e.ecdsa then 2
    else if !Config.verify 3 [] e.cert e.lms then 3
    else if e.part0 != partNumber.1 || e.part1 != partNumber.2 then 4
    else if !Config.verify 4 e.cert [x.nonce] sig then 5
    else 0

/-- A Lamp that is not verified runs under allow_unverified, or is REJECTED (R384). -/
def State.lampReject (s : State) (l : Nat) : State :=
  let s := ((s.lampOff l).wr F.lampState_state l 3).wr F.lampState_unverifiedRun l 0
  s.portsDown l 4

/-- LAMP_VERDICT (R383, R384, R388). Log: 82 (DEDUCED). -/
def State.lampVerdict (s : State) (l : Nat) (sig : List Nat) : State :=
  match mget s.lamps l with
  | none => s
  | some x =>
    if !x.waiting then s
    else
      let c := State.lampCause x sig
      let ser := s.rd F.lampSerial_serial l
      let s := { s with lamps := mput s.lamps l { x with waiting := false } }
      let s := s.wr F.lampState_cause l c
      if c == 0 then (s.wr F.lampState_verified l 1).lampNote l 0x0410 1 ser
      else
        let s := s.wr F.lampSticky_verifyFail l 1
        if s.flag F.lampCtrl_allowUnverified l then
          let s := if s.lampSt l == 2 then s else s.lampLight l
          (s.wr F.lampState_unverifiedRun l 1).lampNote l 0x0410 0 ser
        else (s.lampReject l).lampNote l 0x0412 c ser

/-- A write to LAMP_CTRL (R384, R387): allow_unverified, then eject, which reads 0 again once the lasers are off. Log: 82 (DEDUCED). -/
def State.lampCtrl (s : State) (l v : Nat) : State :=
  let s := s.wr F.lampCtrl_allowUnverified l (v % 2)
  let s :=
    if v % 2 == 0 && s.flag F.lampState_unverifiedRun l then s.lampReject l
    else if v % 2 == 1 && s.lampSt l == 3 then (s.lampLight l).wr F.lampState_unverifiedRun l 1
    else s
  if bitAt v 1 then s.lampEject l else s

/-- LASER_BIAS_LIMIT: a laser's bias and output, its setpoint in µW, and the Lamp's case temperature in 0.25 °C (R386, Table 14-3). Log: 83 (DEDUCED). -/
def State.laserBias (s : State) (l n bias power set : Nat) (temp : Int) : State :=
  let i := l * 16 + n
  if s.laser l n != 1 then s
  else
    let s := ((s.wr F.lampLaser0_bias i bias).wr F.lampLaser0_power i power).wr F.lampState_caseTemp l (ofSigned 16 temp)
    let near := decide (50 * power ≤ 51 * set) && decide (49 * set ≤ 50 * power)
    if decide (5 * s.rd F.lampLaser1_biasInit i ≤ 4 * bias) && near && s.rd F.lampLaser0_eolBias i == 0 then
      ((s.wr F.lampLaser0_eolBias i 1).wr F.lampSticky_eol l 1).lampNote l 0x0414 (n + 2 * 2 ^ 8) 0
    else s

/-- Every Lamp goes dark (R449, R527): the lasers are off and the ports down; a bay keeps its Lamp. -/
def State.lampsDark (s : State) : State :=
  loop 8 (fun l s => if s.lampSt l == 2 then (s.lampOff l).portsDown l 4 else s) s

/-! ## Events -/

/-- LASER_FAIL. -/
def execLaserFail (l : BayId) (n : Fin 16) (s : State) : Host.Outcome State Fault Refusal := finish (s.laserFail l n)
/-- LAMP_HOURS_WRITE. -/
def execLampHoursWrite (l : BayId) (s : State) : Host.Outcome State Fault Refusal := finish (s.hoursDue l)
/-- LAMP_EJECT: a write with eject set. -/
def execLampEject (f : Func) (l : BayId) (v : Word64) (s : State) : Host.Outcome State Fault Refusal :=
  finish (if bitAt v.toNat 1 then s.host f .lampCtrl l true (fun s => s.lampCtrl l v.toNat) else s)
/-- LAMP_SURPRISE_REMOVAL. -/
def execLampSurpriseRemoval (l : BayId) (s : State) : Host.Outcome State Fault Refusal := finish (s.lampLost l)
/-- LAMP_SEATED. -/
def execLampSeated (l : BayId) (e : Option LampElem) (s : State) : Host.Outcome State Fault Refusal := finish (s.lampSeat l e)
/-- LAMP_VERDICT. -/
def execLampVerdict (l : BayId) (sig : List Nat) (s : State) : Host.Outcome State Fault Refusal := finish (s.lampVerdict l sig)
/-- ALLOW_UNVERIFIED_WRITE: a write without eject. -/
def execAllowUnverifiedWrite (f : Func) (l : BayId) (v : Word64) (s : State) : Host.Outcome State Fault Refusal :=
  finish (if bitAt v.toNat 1 then s else s.host f .lampCtrl l true (fun s => s.lampCtrl l v.toNat))
/-- LASER_BIAS_LIMIT. -/
def execLaserBiasLimit (l : BayId) (n : Fin 16) (bias power : Nat) (set : LaserSet) (s : State) : Host.Outcome State Fault Refusal :=
  finish (s.laserBias l n bias power set.power set.temp)

end Sys2Proof.Machine
end

