-- ==== Sys2Proof/Machine/Dark.lean ====
section
/-! DEFINITION. Rails that go off (R423 to R428, R431, R449): what cores lose with them, dark clusters, dark partitions, and the module
off. -/

namespace Sys2Proof.Machine

/-- An event of a Deputy or of the power manager raises source 85 (Table 15-5). -/
def State.powerNote (s : State) (event lo hi : Nat) : State := (s.noteAll unitPower event lo hi).raise 85
/-- An event of the Deputy of partition `p`. -/
def State.deputyEvent (s : State) (p event lo hi : Nat) : State := (s.deputyNote p event lo hi).raise 85

/-! ## What cores lose -/

/-- What the cores that meet `p` are doing ends without completion, as with the loss of their rail or a reset (R490): commands, kernels,
ring waits, copies of rows, cached lines and translations; no commit waits for them (R157). Mark signals of completed commands go out. -/
def State.stopCores (s : State) (p : Nat → Bool) : State :=
  let s := s.abandonAll 5 (fun x => p x.core || p x.witness)
  let s := (s.canaries.filter (fun c => p c.core)).foldl (fun s c => s.dropCanary c.core) s
  let us := (s.queues.map (·.1)).filter (fun u => isCoreQ u && p (u / 4))
  let s := us.foldl (fun s u => (s.setQ u { s.q u with started := [] }).flushHeld u) s
  let whoOf := fun (w : Who) => match w with
    | .cmd q _ => isCoreQ q && p (q / 4)
    | .gang g _ => p g
  let s := { s with gangs := s.gangs.filter (fun e => !p (e.1 / 32)), launches := s.launches.filter (fun l => !p l.core),
                    icache := s.icache.filter (fun l => !p l.core), ifills := s.ifills.filter (fun l => !p l.core) }
  let s := { s with ringWaits := s.ringWaits.filter (fun w => !whoOf w.who), tlb := s.tlb.filter (fun e => !p e.core) }
  let s := { s with bulk := s.bulk.filter (fun (b : BulkRow) => !p (b.unit / 4)) }
  { s with upd := s.upd.map (fun (e : Nat × UpdBcast) => (e.1, { e.2 with waiting := e.2.waiting.filter (fun g => !p g) })) }

/-- A cluster's rail goes off: its cores stop, and its clock with any change in progress. -/
def State.cluStop (s : State) (c : Nat) : State :=
  let s := s.stopCores (fun g => cluIdx g == c)
  let x : Clu := { s.cluSt c with fchg := none, next := none, stretched := 0, droop := false, hold := false, wake := false, deferred := 0 }
  (s.setClu c x).wr F.cluOp_fchgBusy c 0

/-! ## Resets that end -/

/-- Whether a partition's reset of its own runs. -/
def State.partBusy (s : State) (p : Nat) : Bool := s.resets.any (fun r => decide (r.kind ≤ 2) && r.part == p)

/-- A running reset ends: cores it covered are no longer fenced for it, go and busy clear. -/
def State.endReset (s : State) (r : ResetRun) (refused : Bool) : State :=
  let s := { s with resets := s.resets.filter (fun x => x != r) }
  let cores := (List.range 4608).filter (fun g => r.coversCore g && s.fenced g && !s.retired g && !s.coreInReset g)
  let s := cores.foldl (fun s g => s.setFence g false) s
  if 3 ≤ r.kind then
    let s := (s.wr F.hfRst_go 0 0).wr F.hfRst_busy 0 0
    if refused then s.wr F.hfRst_refused 0 1 else s
  else
    let s := (s.wr F.partRst_go r.part 0).wr F.partRst_busy r.part (ofBool (s.partBusy r.part))
    if refused then s.wr F.partRst_refused r.part 1 else s

/-- Resets whose unit goes dark end, with refused set (Table 18-7). -/
def State.endResets (s : State) (p : ResetRun → Bool) : State := (s.resets.filter p).foldl (fun s r => s.endReset r true) s

/-! ## Dark clusters (R425, R426, R428) -/

/-- Payload bytes 16 to 23 of CLUSTER_DARK and PARTITION_DARK. -/
def darkPayload (i cause : Nat) : Nat := i + cause * 2 ^ 8

/-- Cluster `c` of the module goes dark with a cause of Table 16-6: its record in flash, its report and tally, and the retirement of its
cores (Table 17-4, cause DARK). Log: 107 (DEDUCED). -/
def State.clusterDark (s : State) (c cause : Nat) : State :=
  if s.cluState c == 3 then s
  else
    let p := c / 36
    let pay := darkPayload (c % 36) cause
    let s := s.report 0x07 { s.blank (unitDeputy p) with part := p, clu := c % 36, retireCause := 4, detail := [pay, 0] }
    let rep := s.reportCount
    let s := (s.cluStop c).wr F.partPwrClu_state c 3
    let s := { s with flash := { s.flash with darkClu := s.flash.darkClu ++ [c] } }
    let s := (s.endResets (fun r => r.part == p && ((r.kind == 1 && r.target == c % 36) || (r.kind == 0 && r.target / 16 == c % 36)))).stick
      F.partPwrSticky_clusterDark p p
    let s := s.deputyEvent p 0x0501 pay 0
    loop 16 (fun k s => s.retire (576 * p + 16 * (c % 36) + k) 4 rep) s

/-! ## Dark partitions (R427) -/

/-- Every index held in partition `p` is exhausted, and its pillars leave their benches (R265, R267). -/
def State.exhaustPart (s : State) (p : Nat) : State :=
  (s.roles.filter (fun e => partOf e.1 == p)).foldl (fun s e =>
    if e.2.kind == 1 then s.exhaust e.2.bench e.2.index e.1
    else ({ s with roles := mdel s.roles e.1 }).countPillars e.2.bench) s

/-- Partition `p` has gone: its resets end, its cores and collective engine stop, and the rest of the module goes round it. Log: 107 (DEDUCED). -/
def State.loseCompute (s : State) (p cause : Nat) : State :=
  let s := s.endResets (fun r => decide (r.kind ≤ 2) && r.part == p)
  let s := loop 36 (fun i s => (s.cluStop (36 * p + i)).wr F.partPwrClu_state (36 * p + i) 3) s
  let s := s.collReset p
  let s := s.setQ (unitColl p) { s.q (unitColl p) with started := [], held := [] }
  let s := s.wr F.hfPwrPart_dark 0 (putBits (s.rd F.hfPwrPart_dark 0) p 1 1)
  let s := s.wr F.hfPwrPart_cause 0 (putBits (s.rd F.hfPwrPart_cause 0) (2 * p) 2 cause)
  { s with netWant := { s.netWant with dark := putBits s.netWant.dark p 1 1 } }

/-- What follows for ports, caches and benches. Log: 107 (DEDUCED). -/
def State.losePart (s : State) (p : Nat) : State := ((s.portsDown p 4).rdcInvalidate p).exhaustPart p

/-- Partition `p` goes dark with a cause of Table 16-6. -/
def State.darken (s : State) (p cause : Nat) : State :=
  if bitAt (s.rd F.hfPwrPart_dark 0) p then s
  else
    let pay := darkPayload p cause
    let s := s.report 0x0B { s.blank unitPower with part := p, detail := [pay, 0] }
    let s := (s.loseCompute p cause).wr F.hfPwrSticky_partDark 0 1
    (s.powerNote 0x0502 pay 0).losePart p

/-! ## The module off (R423, R425, R446) -/

/-- Every bank is shut down and PGOOD deasserted: nothing but flash is left, and what had not reached flash is lost. PERST_N is asserted by
the board with PGOOD (R524). Log: 116 (DEDUCED). -/
def State.shutDown (s : State) : State :=
  let t := ({ s with retirePend := [], reports := [] }).cleared false
  { t with firstBoot := true,
           board := { s.board with powered := false, pgood := false, perstN := false, offHold := true, offSince := s.up, poweringDown := false } }

end Sys2Proof.Machine
end

