-- ==== Sys2Proof/Machine/Vx.lean ====
section
/-! DEFINITION. The VX fabric's events (chapter 12): flits, link bring-up, the link-state database, packets, Class T, bookings and
scheduled transfers. -/

namespace Sys2Proof.Machine

/-! ## Received flits (R327, R328) -/

/-- A flit's header taken apart, with the position it was sent in. Log: 69 (DEDUCED). -/
def flitOf (b : List Byte) (pos due len : Nat) : Flit :=
  let h0 := leNat (b.take 8)
  { seq := bits h0 0 12, ack := bits h0 12 12, nack := bitAt h0 24, kind := bits h0 25 3, creditB := bits h0 28 8,
    creditC := bits h0 36 8, next := bits h0 44 12, xfer := bits h0 56 8, sop := bitAt h0 44, eop := bitAt h0 45,
    fill := bits h0 46 8, offset := leNat ((b.drop 8).take 4), payload := (b.drop 12).take 240, due := due, len := len, pos := pos }

/-- A flit passes its check (Table 12-1). Log: 69 (DEDUCED). -/
def flitGood (b : List Byte) : Bool := b.length == 256 && leNat (b.drop 252) == crc32c (b.take 252)

/-- Distance from one sequence number to another. -/
def seqDist (a b : Nat) : Nat := (b + 4096 - a) % 4096

/-- Acknowledged flits leave the sender's window; a nack asks for the flit after `ack` again, and the fourth sending of one flit that fails takes
the link down (R328, R329). A nack of a flit that has not been sent again since the last one tells of no further failure. -/
def Port.acked (p : Port) (f : Flit) : Port × Bool :=
  let base := match p.unacked with
    | [] => p.txSeq
    | u :: _ => u.seq
  let keep := p.unacked.filter (fun (u : WireFlit) => decide (seqDist base f.ack < seqDist base u.seq) || decide (2048 ≤ seqDist base f.ack))
  let p := { p with unacked := keep, creditB := min 512 (p.creditB + f.creditB), creditC := min 64 (p.creditC + f.creditC) }
  if !f.nack then (p, false)
  else
    let q := (f.ack + 1) % 4096
    if !keep.any (fun (u : WireFlit) => u.seq == q) || p.resend.contains q then (p, false)
    else
      let n := if p.nackSeq == q then p.nackCount + 1 else 1
      ({ p with nackSeq := q, nackCount := n, resend := p.resend ++ [q] }, decide (4 ≤ n))

/-- A packet's destination fields (Table 12-3). -/
def packetP0 (b : List Byte) : Nat := leNat (b.take 8)

/-- `n` flits of Class B (`cls` 2) or C leave the buffer of port `x`, and their credits go back to the peer (R331). -/
def State.owe (s : State) (x cls n : Nat) : State :=
  let p := s.port x
  s.setPort x (if cls == 2 then { p with owedB := p.owedB + n } else { p with owedC := p.owedC + n })

/-- The serial number is the module's own (R333). -/
def State.mySerial (s : State) (n : Nat) : Bool := n == s.rd F.hfVxSerial_serial 0

/-- A packet of `n` flits that has arrived whole at port `x`: one for this module is taken, one by another serial number, or longer than a packet
can be, is dropped, any other waits to be passed on (R332 to R334). Log: 81 (DEDUCED). -/
def State.packetIn (s : State) (x cls n : Nat) (b : List Byte) : State :=
  let p0 := packetP0 b
  let ser := bitAt p0 34
  let mine := if ser then s.mySerial (leNat ((b.drop 8).take 8)) else s.flag F.hfVxId_idValid 0 && bits p0 0 17 == s.rd F.hfVxId_id 0
  let p := s.port x
  if mine || ser || decide (b.length < 16) || decide (packetMax < b.length) then s.owe x cls n
  else s.setPort x { p with fwd := p.fwd ++ [(cls, b)] }

/-- A flit of Class B or C joins its packet; it fills its buffer until the packet leaves (R331). -/
def State.flitJoin (s : State) (x : Nat) (f : Flit) : State :=
  let p := s.port x
  let part := f.payload.take f.fill
  let b := f.kind == 2
  let old := if f.sop then [] else if b then p.asmB else p.asmC
  let all := old ++ [part]
  let p := if b then { p with asmB := if f.eop then [] else all } else { p with asmC := if f.eop then [] else all }
  let s := s.setPort x p
  if f.eop then s.packetIn x f.kind all.length all.flatten else s

/-- The first flit of a transfer at its destination finds its landing slot, or the transfer is discarded (R371, R372). Log: 75 (DESIGN CHOICE). -/
def State.landFirst (s : State) (b : Nat) (f : Flit) : State :=
  let p := s.rd F.hfVxBook0_part b
  let step := leNat ((f.payload.drop 8).take 4)
  let add := fun (s : State) (l : Option (Nat × Nat × Nat)) =>
    { s with incoming := s.incoming ++ [{ book := b, xfer := f.xfer, land := l, len := f.len, due := f.due }] }
  match s.landOf p b with
  | none =>
    let (r, s) := s.fresh
    add (s.landDiscard (landKey p (r % 64)) 1 step) none
  | some k =>
    let busy := (s.land k).msgs.length + (s.incoming.filter (fun (i : Incoming) => i.land.any (fun l => l.2.1 == k))).length
    let n := s.rd F.partCeLand0_slots k + 1
    if n ≤ busy then add (s.landDiscard k 1 step) none
    else if s.slotBytes k < f.len then add (s.landDiscard k 2 step) none
    else
      let l := s.land k
      add (s.setLand k { l with next := (l.next + 1) % n }) (some (p, k, l.next % n))

/-- A transfer is placed whole: it stands in its slot, unless it is the late message of a dropped child, and its ACK sets out (R347,
R371, R372). -/
def State.landDone (s : State) (i : Incoming) : State :=
  match i.land with
  | none => s
  | some (p, k, slot) =>
    let a := (s.resolve (s.slotDpa k slot)).getD 0
    let mark := (s.mem.rdLE a 2, s.mem.rdLE (a + 8) 4)
    let l := s.land k
    let s :=
      if l.drops.contains mark then
        (s.setLand k { l with drops := l.drops.erase mark, next := slot }).landDiscard k 3 mark.2
      else s.setLand k { l with msgs := l.msgs ++ [{ slot := slot, len := i.len, at_ := s.ftPart p }] }
    s.portSend (s.rd F.hfVxBook0_inPort i.book) 0 (.ack (s.rd F.hfVxBook0_prevIndex i.book) i.xfer)

/-- Where `n` bytes from address `a` on lie, each 512-byte row resolved by itself: pieces of an address, the bytes before it, and its length.
None where some byte reaches no memory, or a row cannot be reached. -/
def State.landPieces (s : State) (a n : Nat) : Option (List (Nat × Nat × Nat)) :=
  let n1 := min n (512 - a % 512)
  let parts := [(a, 0, n1), (a + n1, n1, n - n1)].filter (fun e => e.2.2 != 0)
  let out := parts.filterMap (fun e => (s.resolve e.1).map (fun d => (d, e.2)))
  if out.length == parts.length && out.all (fun e => !s.homeDark e.1 && !s.sliceLost e.1) then some out else none

/-- A Class S flit at its destination: placed in order while its entry is ACTIVE and its D has not passed (R347, R350); one whose place cannot be
written is not placed. -/
def State.flitPlace (s : State) (b : Nat) (f : Flit) : State :=
  let p := s.rd F.hfVxBook0_part b
  if f.due < s.ftPart p then s
  else
    let is := fun (i : Incoming) => i.book == b && i.xfer == f.xfer
    let s := if f.offset == 0 then ({ s with incoming := s.incoming.filter (fun i => !is i) }).landFirst b f else s
    match s.incoming.find? is with
    | none => s
    | some i =>
      if i.flits != f.offset then s
      else
        match i.land with
        | none => s
        | some (_, k, slot) =>
          let n := min 240 (i.len - 240 * f.offset)
          match s.landPieces (s.slotDpa k slot + 240 * f.offset) n with
          | none => s
          | some l =>
            let s := { s with mem := l.foldl (fun (m : Store) (e : Nat × Nat × Nat) => m.wrN e.1 ((f.payload.drop e.2.1).take e.2.2)) s.mem }
            let j := { i with flits := i.flits + 1 }
            if i.len ≤ 240 * (i.flits + 1) then ({ s with incoming := s.incoming.filter (fun y => !is y) }).landDone j
            else { s with incoming := s.incoming.map (fun y => if is y then j else y) }

/-- A Class S flit that arrives in order: placed at a DESTINATION, sent on at a TRANSIT entry in its own position `shift` slots after the one it was
sent in, discarded elsewhere (R331, R343, R345). -/
def State.flitS (s : State) (x : Nat) (f : Flit) : State :=
  let b := f.next
  if s.bookSt b != 2 || s.rd F.hfVxBook0_inPort b != x then s
  else if s.bookRole b == 2 then s.flitPlace b f
  else if s.bookRole b == 1 then
    let o := s.rd F.hfVxBook0_outPort b
    let t : Transit := { book := b, slot := f.pos / 25 + s.rd F.hfVxBook0_shift b, pos := f.pos % 25, next := s.rd F.hfVxBook0_nextIndex b, xfer := f.xfer,
                         offset := f.offset, payload := f.payload }
    let p := s.port o
    s.setPort o { p with transit := p.transit ++ [t] }
  else s

/-- A flit passed on in sequence order; a port that is not UP carries no packet but a HELLO or a CERT, which are commands of their own (R338). -/
def State.flitIn (s : State) (x : Nat) (f : Flit) : State :=
  if f.kind == 1 then (if s.portUp x then s.flitS x f else s)
  else if f.kind == 2 || f.kind == 3 then (if s.portUp x then s.flitJoin x f else s.owe x f.kind 1)
  else s

/-- Held flits that now follow in order are passed on. -/
def State.flitDrain (s : State) (x : Nat) : Nat → State
  | 0 => s
  | n + 1 =>
    let p := s.port x
    match p.held.find? (fun (f : Flit) => f.seq == p.rxNext) with
    | none => s
    | some f =>
      let s := s.setPort x { p with held := p.held.filter (fun (y : Flit) => y.seq != f.seq), rxNext := (p.rxNext + 1) % 4096, asked := none, fails := 0 }
      (s.flitIn x f).flitDrain x n

/-- The codewords of the eight lanes that a flit's stripes lie in (R325): every 20th flit begins new ones, whose symbols in error `errs` counts lane by
lane. Up to 15 of a codeword are corrected; a codeword with more spoils every flit with a stripe in it. Log: 163 (DESIGN CHOICE). -/
def State.codewords (s : State) (x : Nat) (errs : List Nat) : Bool × State :=
  let p := s.port x
  if p.fecLeft != 0 then (p.fecBad, s.setPort x { p with fecLeft := p.fecLeft - 1 })
  else
    let l := errs.take 8
    let unc := (l.filter (fun e => decide (15 < e))).length
    let s := s.inc F.vxPortErr_fecCorr x (l.filter (fun e => e != 0 && decide (e ≤ 15))).length
    let s := s.inc F.vxPortErr_fecUnc x unc
    (unc != 0, s.setPort x { p with fecLeft := 19, fecBad := unc != 0 })

/-- FLIT_RECEIVE: `errs` are the symbol errors of the codewords that begin with the flit, `was` the number it was sent with, `pos` 25 times the
slot and the position it was sent in, `due` and `len` the D and the length of a Class S flit's transfer. A nack goes out for each flit discarded, for
each flit found missing, and once more when the peer has itself discarded a flit, which may have carried it (R328). Log: 69 (DEDUCED), 163 (DESIGN CHOICE). -/
def State.flitReceive (s : State) (x : Nat) (b : List Byte) (errs : List Nat) (was pos due len : Nat) : State :=
  let st := s.pst x
  if st == 0 || st == 5 then s
  else
    let (spoilt, s) := s.codewords x errs
    let p := s.port x
    if spoilt || !flitGood b then
      let n := if was == p.rxNext then p.fails + 1 else p.fails
      let s := s.setPort x { p with fails := n, want := true }
      if 4 ≤ n then s.portDown x 3 else s
    else
      let f := flitOf b pos due len
      let (p, dead) := { p with lastGood := s.ftPort x }.acked f
      let p := { p with want := p.want || (f.nack && !p.held.isEmpty) }
      let s := s.setPort x p
      if dead then s.portDown x 3
      else
        let d := seqDist p.rxNext f.seq
        let missing := p.want || p.asked != some p.rxNext
        if f.kind == 0 then (if d == 0 || 2048 ≤ d then s else s.setPort x { p with want := missing })
        else if 2048 ≤ d then s
        else if d == 0 then
          let s := s.setPort x { p with rxNext := (p.rxNext + 1) % 4096, asked := none, fails := 0 }
          let s := (s.flitIn x f).flitDrain x p.held.length
          let q := s.port x
          s.setPort x { q with want := q.want || !q.held.isEmpty }
        else if p.held.any (fun (y : Flit) => y.seq == f.seq) then s
        else s.setPort x { p with held := p.held ++ [f], want := missing }

/-! ## Sent flits (R330, R331, Table 12-2) -/

/-- The flit position that starts in tick `t` of a slot. -/
def posAt (t : Nat) : Option Nat := lowest 25 (fun q => 32 * q / 25 == t)

/-- Booked slots of entry `b` in `[a, z)`, in calendar slots since FT 0. -/
def bookedIn (slots : List Nat) (a z : Nat) : Nat := countBelow (z - a) (fun i => slots.contains ((a + i) % 4096))

/-- The Class S flit that position `q` of slot `a` of port `x` carries, of the slot's own booking (R330): the oldest on its way through whose position
has come, or one of a transfer that took the slot (R331, R342, R343, R346). -/
def State.flitSOut (s : State) (x a q : Nat) : Option (WireFlit × State) :=
  let p := s.port x
  let i := x * 4096 + a % 4096
  if q == 0 || !s.flag F.vxPortCal_valid i then none
  else
    let b := s.rd F.vxPortCal_booking i
    let blank : WireFlit := { port := x, kind := 1, seq := 0, ack := 0 }
    match p.transit.find? (fun (t : Transit) => t.book == b) with
    | some t =>
      if s.bookSt b != 2 || !(decide (t.slot < a) || (t.slot == a && decide (t.pos ≤ q))) then none
      else some ({ blank with next := t.next, xfer := t.xfer, offset := t.offset, payload := t.payload },
            s.setPort x { p with transit := p.transit.erase t })
    | none =>
      match s.transfers.find? (fun (t : Transfer) =>
          t.book == b && t.rev.isNone && decide (t.first ≤ a) && decide (a < t.last)) with
      | none => none
      | some t =>
        let k := bookedIn (s.slotsOf x b) t.first a
        if t.sent == 24 * k + (q - 1) && decide (240 * t.sent < t.data.length) then
          some ({ blank with next := s.rd F.hfVxBook0_nextIndex b, xfer := t.xfer, offset := t.sent,
                             payload := (t.data.drop (240 * t.sent)).take 240 },
                { s with transfers := s.transfers.map (fun (y : Transfer) => if y.id == t.id then { y with sent := y.sent + 1 } else y) })
        else none

/-- The next flit of a queued message of some rank, with its credit taken (Table 12-1, R331). -/
def Port.take (p : Port) (rank : Nat) : Option (WireFlit × Port) :=
  match p.out.find? (fun (m : OutMsg) => m.rank == rank) with
  | none => none
  | some m =>
    let c := rank == 0 || rank == 2
    if (c && p.creditC == 0) || (rank == 3 && p.creditB == 0) || decide (2048 ≤ p.unacked.length) then none
    else
      let l := (m.bytes.drop (240 * m.sent)).take 240
      let f : WireFlit := { port := 0, kind := if rank == 1 then 4 else if c then 3 else 2, seq := 0, ack := 0, msg := some m.msg,
                            part := m.sent, sop := m.sent == 0, eop := decide (m.flits ≤ m.sent + 1), fill := l.length, payload := l }
      let rest := p.out.erase m
      let out := if m.flits ≤ m.sent + 1 then rest else p.out.map (fun (y : OutMsg) => if y == m then { m with sent := m.sent + 1 } else y)
      some (f, { p with out := out, creditC := if c then p.creditC - 1 else p.creditC,
                        creditB := if rank == 3 then p.creditB - 1 else p.creditB })

/-- The buffer that a passed-on packet of a rank still fills is one flit emptier (R331). -/
def State.leave (s : State) (p : Port) (rank : Nat) : State :=
  match p.out.find? (fun (m : OutMsg) => m.rank == rank) with
  | some m => (match m.src with
    | some y => s.owe y (if rank == 3 then 2 else 3) 1
    | none => s)
  | none => s

/-- What a position may carry, in the order of Table 12-2: ranks of messages, with 4 for resent flits and 5 for the slot's booking. -/
def posOrder (q : Nat) (booked : Bool) : List Nat := if q == 0 then [0, 1, 4, 2, 3] else if booked then [5, 4, 0, 2, 1, 3] else [4, 0, 2, 1, 3]

/-- The first flit that the position can carry. -/
def State.flitPick (s : State) (x a q : Nat) : List Nat → Option (WireFlit × State)
  | [] => none
  | k :: r =>
    let p := s.port x
    let here := if k == 5 then (if 2048 ≤ p.unacked.length then none else s.flitSOut x a q)
      else if k == 4 then
        (match p.resend.findSome? (fun n => p.unacked.find? (fun (u : WireFlit) => u.seq == n)) with
         | some u => some (u, (s.setPort x { p with resend := p.resend.filter (fun n => n != u.seq) }).inc F.vxPortErr_resends x)
         | none => none)
      else (p.take k).map (fun y => (y.1, (s.setPort x y.2).leave p k))
    match here with
    | some y => some (if k == 4 then y else ({ y.1 with seq := (s.port x).txSeq, part := y.1.part }, y.2))
    | none => s.flitPick x a q r

/-- The payload of a Class T flit with the stamp it leaves with: t1 at the end of a SYNC, t3 before the last two bytes of a SYNC_RESP (Table 12-6). -/
def WireFlit.stamped (w : WireFlit) : List Byte :=
  let at_ := fun (n : Nat) =>
    w.payload.take (w.payload.length - n) ++ leBytes 8 w.ft ++ leBytes 1 w.frac ++ w.payload.drop (w.payload.length - n + 9)
  match w.msg with
  | some .sync => at_ 9
  | some (.syncResp _ _ _ _) => at_ 11
  | _ => w.payload

/-- The 256 bytes of a flit on the lanes (Table 12-1); what fills the rest of a payload is open. Log: 145 (DESIGN CHOICE). -/
def WireFlit.bytes (w : WireFlit) : List Byte :=
  let low := w.seq % 4096 + w.ack % 4096 * 2 ^ 12 + ofBool w.nack * 2 ^ 24 + w.kind % 8 * 2 ^ 25 + w.creditB % 256 * 2 ^ 28 + w.creditC % 256 * 2 ^ 36
  let high := if w.kind == 0 then 0 else if w.kind == 1 then w.next % 4096 * 2 ^ 44 + w.xfer % 256 * 2 ^ 56
    else ofBool w.sop * 2 ^ 44 + ofBool w.eop * 2 ^ 45 + w.fill % 256 * 2 ^ 46
  let rest := (List.range (240 - w.payload.length)).map (fun i => Config.vxByte 0 [] i)
  let b := leBytes 8 (low + high) ++ leBytes 4 (if w.kind == 1 then w.offset else 0) ++ w.payload.take 240 ++ rest
  b ++ leBytes 4 (crc32c b)

/-- FLIT_POSITION: at the start of a position the port sends one flit, or IDLE (R330); a Class T flit takes its stamp, whose sixteenths are those of
the position's start in its tick (R341). -/
def State.flitPosition (s : State) (x : Nat) : State :=
  let f := s.ftPort x
  match posAt (f % 32) with
  | none => s
  | some q =>
    let st := s.pst x
    if st == 0 || st == 5 || (s.port x).lastPos == some f then s
    else
      let a := f / 32
      let booked := st == 4 && s.flag F.vxPortCal_valid (x * 4096 + a % 4096)
      let old := s.port x
      let (w, s, fresh) := match s.flitPick x a q (posOrder q booked) with
        | some (w, s) => (w, s, !old.unacked.any (fun (u : WireFlit) => u.seq == w.seq))
        | none => (({ port := x, kind := 0, seq := old.txSeq, ack := 0 } : WireFlit), s, false)
      let p := s.port x
      let cb := min 255 p.owedB
      let cc := min 255 p.owedC
      let w := { w with port := x, ack := (p.rxNext + 4095) % 4096, nack := p.want, creditB := cb, creditC := cc, ft := f, frac := 512 * q / 25 % 16 }
      let w := if fresh then { w with payload := w.stamped } else w
      let p := { p with want := false, asked := if p.want then some p.rxNext else p.asked, owedB := p.owedB - cb, owedC := p.owedC - cc, lastPos := some f,
                        unacked := if fresh then p.unacked ++ [w] else p.unacked,
                        txSeq := if fresh then (p.txSeq + 1) % 4096 else p.txSeq }
      { (s.setPort x p) with wire := s.wire ++ [w] }

/-! ## Link bring-up (R326, R329, R337, R338) -/

/-- LANE_LOCK_LOSS: the lanes that still hold lock (R326, R329). -/
def State.lockLoss (s : State) (x lanes : Nat) : State :=
  let l := lanes % 256
  if l == 255 || s.pst x == 0 then s
  else
    let s := s.wr F.vxPortState_locked x l
    if s.pst x == 1 || s.pst x == 5 then s else s.portDown x 1

/-- FLIT_SILENCE_TIMEOUT. -/
def State.silence (s : State) (x : Nat) : State :=
  if 2 ≤ s.pst x && s.pst x ≤ 4 && decide ((s.port x).lastGood + 1000 ≤ s.ftPort x) then s.portDown x 2 else s

/-- A port has light: its Lamp is lit on every wavelength and its optical engine is powered (R326, R380). -/
def State.portLight (s : State) (x : Nat) : Bool := s.lampSt (portPart x) == 2 && s.allLit (portPart x) && !s.partDark (portPart x)

/-- A bay's verdict lets its ports come up (R388). -/
def State.lampGo (s : State) (x : Nat) : Bool := s.flag F.lampState_verified (portPart x) || s.flag F.lampState_unverifiedRun (portPart x)

/-- DOWN_WAIT_EXPIRY: 1 ms after the port went down it trains again, or is DARK when nothing lights it (R329). -/
def State.downWaitEnd (s : State) (x : Nat) : State :=
  if s.pst x != 5 || s.ftPort x < (s.port x).downAt + 1000000 then s
  else (s.wr F.vxPortState_state x
    (if s.lampSt (portPart x) == 2 && !s.partDark (portPart x) && s.flag F.vxPortCtrl_enable x then 1 else 0)).flood

/-- PORT_TRAINED: lanes lock and deskew (Table 12-4); numbers and credits start anew. Log: 68 (PRESUMED). -/
def State.trained (s : State) (x : Nat) : State :=
  if s.pst x != 1 || !s.portLight x then s
  else
    let s := (s.wr F.vxPortState_state x 2).wr F.vxPortState_locked x 255
    (s.setPort x { lastGood := s.ftPort x }).flood

/-- The bytes a HELLO's signature covers, as numbers (Table 12-5). -/
def helloMsg (h : Hello) : List Nat :=
  [h.serial, h.id + ofBool h.idValid * 2 ^ 31, h.port, h.nonce, h.peerNonce, h.keyId]

/-- First 16 bytes of the SHA-384 hash of the signing certificate of a chain (Table 12-5). -/
def keyIdOf (chain : List Nat) : Nat := leNat ((sha384 ((Config.signingCert chain).map (fun b => BitVec.ofNat 8 b))).take 16)

/-- HELLO_SEND: every 1 ms in HELLO, with a fresh nonce, until the peer has echoed one (R337, R338). -/
def State.helloSend (s : State) (x : Nat) : State :=
  let p := s.port x
  if s.pst x != 2 || p.echoed || p.helloAt.any (fun t => decide (s.ftPort x < t + 1000000)) then s
  else
    let n := Config.random s.freeCtr % 2 ^ 128
    let s := { s with freeCtr := s.freeCtr + 1 }
    let h : Hello := { serial := s.rd F.hfVxSerial_serial 0, id := s.rd F.hfVxId_id 0, idValid := s.flag F.hfVxId_idValid 0, port := x,
                       nonce := n, peerNonce := p.peerNonce, keyId := keyIdOf (Config.chain s.aliasKey), sig := [] }
    let h := { h with sig := Config.sign 0 s.aliasKey (helloMsg h) s.freeCtr }
    let s := s.setPort x { p with nonce := n, helloAt := some (s.ftPort x) }
    s.portSend x 2 (.hello h)

/-- The chain a port may verify its peer by: one that CERT delivered, or one cached since power-on. -/
def State.chainOf (s : State) (x : Nat) : Option (List Nat) :=
  match (s.port x).chain with
  | some c => some c
  | none => (s.certs.find? (fun e => e.1 == s.rd F.vxPortPeer_peerSerial x)).map (·.2)

/-- HELLO: the peer's serial, ID, port and nonce are taken; one that echoes the current nonce leads on to the certificates. On an UP port
a HELLO of another serial takes the port down; R329 gives that no cause code (R338). Log: 70 (DESIGN CHOICE), 81 (DEDUCED). -/
def State.helloIn (s : State) (x : Nat) (h : Hello) : State :=
  let st := s.pst x
  if st == 4 then
    if h.serial == s.rd F.vxPortPeer_peerSerial x then s
    else
      let (c, s) := s.fresh
      s.portDown x (5 + c % 251)
  else if st != 2 then s
  else
    let p := s.port x
    let s := (s.wr F.vxPortPeer_peerSerial x h.serial).wr F.vxPortPeerId_peerId x h.id
    let s := (s.wr F.vxPortPeerId_peerIdValid x (ofBool h.idValid)).wr F.vxPortPeerId_peerPort x h.port
    let known := s.certs.any (fun e => e.1 == h.serial)
    let s := s.wr F.vxPortState_cached x (ofBool known)
    let ok := h.peerNonce == p.nonce && p.helloAt.isSome
    let s := s.setPort x { p with peerNonce := h.nonce, hello := if ok then some h else p.hello, echoed := p.echoed || ok }
    if ok && !known then s.portSend x 2 (.cert (Config.chain s.aliasKey)) else s

/-- CERT: the peer's chain arrives. -/
def State.certIn (s : State) (x : Nat) (chain : List Nat) : State :=
  if s.pst x == 2 then s.setPort x { s.port x with chain := some chain } else s

/-- PEER_VERDICT: the chain and the signature of the echoing HELLO are verified (R338). Log: 74 (DEDUCED). -/
def State.peerVerdict (s : State) (x : Nat) : State :=
  let p := s.port x
  match p.hello, s.chainOf x with
  | some h, some c =>
    if s.pst x != 2 || !p.echoed || !s.lampGo x then s
    else
      let chainOk := Config.verify 0 [] c c
      let sigOk := Config.verify 1 c (helloMsg h) h.sig
      let ser := s.rd F.vxPortPeer_peerSerial x
      if chainOk && sigOk then
        let s := { s with certs := s.certs.filter (fun (e : Nat × List Nat) => e.1 != ser) ++ [(ser, c)] }
        let s := ((s.wr F.vxPortState_state x 4).wr F.vxPortState_trusted x 1).wr F.vxPortState_cached x 1
        (s.fabricNote (portPart x) (unitPort x) 0x0400 (x + 2 ^ 8) ser).flood
      else if s.flag F.hfVxCtrl_allowUntrusted 0 then
        let s := (s.wr F.vxPortState_state x 4).wr F.vxPortState_trusted x 0
        (s.fabricNote (portPart x) (unitPort x) 0x0400 x ser).flood
      else
        let s := (s.wr F.vxPortState_state x 3).wr F.vxPortState_trusted x 0
        (s.fabricNote (portPart x) (unitPort x) 0x0402 (x + (if chainOk then 2 else 1) * 2 ^ 8) ser).flood
  | _, _ => s

/-! ## Link-state events (R339) -/

/-- An advertisement is newer than the one held of its origin, in modulo-2^32 order. -/
def State.lsaNewer (s : State) (l : Lsa) : Bool :=
  match s.lsdb.find? (fun e => e.lsa.origin == l.origin) with
  | none => true
  | some e =>
    let d := (l.seq + 2 ^ 32 - e.lsa.seq) % 2 ^ 32
    d != 0 && decide (d < 2 ^ 31)

/-- LSA: stored if newer and there is room, and passed on. Log: 81 (DEDUCED). -/
def State.lsaIn (s : State) (x : Nat) (l : Lsa) : State :=
  if !s.portUp x || !s.lsaNewer l then s
  else
    if !s.lsdbRoom l.origin then s.inc F.hfVxStat_lsdbFull 0
    else
      let s := s.lsdbPut l
      let apart := s.flag F.hfVxId_idValid 0 && l.idValid && s.rd F.hfVxId_id 0 / 1024 != l.id / 1024
      if !s.flag F.hfVxCtrl_floodEn 0 || apart then s
      else s.portSendAll 2 (.lsa l) (fun y => y != x && !s.flag F.vxPortCtrl_edge y)

/-- LSA_REFRESH: every 30 s. -/
def State.lsaRefresh (s : State) : State := if s.lsaAt + 30000000000 ≤ s.ft then s.flood else s

/-- LSA_EXPIRY: entry `k`, not refreshed for 120 s, is removed. -/
def State.lsaExpiry (s : State) (k : Nat) : State :=
  match s.lsdb[k]? with
  | none => s
  | some e => if e.at_ + 120000000000 ≤ s.ft then s.setLsdb (dropNth s.lsdb k) else s

/-! ## Packets (R334, R335) -/

/-- Port choices of a route entry whose port is UP, in order. Log: 72 (DESIGN CHOICE). -/
def State.choices (s : State) (w : Nat) : List Nat :=
  ((List.range 4).filter (fun i => bitAt w (7 * i + 6))).map (fun i => bits w (7 * i) 6) |>.filter (fun x => s.portUp x)

/-- The port a packet leaves on: none when no choice is usable. Log: 72 (DESIGN CHOICE). -/
def State.routeOf (s : State) (cls p0 p1 : Nat) : Option Nat :=
  let dst := bits p0 0 17
  let w := if dst / 1024 == s.rd F.hfVxId_id 0 / 1024 then s.reg .hfVxMemberRt (dst % 1024) else s.reg .hfVxDistrictRt (dst / 1024)
  let us := s.choices w
  if us.isEmpty then none
  else if cls == 2 && bitAt w 28 then us[crc32c (leBytes 8 (Config.routeKey (bits p0 17 17) dst p1).toNat) % us.length]?
  else us.head?

/-- PACKET_FORWARD: the oldest packet of port `x` that waits is looked up and passed on, or dropped and counted. -/
def State.forward (s : State) (x : Nat) : State :=
  let p := s.port x
  match p.fwd with
  | [] => s
  | (cls, b) :: rest =>
    let s := s.setPort x { p with fwd := rest }
    let p0 := packetP0 b
    let h := bits p0 36 5
    let drop := s.owe x cls (flitsOf b.length)
    if h == 0 then drop.inc F.hfVxStat_ttlDrop 0
    else
      match s.routeOf cls p0 (leNat ((b.drop 8).take 8)) with
      | none => drop.inc F.hfVxStat_noRoute 0
      | some y => s.portPass y (if cls == 2 then 3 else 2) cls x (leBytes 8 (putBits p0 36 5 (h - 1)) ++ b.drop 8)

/-! ## Class T (R276, R341) -/

/-- CLASS_T_SYNC_SEND: every 1 ms on an UP link; the port stamps the flit as it leaves. -/
def State.syncSend (s : State) (x : Nat) : State :=
  let p := s.port x
  if !s.portUp x || p.syncAt.any (fun t => decide (s.ftPort x < t + 1000000)) then s
  else (s.setPort x { p with syncAt := some (s.ftPort x) }).portSend x 1 .sync

/-- CLASS_T_SYNC: a SYNC with stamp `t1`, in sixteenths, arrives with fraction `fr` of the tick and is answered with what Table 12-6 asks for; the
port adds t3 as the answer leaves. -/
def State.syncIn (s : State) (x t1 fr : Nat) : State :=
  let hops := (s.elect.best.map (·.hops)).getD 0
  if s.portUp x then s.portSend x 1 (.syncResp t1 (s.ftPort x * 16 + fr) (s.rd F.hfFtStatus_state 0) hops) else s

/-- The key the module offers (R276). -/
def State.ownKey (s : State) : Announce :=
  { r := if s.pps.locked then 0 else 1, prio := s.rd F.hfFtCtrl_priority 0, serial := s.rd F.hfVxSerial_serial 0,
    id := s.rd F.hfVxId_id 0, hops := 0, epoch := s.elect.epoch }

/-- The order of keys. -/
def keyBelow (a b : Announce) : Bool :=
  decide (a.r < b.r) || (a.r == b.r && (decide (a.prio < b.prio) || (a.prio == b.prio && decide (a.serial < b.serial))))

/-- The peer of port `x` lies in another district (R276). -/
def State.apart (s : State) (x : Nat) : Bool :=
  s.flag F.hfVxId_idValid 0 && s.flag F.vxPortPeerId_peerIdValid x && s.rd F.hfVxId_id 0 / 1024 != s.rd F.vxPortPeerId_peerId x / 1024

/-- An ANNOUNCE goes to the neighbours of the district that meet a test (R276). -/
def State.announceAll (s : State) (a : Announce) (ok : Nat → Bool) : State := s.portSendAll 1 (.announce a) (fun y => ok y && !s.apart y)

/-- The announcement of a new election by a module that offers no key, behind every key. Log: 62 (DEDUCED). -/
def State.noKey (s : State) : Announce := { r := 255, prio := 255, serial := 2 ^ 64 - 1, id := 0, hops := 0, epoch := s.elect.epoch }

/-- The module takes a key as its master's: it follows through a port, or is the master itself; a change of master writes
MASTER_CHANGE, and what the module knows goes on to its other neighbours (R276). Log: 62 (DEDUCED). -/
def State.adopt (s : State) (a : Announce) (port : Option Nat) : State :=
  let old := s.rd F.hfFtMaster_masterSerial 0
  let own := a.serial == s.rd F.hfVxSerial_serial 0
  let s := { s with elect := { best := some a, port := port, epoch := a.epoch, heard := s.ft } }
  let s := (s.wr F.hfFtMaster_masterSerial 0 a.serial).wr F.hfFtStatus_masterId 0 a.id
  let s := if s.pps.locked then s else s.wr F.hfFtStatus_state 0 (if own then 3 else 2)
  let s := s.announceAll a (fun y => port != some y)
  if old == a.serial then s else s.timeNote 0x0313 a.serial 0

/-- ANNOUNCE: a newer election starts from the module's own key; a lower key, or a shorter way to the same one, is taken. Elections do not leave
the district (R276). Log: 62 (DEDUCED). -/
def State.announceIn (s : State) (x : Nat) (a : Announce) : State :=
  if !s.portUp x || s.apart x then s
  else
    let b := { a with hops := a.hops + 1 }
    let newer := decide (s.elect.epoch < a.epoch)
    let s := if newer then { s with elect := { s.elect with epoch := a.epoch, best := none } } else s
    if a.epoch < s.elect.epoch then s
    else
      let base := match s.elect.best with
        | some k => some k
        | none => if s.flag F.hfFtCtrl_masterOk 0 then some s.ownKey else none
      match base with
      | none => if a.r == 255 then (if newer then s.announceAll a (fun y => y != x) else s) else s.adopt b (some x)
      | some k =>
        if a.r != 255 && (keyBelow b k || (b.serial == k.serial && b.r == k.r && decide (b.hops < k.hops))) then s.adopt b (some x)
        else if s.elect.best.isNone then s.adopt k none
        else s

/-- MASTER_TIMEOUT: no sync from the master for 4 ms starts a new election (R276), whether or not the module offers a key of its own; it holds its
last correction. Log: 62 (DEDUCED). -/
def State.masterTimeout (s : State) : State :=
  if s.pps.locked || s.rd F.hfFtStatus_state 0 == 3 || s.ft < s.elect.heard + 4000000 then s
  else
    let s := { s with elect := { s.elect with epoch := s.elect.epoch + 1, best := none, port := none, heard := s.ft } }
    if s.flag F.hfFtCtrl_masterOk 0 then s.adopt s.ownKey none
    else
      let s := if s.rd F.hfFtStatus_state 0 == 2 then s.wr F.hfFtStatus_state 0 4 else s
      s.announceAll s.noKey (fun _ => true)

/-- SYNC_RESP: link delay and offset from the four stamps in sixteenths of a tick; on the step toward the master it corrects FT (R276,
R341). The delay is kept in whole ticks. Log: 61 (DEDUCED). -/
def State.syncResp (s : State) (x t1 t2 t3 fr hops : Nat) : State :=
  if !s.portUp x then s
  else
    let t4 : Int := ((s.ftPort x * 16 + fr : Nat) : Int)
    let d := ((t4 - t1) - ((t3 : Int) - t2)) / 2 / 16
    let off := (((t2 : Int) - t1) - (t4 - t3)) / 2 / 16
    let s := s.wr F.vxPortDelay_delay x (min 65535 d.toNat)
    if s.elect.port == some x && !s.pps.locked && s.rd F.hfFtStatus_state 0 != 3 then
      let s := { s with elect := { s.elect with heard := s.ft, best := s.elect.best.map (fun (a : Announce) => { a with hops := hops + 1 }) } }
      let before := s.ft
      let s := (s.correct off).wr F.hfFtStatus_state 0 2
      s.goodSync (off - ((s.ft : Int) - (before : Int)))
    else s

/-! ## Bookings (R340, R343, R344, R349) -/

/-- VX_ID_WRITE. -/
def State.idWrite (s : State) (v : Nat) : State :=
  if s.anyBooked then s.wr F.hfVxId_idRefused 0 1
  else
    let old := s.reg .hfVxId 0 % 2 ^ 18
    let s := (s.softWr .hfVxId 0 v).wr F.hfVxId_idRefused 0 0
    if old == v % 2 ^ 18 then s else s.flood

/-- A confirmation ends at its source without a path (R344). -/
def State.bookRefuse (s : State) (b hop reason : Nat) : State :=
  let s := ((s.wr F.hfVxBook0_state b 0).wr F.hfVxBook0_activate b 0).wr F.hfVxBook1_cause b reason
  s.bookNote b 0x0404 (b + hop * 2 ^ 16 + reason * 2 ^ 24)

/-- Activation of a FREE SOURCE entry: CONFIRM sets out on its out_port (R344). -/
def State.bookActivate (s : State) (b : Nat) : State :=
  if s.bookSt b != 0 || s.bookRole b != 0 then s
  else
    let o := s.rd F.hfVxBook0_outPort b
    let s := (s.wr F.hfVxBook0_state b 1).wr F.hfVxBook0_activate b 1
    let s := { s with bookAt := mput s.bookAt b s.ft }
    if !s.portUp o then s.bookRefuse b 0 6
    else s.portSend o 0 (.confirm (s.rd F.hfVxBook0_nextIndex b) b 0 1 (s.slotsOf o b))

/-- A write to word 0 of entry `b` (R343, Table 12-13): the fields of a FREE or REVOKED entry, then activate and revoke. -/
def State.bookWrite (s : State) (b v : Nat) : State :=
  let st := s.bookSt b
  let s :=
    if st == 0 || st == 3 then
      let keep := s.reg .hfVxBook0 b
      let w := softWrite .hfVxBook0 keep v
      s.setReg .hfVxBook0 b (putBits (putBits w 4 2 0) 0 2 0)
    else s
  let s := if bitAt v 4 then s.bookActivate b else s
  if bitAt v 5 then s.revoke b 2 else s

/-- Why a CONFIRM fails at entry `b` (Table 12-10); 0 when it passes. `slots` is the arriving map. -/
def State.confirmFault (s : State) (x b prev lat links : Nat) (slots : List Nat) : Nat :=
  let role := s.bookRole b
  let o := s.rd F.hfVxBook0_outPort b
  let sh := s.rd F.hfVxBook0_shift b
  let delay := s.rd F.vxPortDelay_delay x
  if s.bookSt b != 0 || (role != 1 && role != 2) || s.rd F.hfVxBook0_inPort b != x || s.rd F.hfVxBook0_prevIndex b != prev then 2
  else if !s.portUp x || (role == 1 && !s.portUp o) then 6
  else if role == 1 && s.slotsOf o b != (List.range 4096).filter (fun i => slots.contains ((i + 4096 - sh % 4096) % 4096)) then 3
  else if role == 1 && sh < ceilDiv (delay + 400) 32 then 4
  else if 8 < links || (role == 1 && 8 ≤ links) || (role == 2 && 6000 < lat + delay + 200) || (role == 1 && 6000 < lat + 32 * sh) then 5
  else 0

/-- CONFIRM at entry `b`, arriving on port `x`. Log: 81 (DEDUCED). -/
def State.confirmIn (s : State) (x b prev lat links : Nat) (slots : List Nat) : State :=
  let why := s.confirmFault x b prev lat links slots
  if why != 0 then s.portSend x 0 (.refused prev links why)
  else if s.bookRole b == 1 then
    let sh := s.rd F.hfVxBook0_shift b
    let s := s.wr F.hfVxBook0_state b 1
    s.portSend (s.rd F.hfVxBook0_outPort b) 0
      (.confirm (s.rd F.hfVxBook0_nextIndex b) b (lat + 32 * sh) (links + 1) (s.slotsOf (s.rd F.hfVxBook0_outPort b) b))
  else
    let s := s.wr F.hfVxBook0_state b 2
    s.portSend x 0 (.confirmed prev (lat + s.rd F.vxPortDelay_delay x + 200) links)

/-- CONFIRMED at entry `b`, arriving on its out_port. Log: 71 (DESIGN CHOICE). -/
def State.confirmedIn (s : State) (x b lat links : Nat) : State :=
  if s.bookSt b != 1 || s.rd F.hfVxBook0_outPort b != x then s
  else if s.bookRole b == 1 then
    (s.wr F.hfVxBook0_state b 2).portSend (s.rd F.hfVxBook0_inPort b) 0 (.confirmed (s.rd F.hfVxBook0_prevIndex b) lat links)
  else if s.bookRole b == 0 then
    let s := (s.wr F.hfVxBook0_state b 2).wr F.hfVxBook0_activate b 0
    let s := (s.wr F.hfVxBook1_pathLat b lat).wr F.hfVxBook1_hops b links
    s.bookNote b 0x0403 (b + lat % 65536 * 2 ^ 16 + links % 256 * 2 ^ 32)
  else s

/-- REFUSED at entry `b`. -/
def State.refusedIn (s : State) (x b hop reason : Nat) : State :=
  if s.bookSt b != 1 || s.rd F.hfVxBook0_outPort b != x then s
  else if s.bookRole b == 1 then
    (s.wr F.hfVxBook0_state b 0).portSend (s.rd F.hfVxBook0_inPort b) 0 (.refused (s.rd F.hfVxBook0_prevIndex b) hop reason)
  else if s.bookRole b == 0 then s.bookRefuse b hop reason
  else s

/-- BOOK_CONFIRM_TIMEOUT: no answer within 1 ms; the rule names no hop. Log: 71 (DESIGN CHOICE). -/
def State.confirmTimeout (s : State) (b : Nat) : State :=
  if s.bookSt b != 1 || s.bookRole b != 0 || s.ft < mgetD s.bookAt b 0 + 1000000 then s
  else
    let (h, s) := s.fresh
    s.bookRefuse b (h % 256) 1

/-- REVOKE from the next module reaches entry `b`. -/
def State.revokeIn (s : State) (x b cause : Nat) : State :=
  if s.bookRole b != 2 && s.rd F.hfVxBook0_outPort b == x then s.revoke b cause else s

/-- CAL_WRITE: ignored while the slot names a CONFIRMING or ACTIVE entry (R343). -/
def State.calWrite (s : State) (x k v : Nat) : State :=
  let i := x * 4096 + k
  let b := s.rd F.vxPortCal_booking i
  if s.flag F.vxPortCal_valid i && (s.bookSt b == 1 || s.bookSt b == 2) then s else s.softWr .vxPortCal i v

/-! ## Scheduled transfers (R346, R348, R350) -/

/-- The first booked slot from slot `a` on. -/
def nextBooked (slots : List Nat) (a : Nat) : Option Nat := (lowest 4096 (fun i => slots.contains ((a + i) % 4096))).map (a + ·)

/-- The end, in calendar slots since FT 0, of the `k`-th booked slot counted from booked slot `f` (R346). -/
def kthEnd (slots : List Nat) (f k : Nat) : Nat :=
  let n := slots.length
  let from_ := slots.filter (fun i => decide (f % 4096 ≤ i)) ++ (slots.filter (fun i => decide (i < f % 4096))).map (· + 4096)
  let j := k - 1
  f - f % 4096 + 4096 * (j / n) + from_.getD (j % n) 0 + 1

/-- TRANSFER_OFFER: the oldest offer of partition `p` is accepted, or ends with the first failing status of Table 12-8. -/
def State.offerTake (s : State) (p : Nat) : State :=
  match s.offers.find? (fun (o : Offer) => o.part == p) with
  | none => s
  | some o =>
    let b := o.book
    let s := { s with offers := s.offers.filter (fun (y : Offer) => y.id != o.id) }
    if s.bookSt b != 2 || s.bookRole b != 0 then s.offerEnd o.id 0x90
    else if s.rd F.hfVxBook0_part b != p then s.offerEnd o.id 0x91
    else
      let x := s.rd F.hfVxBook0_outPort b
      let now := s.ftPort x
      let slots := s.slotsOf x b
      let k := ceilDiv (ceilDiv o.data.length 240) 24
      let held := s.transfers.filter (fun (t : Transfer) => t.book == b)
      match nextBooked slots (max (ceilDiv (now + 64) 32) (mgetD s.taken b 0)) with
      | none => s.offerEnd o.id 0x93
      | some f =>
        let last := kthEnd slots f k
        let due := 32 * last + s.rd F.hfVxBook1_pathLat b + 2000
        let ack := due + s.rd F.hfVxBook1_pathLat b + 64 * s.rd F.hfVxBook1_hops b
        let dl := o.deadline.getD (ack + 1)
        if dl ≤ ack then s.offerEnd o.id 0x93
        else if 128 ≤ held.length then s.offerEnd o.id 0x94
        else
          let n := mgetD s.xferNext b 0
          let data := o.data.take 24 ++ leBytes 8 (s.ftPart p) ++ o.data.drop 32
          { s with taken := mput s.taken b last, xferNext := mput s.xferNext b ((n + 1) % 256),
                   transfers := s.transfers ++ [{ id := o.id, book := b, xfer := n, data := data, first := f, last := last,
                                                  deadline := dl, at_ := now }] }

/-- TRANSFER_ACK at entry `b`: passed on, or the transfer is complete if it came by deadline - 1 (R348); in the tick of a
REVOKE the ACK comes first (R350). -/
def State.ackIn (s : State) (x b n : Nat) : State :=
  if s.bookRole b == 2 || s.rd F.hfVxBook0_outPort b != x then s
  else if s.bookRole b == 1 then
    (if s.bookSt b == 2 then s.portSend (s.rd F.hfVxBook0_inPort b) 0 (.ack (s.rd F.hfVxBook0_prevIndex b) n) else s)
  else
    match s.transfers.find? (fun (t : Transfer) => t.book == b && t.xfer == n) with
    | none => s
    | some t => if s.ftPort x < t.deadline then s.transferEnd t 0 0 else s

/-- TRANSFER_DEADLINE: the transfer of number `id` has no ACK at deadline - 1 and ends REVOKED, subcode 3, with that tick (R348, R350). -/
def State.transferLate (s : State) (id : Nat) : State :=
  match s.transfers.find? (fun (t : Transfer) => t.id == id) with
  | none => s
  | some t =>
    if s.ftPort (s.rd F.hfVxBook0_outPort t.book) + 1 < t.deadline || t.rev.isSome then s
    else { s with transfers := s.transfers.map (fun (y : Transfer) => if y.id == t.id then { y with rev := some 3 } else y) }

/-- The end of a tick: transfers that a revocation or their deadline met in it, and no ACK, end REVOKED with their subcode (R348, R350). Log: 1 (DESIGN CHOICE). -/
def State.endTick (s : State) : State :=
  if s.transfers.any (fun t => t.rev.isSome) then
    settle (s.transfers.foldl (fun s t => match t.rev with
      | some c => s.transferEnd t 0x92 c
      | none => s) s)
  else s

/-! ## Events -/

/-- CLASS_T_SYNC_SEND. -/
def execClassTSyncSend (x : PortId) (s : State) : Host.Outcome State Fault Refusal := finish (s.syncSend x)
/-- CLASS_T_SYNC. -/
def execClassTSync (x : PortId) (t1 : Nat) (fr : Fin 16) (s : State) : Host.Outcome State Fault Refusal := finish (s.syncIn x t1 fr)
/-- SYNC_RESP. -/
def execSyncResp (x : PortId) (t1 t2 t3 : Nat) (fr : Fin 16) (hops : Nat) (s : State) : Host.Outcome State Fault Refusal :=
  finish (s.syncResp x t1 t2 t3 fr hops)
/-- ANNOUNCE. -/
def execAnnounce (x : Via) (a : Announce) (s : State) : Host.Outcome State Fault Refusal :=
  finish (if s.mySerial x.dst then s.announceIn x.port a else s)
/-- MASTER_TIMEOUT. -/
def execMasterTimeout (s : State) : Host.Outcome State Fault Refusal := finish s.masterTimeout
/-- FLIT_RECEIVE. -/
def execFlitReceive (x : PortId) (b : List Byte) (errs : List Nat) (was pos due len : Nat) (s : State) : Host.Outcome State Fault Refusal :=
  finish (s.flitReceive x b errs was pos due len)
/-- FLIT_POSITION. -/
def execFlitPosition (x : PortId) (s : State) : Host.Outcome State Fault Refusal := finish (s.flitPosition x)
/-- LANE_LOCK_LOSS. -/
def execLaneLockLoss (x : PortId) (lanes : Fin 256) (s : State) : Host.Outcome State Fault Refusal := finish (s.lockLoss x lanes)
/-- FLIT_SILENCE_TIMEOUT. -/
def execFlitSilenceTimeout (x : PortId) (s : State) : Host.Outcome State Fault Refusal := finish (s.silence x)
/-- DOWN_WAIT_EXPIRY. -/
def execDownWaitExpiry (x : PortId) (s : State) : Host.Outcome State Fault Refusal := finish (s.downWaitEnd x)
/-- PORT_TRAINED. -/
def execPortTrained (x : PortId) (s : State) : Host.Outcome State Fault Refusal := finish (s.trained x)
/-- HELLO_SEND. -/
def execHelloSend (x : PortId) (s : State) : Host.Outcome State Fault Refusal := finish (s.helloSend x)
/-- HELLO. -/
def execHello (x : Via) (h : Hello) (s : State) : Host.Outcome State Fault Refusal :=
  finish (if s.mySerial x.dst then s.helloIn x.port h else s)
/-- CERT. -/
def execCert (x : PortId) (chain : List Nat) (s : State) : Host.Outcome State Fault Refusal := finish (s.certIn x chain)
/-- PEER_VERDICT. -/
def execPeerVerdict (x : PortId) (s : State) : Host.Outcome State Fault Refusal := finish (s.peerVerdict x)
/-- LSA. -/
def execLsa (x : Via) (l : Lsa) (s : State) : Host.Outcome State Fault Refusal :=
  finish (if s.mySerial x.dst then s.lsaIn x.port l else s)
/-- LSA_REFRESH. -/
def execLsaRefresh (s : State) : Host.Outcome State Fault Refusal := finish s.lsaRefresh
/-- LSA_EXPIRY. -/
def execLsaExpiry (k : Nat) (s : State) : Host.Outcome State Fault Refusal := finish (s.lsaExpiry k)
/-- PACKET_FORWARD. -/
def execPacketForward (x : PortId) (s : State) : Host.Outcome State Fault Refusal := finish (s.forward x)
/-- VX_ID_WRITE. -/
def execVxIdWrite (f : Func) (v : Word64) (s : State) : Host.Outcome State Fault Refusal :=
  finish (s.host f .hfVxId 0 true (fun s => s.idWrite v.toNat))
/-- BOOK_ACTIVATE: a write with activate set. -/
def execBookActivate (f : Func) (b : BookId) (v : Word64) (s : State) : Host.Outcome State Fault Refusal :=
  finish (if bitAt v.toNat 4 then s.host f .hfVxBook0 b true (fun s => s.bookWrite b v.toNat) else s)
/-- CONFIRM. -/
def execConfirm (x : PortId) (b : BookId) (prev lat links : Nat) (slots : List Nat) (s : State) : Host.Outcome State Fault Refusal :=
  finish (s.confirmIn x b prev lat links slots)
/-- CONFIRMED. -/
def execConfirmed (x : PortId) (b : BookId) (lat links : Nat) (s : State) : Host.Outcome State Fault Refusal :=
  finish (s.confirmedIn x b lat links)
/-- REFUSED. -/
def execRefused (x : PortId) (b : BookId) (hop reason : Nat) (s : State) : Host.Outcome State Fault Refusal :=
  finish (s.refusedIn x b hop reason)
/-- BOOK_CONFIRM_TIMEOUT. -/
def execBookConfirmTimeout (b : BookId) (s : State) : Host.Outcome State Fault Refusal := finish (s.confirmTimeout b)
/-- BOOK_REVOKE: a write with revoke set. -/
def execBookRevoke (f : Func) (b : BookId) (v : Word64) (s : State) : Host.Outcome State Fault Refusal :=
  finish (if bitAt v.toNat 5 then s.host f .hfVxBook0 b true (fun s => s.bookWrite b v.toNat) else s)
/-- REVOKE. -/
def execRevoke (x : PortId) (b : BookId) (cause : Nat) (s : State) : Host.Outcome State Fault Refusal := finish (s.revokeIn x b cause)
/-- BOOK_ENTRY_WRITE: a write with neither activate nor revoke. -/
def execBookEntryWrite (f : Func) (b : BookId) (v : Word64) (s : State) : Host.Outcome State Fault Refusal :=
  finish (if bits v.toNat 4 2 == 0 then s.host f .hfVxBook0 b true (fun s => s.bookWrite b v.toNat) else s)
/-- CAL_WRITE. -/
def execCalWrite (f : Func) (x : PortId) (k : MarkId) (v : Word64) (s : State) : Host.Outcome State Fault Refusal :=
  finish (s.host f .vxPortCal (x.val * 4096 + k.val) true (fun s => s.calWrite x k v.toNat))
/-- TRANSFER_OFFER. -/
def execTransferOffer (p : PartId) (s : State) : Host.Outcome State Fault Refusal := finish (s.offerTake p)
/-- TRANSFER_ACK. -/
def execTransferAck (x : PortId) (b : BookId) (n : Nat) (s : State) : Host.Outcome State Fault Refusal := finish (s.ackIn x b n)
/-- TRANSFER_DEADLINE. -/
def execTransferDeadline (id : Nat) (s : State) : Host.Outcome State Fault Refusal := finish (s.transferLate id)

end Sys2Proof.Machine
end

