-- ==== Sys2Proof/Machine/Power.lean ====
section
/-! DEFINITION. Power and thermal management (chapter 16) and power sequencing (chapter 20, R526 to R528): faults on the rails, clusters
switched off and on, the cap and how it is shared, power-contract mode, slack, the broker, energy, thermal limits. -/

namespace Sys2Proof.Machine

/-! ## Faults on the rails (R423 to R425) -/

/-- Whether partition `p` has power. -/
def State.partLive (s : State) (p : Nat) : Bool := s.board.powered && !s.partDark p

/-- VR_PHASE_LOSS: regulator phase `i` of cluster `c` is lost. -/
def State.phaseLoss (s : State) (c i : Nat) : State :=
  let w := s.rd F.partPwrClu_phasesOk c
  if !bitAt w i || !s.partLive (c / 36) || s.cluState c == 3 then s
  else
    let w := putBits w i 1 0
    let n := countBelow 8 (fun k => bitAt w k)
    let p := c / 36
    let s := s.wr F.partPwrClu_phasesOk c w
    let s := { s with flash := { s.flash with phases := mput s.flash.phases c w } }
    if n < 7 then s.clusterDark c 1
    else
      let pay := c % 36 + n * 2 ^ 8
      let s := s.report 0x0E { s.blank (unitDeputy p) with part := p, clu := c % 36, detail := [pay, 0] }
      let s := (s.setClu c { s.cluSt c with regulator := 5 }).wr F.partPwrClu_op5Cap c 1
      ((s.stick F.partPwrSticky_vrPhaseLoss p p).deputyEvent p 0x0500 pay 0).select c

/-- CLUSTER_RAIL_SHORT. -/
def State.railShort (s : State) (c : Nat) : State := if s.partLive (c / 36) then s.clusterDark c 2 else s

/-- A fault that takes a partition's rails down. -/
def State.partFault (s : State) (p cause : Nat) : State := if s.partLive p then s.darken p cause else s

/-- CONVERTER_PHASE_LOSS: a zone with fewer than 3 phases shuts its bank down. -/
def State.converterLoss (s : State) (p z : Nat) : State :=
  let n := s.rd F.partPwrZone_phases (p * 6 + z)
  if n == 0 || !s.partLive p then s
  else
    let s := s.wr F.partPwrZone_phases (p * 6 + z) (n - 1)
    let s := (s.wr F.partPwrBank_phasesOk p (s.rd F.partPwrBank_phasesOk p - 1)).stick F.partPwrSticky_convPhaseLoss p p
    if n - 1 < 3 then s.darken p 1 else s

/-- B8_FAULT: the report is in flash before the module is off (R472, Table 17-6). Log: 116 (DEDUCED). -/
def State.b8Fault (s : State) (unit : Nat := unitPower) : State :=
  if !s.board.powered then s
  else
    let s := s.report 0x0D (s.blank unit)
    match s.reports.getLast? with
    | some r => (s.logAdd r).shutDown
    | none => s.shutDown

/-- INPUT_LIMIT: more than 450 A for 5 µs; every cluster's cap falls to two points below the one it runs at. Log: 100 (DEDUCED). -/
def State.inputLimit (s : State) (vin iin : Nat) : State :=
  if iin ≤ 4500 || !s.board.powered then s
  else
    let s := (s.wr F.hfPwrInput_vinMv 0 (min vin 65535)).wr F.hfPwrInput_iin 0 (min iin 65535)
    let s := (s.inc F.hfPwrInput_inputLimit 0).wr F.hfPwrSticky_inputLimit 0 1
    let s := s.powerNote 0x0509 (vin % 2 ^ 32 + iin % 2 ^ 32 * 2 ^ 32) 0
    let s := loop 288 (fun c s =>
      s.setClu c { s.cluSt c with power := min (s.cluSt c).power (s.rd F.cluOp_curOp c - 2) }) s
    s.selectAll

/-- INPUT_UNDERVOLTAGE and INPUT_OVERVOLTAGE (R423): the input is no longer in its range. -/
def State.inputLost (s : State) : State :=
  let s := { s with board := { s.board with inRange := false } }
  if s.board.powered then s.shutDown else s

/-! ## Clusters switched off and on (R431 to R433) -/

/-- Cores of cluster `c` of the module. -/
def coresIn (c : Nat) : List Nat := (List.range 16).map (fun k => 576 * (c / 36) + 16 * (c % 36) + k)

/-- Every sticky register of cluster `c` and its cores reads 0. -/
def State.stickyClear (s : State) (c : Nat) : Bool :=
  s.reg .cluClkSticky c == 0
  && (coresIn c).all (fun g => (allRegs.filter (fun r => r.info.blk == .core && r.info.dom == .sticky)).all (fun r => s.reg r g == 0))

/-- Cluster `c` has had no work for idle_us: every queue idle, no Assay service. Log: 108 (DEDUCED). -/
def State.idleLong (s : State) (c : Nat) : Bool :=
  let t := 1000 * s.rd F.partPwrGate_idleUs (c / 36)
  (coresIn c).all (fun g =>
    !s.flag F.coreId_witness g
    && (List.range 4).all (fun e => (s.q (unitEng g e)).quiet && decide ((s.q (unitEng g e)).since + t ≤ s.up)))
  && decide ((s.cluSt c).busyAt + t ≤ s.up)

/-- A standby layout that a pending swap will make active gives cluster `c` a member or a pillar. Log: 108 (DEDUCED). -/
def State.cluAwaited (s : State) (c : Nat) : Bool :=
  s.swap.isSome && s.standby.any (fun (l : Layout) => l.roles.any (fun e => cluIdx e.1 == c))

/-- CLUSTER_SWITCH_OFF. Log: 108 (DEDUCED). -/
def State.switchOff (s : State) (c : Nat) : State :=
  if s.flag F.partPwrGate_gateEn (c / 36) && s.cluState c == 2 && !s.roles.any (fun e => cluIdx e.1 == c) && !s.cluAwaited c
     && s.idleLong c && s.stickyClear c then
    (s.cluStop c).wr F.partPwrClu_state c 0
  else s

/-- A write to PART_PWR_GATE; gate_en written to 0 switches every cluster on that is off (R432). -/
def State.gateWrite (s : State) (p v : Nat) : State :=
  let s := s.softWr .partPwrGate p v
  if v % 2 == 0 then (cluOfPart p).foldl (fun s c => s.wake c) s else s

/-- Rating of zone `z` of partition `p` in 0.1 A (Table 16-1). Log: 102 (DEDUCED). -/
def State.zoneRating (s : State) (p z : Nat) : Nat := 450 * s.rd F.partPwrZone_phases (p * 6 + z)

/-- The cluster among a list that is lowered first: at the highest point, ties to the highest logical number (R433, R436). -/
def highest (op : Nat → Nat) (cs : List Nat) : Option Nat :=
  cs.foldl (fun m c => match m with
    | none => some c
    | some b => if op c < op b then some b else some c) none

/-- One forced step in zone `z` (R433). Log: 102 (DEDUCED). -/
def State.forceStep (s : State) (p z : Nat) : State :=
  let on := ((List.range 6).map (fun i => 36 * p + 6 * z + i)).filter (fun c => s.cluState c == 2 && s.rd F.cluOp_curOp c != 0)
  match highest (fun c => s.rd F.cluOp_curOp c) on with
  | none => s
  | some c =>
    let x := s.cluSt c
    let s := s.setClu c { x with forced := min x.forced (s.rd F.cluOp_curOp c) - 1 }
    ((s.inc F.partPwrZone_forced (p * 6 + z)).stick F.partPwrSticky_forcedCap p p).select c

/-- SWITCH_ON_SLOT: at a notice-slot boundary, with the zone's current over the last 1,000 ticks, in 0.1 A. Log: 102 (DEDUCED). -/
def State.switchOnSlot (s : State) (p z cur : Nat) : State :=
  let wanting := ((List.range 6).map (fun i => 36 * p + 6 * z + i)).filter (fun c => (s.cluSt c).wake && s.cluState c == 0)
  match wanting with
  | [] => s
  | c :: _ =>
    if s.ftPart p % 1024 != 0 || !s.partLive p then s
    else if cur + 300 ≤ s.zoneRating p z then
      (s.setClu c { s.cluSt c with wake := false, deferred := 0, softAt := s.ftPart p }).wr F.partPwrClu_state c 1
    else
      let n := (s.cluSt c).deferred
      let s := (s.inc F.partPwrZone_deferrals (p * 6 + z)).setClu c { s.cluSt c with deferred := n + 1 }
      let s := if n == 0 then s.deputyEvent p 0x0503 (c % 36 + z * 2 ^ 8) 0 else s
      if 16 ≤ n + 1 then s.forceStep p z else s

/-- Registers of core `g` at their core-reset values: retirement, fence, microcode version and its place in the active layout stay
(Tables 8-6, 17-9, 19-9), and sticky registers (R11). Log: 120 (DEDUCED), 151 (DESIGN CHOICE). -/
def State.coreRegs (s : State) (g : Nat) : State :=
  let keepId := s.reg .coreId g % 2 ^ 28
  let own := allRegs.filter (fun r => r.info.blk == .core && r.info.dom == .core && r != .coreId && r != .coreMcode)
  let s := own.foldl (fun s r => s.resetReg r g) s
  let qs := allRegs.filter (fun r => r.info.dom == .queue && r != .qBench && r != .qMember)
  let s := loop 4 (fun e s =>
    let u := unitEng g e
    let s := qs.foldl (fun s r => s.resetReg r u) s
    { s with queues := mputD s.queues u { since := s.up } {} }) s
  s.setReg .coreId g keepId

/-- Registers of cluster `c` at their reset values, sticky ones kept; the trim stays as flash has it (R285). -/
def State.cluRegs (s : State) (c : Nat) : State :=
  let own := allRegs.filter (fun r => r.info.blk == .clu && r.info.dom == .clu)
  (own.foldl (fun s r => s.resetReg r c) s).wr F.cluOp_trim c (s.cluSt c).trim

/-- Private buffers of a core, its row stage and accumulator file at zero (R68, R96). -/
def State.zeroBufs (s : State) (g : Nat) : State := { s with bufs := s.bufs.zero (g * 2 ^ 20) ((g + 1) * 2 ^ 20) }

/-- SOFT_START_DONE (Table 16-3). -/
def State.softDone (s : State) (c : Nat) : State :=
  let p := c / 36
  if s.cluState c != 1 || s.ftPart p < (s.cluSt c).softAt + 20000 || !s.partLive p then s
  else
    let s := ((coresIn c).foldl (fun s g => (s.coreRegs g).zeroBufs g) s).cluRegs c
    let s := { s with mem := s.mem.zero (cmRow (576 * p + 16 * (c % 36)) 0) (cmRow (576 * p + 16 * (c % 36) + 16) 0) }
    let s := (s.wr F.partPwrClu_state c 2).wr F.cluOp_curOp c 0
    let s := s.inc F.partPwrGate_switchOns p
    let zone := (List.range 6).map (fun i => 36 * p + c % 36 / 6 * 6 + i)
    let s := zone.foldl (fun s k => s.setClu k { s.cluSt k with forced := 7 }) s
    zone.foldl (fun s k => s.select k) s

/-! ## The cap (R434 to R437) -/

/-- Input limit in W; none before the input is measured (R423). Log: 100 (DEDUCED). -/
def State.inputCap (s : State) : Option Nat :=
  let v := s.rd F.hfPwrInput_vinMv 0
  if v == 0 then none else some (v * 450 / 1000)

/-- The contract cap in force (R438). Log: 103 (DEDUCED). -/
def State.contractCap (s : State) : Option Nat := if s.flag F.hfPwrContract_en 0 then s.power.contract else none

/-- The contribution c of R441. Log: 104 (DEDUCED). -/
def State.contribution (s : State) : Nat :=
  (s.contractCap.toList ++ s.inputCap.toList).foldl min (min (s.rd F.hfPwrBrokerGuard_contribW 0) (s.rd F.hfPwrCap_capW 0))

/-- The ceiling u of R441. Log: 104 (DEDUCED). -/
def State.ceiling (s : State) : Nat := s.inputCap.toList.foldl min (s.rd F.hfPwrCap_capW 0)

/-- The grant a member runs under: the one in force, or its contribution (R440). Log: 104 (DEDUCED). -/
def State.grantNow (s : State) : Option Nat :=
  if s.flag F.hfPwrBroker_en 0 then some (s.power.ownGrant.getD s.contribution) else none

/-- The effective cap and what binds follow the four values of R434. -/
def State.recap (s : State) : State :=
  let opts := [(0, s.rd F.hfPwrCap_capW 0)] ++ s.contractCap.toList.map (fun v => (1, v)) ++ s.grantNow.toList.map (fun v => (2, v))
    ++ s.inputCap.toList.map (fun v => (3, v))
  let low := opts.foldl (fun m x => min m x.2) (s.rd F.hfPwrCap_capW 0)
  let code := ((opts.find? (fun x => x.2 == low)).map (·.1)).getD 0
  let s := (s.wr F.hfPwrCap_effCap 0 low).wr F.hfPwrCap_limiter 0 code
  if s.flag F.hfPwrBroker_en 0 then
    (s.wr F.hfPwrBrokerStat_cW 0 s.contribution).wr F.hfPwrBrokerStat_grantW 0 (s.grantNow.getD 0)
  else s

/-- CAP_WRITE (R434). -/
def State.capWrite (s : State) (v : Nat) : State :=
  let w := bits v 0 15
  if w < 4000 || 18000 < w then s.wr F.hfPwrCap_capErr 0 1
  else ((s.wr F.hfPwrCap_capW 0 w).wr F.hfPwrCap_capErr 0 0).recap

/-- Budgets of the classes in priority order (R436): class numbers 0 links, 1 memory, 2 compute. Log: 101 (DEDUCED). -/
def budgets (prio cap : Nat) (d : List Nat) : List Nat :=
  let out := (List.range 3).foldl (fun (acc : Nat × List Nat) k =>
    let c := bits prio (2 * k) 2
    let b := min (d.getD c 0) acc.1
    (acc.1 - b, setNth acc.2 c b)) (cap, [0, 0, 0])
  out.2

/-- The priority order of the current phase; links, memory, compute while no layout is active (R252, R436). -/
def State.prioNow (s : State) : Nat :=
  match s.active with
  | none => 0x24
  | some l => ((l.phases[s.rd F.hfShift_phase 0]?).map (·.prio)).getD 0x24

/-- Points of the clusters of partition `p` lowered one step at a time until the partition fits its share and every zone its rating: over
the share the highest of all, over a rating the highest of the zone (R436). Zone currents are at 2.4 V, in 0.1 A. Log: 101 (DEDUCED). -/
def fitCaps (m : PowerMeas) (p share : Nat) (rating : Nat → Nat) : Nat → NMap Nat → NMap Nat
  | 0, ops => ops
  | f + 1, ops =>
    let est := fun (e : Nat × Nat) => m.est.getD (8 * e.1 + e.2) 0
    let total := ops.foldl (fun n e => n + est e) 0
    let zoneOver := (List.range 6).find? (fun z =>
      let w := (ops.filter (fun e => e.1 % 36 / 6 == z)).foldl (fun n e => n + est e) 0
      decide (rating z < m.zoneBase.getD (p * 6 + z) 0 + w * 100 / 24)
      && ops.any (fun e => e.1 % 36 / 6 == z && e.2 != 0))
    let pool :=
      if share < total then ops.filter (fun e => e.2 != 0)
      else match zoneOver with
        | some z => ops.filter (fun e => e.2 != 0 && e.1 % 36 / 6 == z)
        | none => []
    match highest (fun c => mgetD ops c 0) (pool.map (·.1)) with
    | none => ops
    | some c => fitCaps m p share rating f (mput ops c (mgetD ops c 0 - 1))

/-- What limits a cluster besides its power cap. -/
def Clu.otherCap (x : Clu) : Nat := { x with power := 7 }.cap

/-- The Deputy of partition `p` meets its share (R436). Log: 101 (DEDUCED). -/
def State.deputyCaps (s : State) (m : PowerMeas) (p share : Nat) : State :=
  let on := (cluOfPart p).filter (fun c => s.cluState c == 2)
  let start := on.map (fun c => (c, min (s.request c).1 (s.cluSt c).otherCap))
  let fit := fitCaps m p share (fun z => s.zoneRating p z) 252 start
  let s := start.foldl (fun s e =>
    let v := mgetD fit e.1 e.2
    s.setClu e.1 { s.cluSt e.1 with power := if v < e.2 then v else 7 }) s
  s.moveClusters on

/-- Pacing of a class in sixteenths: none while its budget covers its demand, else a value not stated above its floor (R435). Log: 101 (DEDUCED). -/
def State.paceFor (s : State) (budget demand floor_ : Nat) : Nat × State :=
  if demand ≤ budget then (16, s) else (floor_ + s.fresh.1 % (16 - floor_), s.fresh.2)

/-- Readings of one loop enter their registers (R444). -/
def State.readings (s : State) (m : PowerMeas) : State :=
  let cap16 := fun (v : Nat) => min v 65535
  let s := (s.wr F.hfPwrMeas_inputW 0 (cap16 m.input)).wr F.hfPwrMeas_linksW 0 (cap16 (m.cls.getD 0 0))
  let s := (s.wr F.hfPwrMeas_memoryW 0 (cap16 (m.cls.getD 1 0))).wr F.hfPwrMeas_computeW 0 (cap16 (m.cls.getD 2 0))
  let s := (s.wr F.hfPwrInput_vinMv 0 (cap16 m.vin)).wr F.hfPwrInput_iin 0 (cap16 m.iin)
  let add := fun (f : Fld) (i d : Nat) (s : State) => s.wr f i ((s.rd f i + d) % 2 ^ 64)
  let s := add F.hfPwrEnergyCommon_b8Uj 0 (m.uj.getD 1 0) (add F.hfPwrEnergy_moduleUj 0 (m.uj.getD 0 0) s)
  let s := s.wr F.hfPwrEnergyLife_lifeUj 0 ((s.lifeBase.getD 0 0 + s.rd F.hfPwrEnergy_moduleUj 0) % 2 ^ 64)
  let s := loop 8 (fun p s =>
    let s := add F.partPwrEnergy_bankUj p (m.uj.getD (2 + p) 0) s
    (s.wr F.partPwrBank_current p (cap16 (m.bankCur.getD p 0))).wr F.partPwrBank_powerW p (cap16 (m.bankW.getD p 0))) s
  let s := loop 48 (fun z s => s.wr F.partPwrZone_current z (cap16 (m.zoneCur.getD z 0))) s
  loop 288 (fun c s => s.wr F.partPwrClu_vout c (cap16 (m.vout.getD c 0))) s

/-- CAP_UNMET (R437): every class at its floor still exceeds the effective cap. Log: 101 (DEDUCED). -/
def State.capUnmet (s : State) (m : PowerMeas) : State :=
  let cap := s.rd F.hfPwrCap_effCap 0
  let low := (List.range 288).foldl (fun n c => if s.cluState c == 2 then n + m.est.getD (8 * c) 0 else n) (m.floors.foldl (· + ·) 0)
  if cap < low then
    if s.flag F.hfPwrCap_capUnmet 0 then s
    else ((s.wr F.hfPwrCap_capUnmet 0 1).wr F.hfPwrSticky_capUnmet 0 1).powerNote 0x0504 (cap + min m.input (2 ^ 32 - 1) * 2 ^ 32) 0
  else s.wr F.hfPwrCap_capUnmet 0 0

/-- POWER_LOOP (R436). During the pause of an activation every cap stands (R506). Log: 17 (DEDUCED). -/
def State.powerLoop (s : State) (m : PowerMeas) : State :=
  if !s.board.powered || !s.board.perstN then s
  else
    let s := s.readings m
    if s.act.any (fun a => a.c.isSome) then s else
    let s := s.recap
    let b := budgets s.prioNow (s.rd F.hfPwrCap_effCap 0) m.demand
    let (lp, s) := s.paceFor (b.getD 0 0) (m.demand.getD 0 0) 1
    let (mp, s) := s.paceFor (b.getD 1 0) (m.demand.getD 1 0) 4
    let s := { s with power := { s.power with linkPace := lp, memPace := mp } }
    let total := m.part.foldl (· + ·) 0
    let s := loop 8 (fun p s =>
      if s.partDark p then s else s.deputyCaps m p (if total == 0 then 0 else b.getD 2 0 * m.part.getD p 0 / total)) s
    s.capUnmet m

/-! ## Power-contract mode (R438) -/

/-- CONTRACT_WRITE. Log: 103 (DEDUCED). -/
def State.contractWrite (s : State) (v : Nat) : State :=
  let win := bits v 1 6
  let tgt := bits v 8 15
  if tgt < 4000 || win < 1 || 60 < win then s.wr F.hfPwrContract_contractErr 0 1
  else
    let was := s.flag F.hfPwrContract_en 0
    let s := (s.wr F.hfPwrContract_contractErr 0 0).wr F.hfPwrContract_en 0 (v % 2)
    let s := (s.wr F.hfPwrContract_windowS 0 win).wr F.hfPwrContract_targetW 0 tgt
    let s :=
      if v % 2 == 0 then { (s.wr F.hfPwrContract_floorHold 0 0) with power := { s.power with contract := none, slices := [] } }
      else if was then s
      else { s with power := { s.power with contract := none, slices := [], contractAt := s.ft, contractLast := s.ft / 10000000,
                                            lastUj := s.rd F.hfPwrEnergy_moduleUj 0 } }
    s.recap

/-- CONTRACT_UPDATE: at every FT multiple of 10,000,000. Energies are in µJ; the part of the window before the mode was enabled counts at
the target. Log: 103 (DEDUCED). -/
def State.contractUpdate (s : State) : State :=
  let k := s.ft / 10000000
  if !s.flag F.hfPwrContract_en 0 || k ≤ s.power.contractLast then s
  else
    let tgt := s.rd F.hfPwrContract_targetW 0
    let win := s.rd F.hfPwrContract_windowS 0
    let now := s.rd F.hfPwrEnergy_moduleUj 0
    let e := (now + 2 ^ 64 - s.power.lastUj) % 2 ^ 64
    let first := s.power.slices.isEmpty
    let head := if first then e + tgt * (10000000 - min 10000000 (s.ft - s.power.contractAt)) / 1000 else e
    let sl := (head :: s.power.slices).take (win * 100 - 1)
    let prev := sl.foldl (· + ·) 0 + (win * 100 - 1 - sl.length) * (tgt * 10000)
    let c : Int := ((tgt * win * 1000000 : Nat) : Int) - ((prev : Nat) : Int)
    let w : Int := c / 10000
    let cap := min (max 4000 w.toNat) (s.rd F.hfPwrCap_capW 0)
    let s := s.wr F.hfPwrContract_floorHold 0 (ofBool (decide (w < 4000)))
    ({ s with power := { s.power with contract := some cap, slices := sl, lastUj := now, contractLast := k } }).recap

/-! ## Slack (R439) -/

/-- A command of partition `p` that started between two ticks has not completed. Log: 64 (DEDUCED). -/
def State.slackOpen (s : State) (r : SlackRun) : Bool :=
  s.queues.any (fun e => decide (e.1 < 18440) && s.queuePart e.1 == r.part
    && e.2.started.any (fun x => decide (r.start ≤ x.at_) && decide (x.at_ ≤ r.ref)))

/-- SLACK_REPORT: the oldest slack due of partition `p`. Log: 64 (DEDUCED). -/
def State.slackReport (s : State) (p : Nat) : State :=
  match s.slackRuns.find? (fun r => r.part == p) with
  | none => s
  | some r =>
    let len := (s.active.map (·.shiftLen)).getD 0
    let late := decide (r.ref + len ≤ s.ftPart p)
    let done := decide (r.ref ≤ s.ftPart p) && !s.slackOpen r
    if !late && !done then s
    else
      let v : Int := if done then (r.ref : Int) - (r.done : Int) else -(len : Int)
      let s := { s with slackRuns := s.slackRuns.filter (fun x => x != r), slacks := s.slacks ++ [(r.ref, v)] }
      (s.wr F.partPwrSlack_slack p (ofSigned 32 v)).wr F.partPwrSlack_phase p r.phase

/-! ## The fabric power broker (R440 to R442) -/

/-- The module's own election key. -/
def State.brokerKey (s : State) : Nat × Nat := (s.rd F.hfPwrBroker_priority 0, s.rd F.hfVxSerial_serial 0)
/-- A lower key wins. -/
def keyLess (a b : Nat × Nat) : Bool := decide (a.1 < b.1) || (a.1 == b.1 && decide (a.2 < b.2))

/-- A best key is known: the broker's serial and the role follow, and a change of broker is told. -/
def State.brokerIs (s : State) (k : Nat × Nat) : State :=
  let changed := s.rd F.hfPwrBrokerId_brokerSerial 0 != k.2
  let s := { s with power := { s.power with best := some k, members := if changed then [] else s.power.members } }
  let s := s.wr F.hfPwrBrokerId_brokerSerial 0 k.2
  let s := if s.flag F.hfPwrBroker_en 0 then s.wr F.hfPwrBrokerStat_role 0 (if k == s.brokerKey then 2 else 1) else s
  if changed then s.powerNote 0x0505 k.2 0 else s

/-- A key goes to the neighbours of the district that meet a test (R440). Log: 62 (DEDUCED). -/
def State.electAll (s : State) (k : Nat × Nat) (ok : Nat → Bool) : State := s.portSendAll 2 (.elect k.1 k.2) (fun y => ok y && !s.apart y)

/-- The module begins an election with its own key, if it may be broker. Log: 62 (DEDUCED). -/
def State.electBroker (s : State) : State :=
  let s := { s with power := { s.power with best := none } }
  if s.flag F.hfPwrBroker_en 0 && s.flag F.hfPwrBroker_brokerOk 0 then
    let k := s.brokerKey
    (s.brokerIs k).electAll k (fun _ => true)
  else s

/-- A write to HF_PWR_BROKER: membership begins with an election and ends with the role OFF. -/
def State.brokerWrite (s : State) (v : Nat) : State :=
  let was := s.flag F.hfPwrBroker_en 0
  let s := s.softWr .hfPwrBroker 0 v
  let now := s.flag F.hfPwrBroker_en 0
  if now && !was then
    let period := s.ft / (max 1 (s.rd F.hfPwrBroker_periodMs 0) * 1000000)
    let s := { s with power := { s.power with ownGrant := none, period := period, granted := period, members := [] } }
    ((s.wr F.hfPwrBrokerStat_role 0 1).electBroker).recap
  else if was && !now then
    let s := { s with power := { s.power with ownGrant := none, best := none, members := [] } }
    let s := (s.setReg .hfPwrBrokerStat 0 0).wr F.hfPwrBrokerId_brokerSerial 0 0
    s.recap
  else s.recap

/-- BROKER_ELECT: a key heard on port `x` from the district; a better one is taken and passed on, a worse one answered with the best. Log: 62 (DEDUCED). -/
def State.brokerElect (s : State) (x prio serial : Nat) : State :=
  let k := (prio, serial)
  if !s.portUp x || s.apart x then s else
  match s.power.best with
  | some b =>
    if k == b then s
    else if keyLess k b then (s.brokerIs k).electAll k (fun y => y != x)
    else s.portSend x 2 (.elect b.1 b.2)
  | none => (s.brokerIs k).electAll k (fun y => y != x)

/-- The port toward a module of the district: a direct link, or the route to the ID its advertisement gives. -/
def State.portTo (s : State) (serial : Nat) : Option Nat :=
  match lowest 64 (fun x => s.portUp x && s.rd F.vxPortPeer_peerSerial x == serial) with
  | some x => some x
  | none => (s.lsdb.find? (fun e => e.lsa.origin == serial && e.lsa.idValid)).bind (fun e => s.routeOf 1 e.lsa.id 0)

/-- Ticks of a broker period. -/
def State.periodTicks (s : State) : Nat := max 1 (s.rd F.hfPwrBroker_periodMs 0) * 1000000

/-- The module's least slack over the shifts whose R fell in the period before FT multiple `k` of the period. -/
def State.periodSlack (s : State) (k : Nat) : Option Int :=
  let t := s.periodTicks
  let l := (s.slacks.filter (fun e => decide ((k - 1) * t ≤ e.1) && decide (e.1 < k * t))).map (·.2)
  match l with
  | [] => none
  | v :: r => some (r.foldl min v)

/-- BROKER_PERIOD: the member sends the broker c, u and its slack; the broker keeps its own. -/
def State.brokerPeriod (s : State) : State :=
  let k := s.ft / s.periodTicks
  if !s.flag F.hfPwrBroker_en 0 || k ≤ s.power.period then s
  else
    let v := s.periodSlack k
    let c := s.contribution
    let me := s.rd F.hfVxSerial_serial 0
    let grp := s.rd F.hfPwrBroker_group 0
    let s := { s with power := { s.power with period := k }, slacks := s.slacks.filter (fun e => decide (k * s.periodTicks ≤ e.1)) }
    let s := s.wr F.hfPwrBrokerStat_cW 0 c
    if s.rd F.hfPwrBrokerStat_role 0 == 2 then
      let old := s.power.members.find? (fun m => m.serial == me)
      let m : Member := { serial := me, group := grp, c := c, u := s.ceiling, slack := v, grant := (old.map (·.grant)).getD 0 }
      let isNew := old.all (fun o => o.c != c || o.group != grp)
      let m := { m with grant := if isNew then 0 else m.grant }
      { s with power := { s.power with members := s.power.members.filter (fun m => m.serial != me) ++ [m] } }
    else
      match s.portTo (s.rd F.hfPwrBrokerId_brokerSerial 0) with
      | some x => s.portSend x 2 (.contrib me grp c s.ceiling v)
      | none => s

/-- Grants of one group from the members as they were and the contributions of the period (R442). Log: 104 (DEDUCED). -/
def groupGrants (guard step : Nat) (old now : List Member) : List Member :=
  let same := decide (old.length = now.length)
    && now.all (fun m => old.any (fun o => o.serial == m.serial && o.c == m.c && o.grant != 0))
  if !same then now.map (fun m => { m with grant := m.c })
  else
    let now := now.map (fun m => { m with grant := ((old.find? (fun o => o.serial == m.serial)).map (·.grant)).getD m.c })
    let late := now.filter (fun m => m.slack.any (fun v => decide (v < 0)))
    let isWt := fun (m : Member) => m.slack.any (fun v => decide ((guard : Int) ≤ v))
    if late.isEmpty then now
    else
      let give := fun (m : Member) => min step (m.grant - 4000)
      let pool := (now.filter isWt).foldl (fun n m => n + give m) 0
      let take := fun (m : Member) => min ((pool / late.length : Nat) : Int) ((m.u : Int) - (m.grant : Int))
      let placed := late.foldl (fun (n : Int) m => n + take m) 0
      now.map (fun m =>
        if m.slack.any (fun v => decide (v < 0)) then { m with grant := ((m.grant : Int) + take m).toNat }
        else if isWt m && pool != 0 then { m with grant := ((m.grant : Int) + (-((give m : Int) * placed)) / (pool : Int)).toNat }
        else m)

/-- GRANT_COMPUTE: the contributions that have reached the broker; its own is one of them. -/
def State.grantCompute (s : State) (ms : List Contrib) : State :=
  if s.rd F.hfPwrBrokerStat_role 0 != 2 then s
  else
    let me := s.rd F.hfVxSerial_serial 0
    let own := s.power.members.filter (fun m => m.serial == me)
    let now := (ms.filter (fun c => c.serial != me)).map (fun (c : Contrib) =>
      ({ serial := c.serial, group := c.group, c := c.c, u := c.u, slack := c.slack } : Member)) ++ own
    let groups := (now.map (·.group)).eraseDups
    let guard := s.rd F.hfPwrBrokerGuard_guard 0
    let step := 10 * s.rd F.hfPwrBroker_step 0
    let out := groups.flatMap (fun g =>
      groupGrants guard step (s.power.members.filter (fun m => m.group == g)) (now.filter (fun m => m.group == g)))
    let s := { s with power := { s.power with members := out } }
    (out.filter (fun m => m.serial != me)).foldl (fun s m =>
      match s.portTo m.serial with
      | some x => s.portSend x 2 (.grant m.serial m.grant)
      | none => s) s

/-- T of the period: 500 µs after its boundary (R441). -/
def State.grantT (s : State) : Nat := s.power.period * s.periodTicks + 500000

/-- GRANT_APPLY: a grant takes effect at T when it falls, 100 µs after T when it rises. -/
def State.grantApply (s : State) (w : Nat) : State :=
  if !s.flag F.hfPwrBroker_en 0 || s.ft < s.grantT + (if s.grantNow.all (fun g => decide (w % 2 ^ 15 ≤ g)) then 0 else 100000) then s
  else
    let s := { s with power := { s.power with ownGrant := some (w % 2 ^ 15), granted := s.power.period } }
    (s.wr F.hfPwrBrokerStat_noGrant 0 0).recap

/-- NO_GRANT: three periods without a grant. -/
def State.noGrant (s : State) : State :=
  if !s.flag F.hfPwrBroker_en 0 || s.power.period < s.power.granted + 3 then s
  else
    let s := { s with power := { s.power with ownGrant := none, granted := s.power.period } }
    ((s.wr F.hfPwrBrokerStat_noGrant 0 1).wr F.hfPwrSticky_brokerLost 0 1).electBroker.recap

/-! ## Energy (R445) -/

/-- Energy totals go to flash. -/
def State.energyWrite (s : State) : State :=
  { s with flash := { s.flash with life := s.lifeNow, onSeconds := s.onSecs, writtenAt := s.onSecs } }

/-- ENERGY_FLASH_WRITE: every 10 minutes of power-on time. Log: 17 (DEDUCED), 105 (DEDUCED). -/
def State.energyDue (s : State) : State :=
  if s.board.powered && decide (s.flash.writtenAt + 600 ≤ s.onSecs) then s.energyWrite else s

/-! ## Thermal limits (R448 to R450) -/

/-- Trip temperature of a kind of sensor, in 0.25 °C (Table 16-5). -/
def tripAt (kind : Nat) : Nat := if kind == 3 then 420 else 460
/-- Throttle temperature. -/
def hotAt (kind : Nat) : Nat := if kind == 3 then 380 else 400
/-- Temperature at which throttling may end. -/
def coolAt (kind : Nat) : Nat := if kind == 3 then 368 else 388

/-- Payload bytes 16 to 23 of THERMAL_THROTTLE and THERMAL_TRIP. Log: 106 (DEDUCED). -/
def thermPayload (x : Sensor) : Nat :=
  x.kind + (if x.kind == 1 then x.index % 36 else x.index % 256) * 2 ^ 8 + ofSigned 16 x.temp * 2 ^ 16

/-- THERMAL_THROTTLE: by the Deputy for a cluster or a transit domain, by the power manager for the Headframe and the stacks. Log: 106 (DEDUCED). -/
def State.throttleNote (s : State) (x : Sensor) : State :=
  if x.kind == 1 then s.deputyEvent (x.index / 36) 0x0506 (thermPayload x) 0
  else if x.kind == 2 && decide (x.index < 8) then s.deputyEvent x.index 0x0506 (thermPayload x) 0
  else s.powerNote 0x0506 (thermPayload x) 0

/-- A cluster's sensor: the cap moves one step at 100 µs and 1 ms. -/
def State.cluTherm (s : State) (x : Sensor) : State :=
  let c := x.index % 288
  let s := s.wr F.partPwrClu_temp c (ofSigned 16 x.temp)
  let y := s.cluSt c
  if decide ((hotAt 1 : Int) ≤ x.temp) then
    let s := if y.hot then s else (s.stick F.partPwrSticky_thermalThrottle (c / 36) (c / 36)).throttleNote x
    if y.hot && s.up < y.thermAt + 100000 then s
    else (s.setClu c { y with hot := true, thermAt := s.up, thermal := min y.thermal (s.rd F.cluOp_curOp c) - 1 }).select c
  else if decide (x.temp ≤ (coolAt 1 : Int)) && (y.hot || decide (y.thermal < 7)) then
    if s.up < y.thermAt + 1000000 then s.setClu c { y with hot := false }
    else (s.setClu c { y with hot := false, thermAt := s.up, thermal := y.thermal + 1 }).select c
  else s

/-- A sensor of the Headframe, a transit domain or a stack: throttled, and free again after 1 ms at or below its cool temperature. -/
def State.otherTherm (s : State) (x : Sensor) : State :=
  let k := x.kind * 1000 + x.index
  let put := fun (v : Option Nat) => { s with power := { s.power with throttled := mput s.power.throttled k v } }
  match mget s.power.throttled k with
  | none => if decide ((hotAt x.kind : Int) ≤ x.temp) then (put none).throttleNote x else s
  | some cool =>
    if decide ((coolAt x.kind : Int) < x.temp) then put none
    else
      match cool with
      | none => put (some s.up)
      | some t => if t + 1000000 ≤ s.up then { s with power := { s.power with throttled := mdel s.power.throttled k } } else s

/-- Class B injection in sixteenths as throttling and the budget leave it (R435, R448). -/
def State.linkPaceNow (s : State) : Nat := if s.power.throttled.any (fun e => e.1 / 1000 == 2) then min 8 s.power.linkPace else s.power.linkPace
/-- HBM request issue of stack `h` in sixteenths. -/
def State.memPaceNow (s : State) (h : Nat) : Nat := if (mget s.power.throttled (3000 + h)).isSome then min 8 s.power.memPace else s.power.memPace
/-- Refresh of stack `h` is doubled. -/
def State.refreshDoubled (s : State) (h : Nat) : Bool := (mget s.power.throttled (3000 + h)).isSome

/-- THERMAL_TRIP (R449): every cluster, transit and SM rail goes off and the Lamps go dark. Log: 106 (DEDUCED). -/
def State.trip (s : State) (x : Sensor) : State :=
  if s.thermNow then s
  else
    let s := s.report 0x0C { s.blank unitPower with
      part := if x.kind == 1 then x.index / 36 else 0xFF, clu := if x.kind == 1 then x.index % 36 else 0xFF,
      temperature := ofSigned 16 x.temp, detail := [thermPayload x, 0] }
    let s := s.powerNote 0x0507 (thermPayload x) 0
    let s := loop 288 (fun c s => if s.cluState c == 3 then s else (s.cluStop c).wr F.partPwrClu_state c 0) s
    let s := loop 8 (fun p s => (s.collReset p).setQ (unitColl p) { s.q (unitColl p) with started := [], held := [] }) s
    let s := s.lampsDark
    (s.wr F.hfPwrTherm_state 0 2).wr F.hfPwrSticky_thermalTrip 0 1

/-- Coolant conditions of R450, as bits: inlet hot, inlet cold, flow low. -/
def coolantBits (inlet outlet : Int) : Nat :=
  ofBool (decide (160 < inlet)) + 2 * ofBool (decide (inlet < 60)) + 4 * ofBool (decide (80 < outlet - inlet))

/-- A coolant condition that begins is told and kept in its sticky bit. -/
def State.coolant (s : State) (inlet outlet : Int) : State :=
  let b := coolantBits inlet outlet
  let was := s.power.coolant
  let tell := fun (s : State) (i : Nat) (f : Fld) =>
    if bitAt b i && !bitAt was i then
      (s.wr f 0 1).powerNote 0x0508 (i + 1 + ofSigned 16 inlet * 2 ^ 16 + ofSigned 16 outlet * 2 ^ 32) 0
    else s
  let s := { s with power := { s.power with coolant := b } }
  tell (tell (tell s 0 F.hfPwrSticky_coolantHot) 1 F.hfPwrSticky_coolantCold) 2 F.hfPwrSticky_flowLow

/-- THERMAL_SAMPLE. Log: 17 (DEDUCED). -/
def State.thermal (s : State) (xs : List Sensor) (inlet outlet : Int) : State :=
  if !s.board.powered then s
  else
    let s := (s.wr F.hfPwrTherm_inlet 0 (ofSigned 16 inlet)).wr F.hfPwrTherm_outlet 0 (ofSigned 16 outlet)
    let s := match xs with
      | [] => s
      | x :: r => s.wr F.hfPwrTherm_hottest 0 (ofSigned 16 (r.foldl (fun (m : Int) (y : Sensor) => max m y.temp) x.temp))
    let s := s.coolant inlet outlet
    if s.thermNow then s
    else
      let s := xs.foldl (fun (s : State) (x : Sensor) => if x.kind == 1 then s.cluTherm x else s.otherTherm x) s
      let any := (List.range 288).any (fun c => (s.cluSt c).hot) || !s.power.throttled.isEmpty
      let s := s.wr F.hfPwrTherm_state 0 (ofBool any)
      match xs.find? (fun (x : Sensor) => decide ((tripAt x.kind : Int) ≤ x.temp)) with
      | some x => s.trip x
      | none => s

/-! ## Power sequencing (R526 to R528) -/

/-- Banks and Headframe rails are in regulation, and PGOOD is asserted (Table 20-4). -/
def State.powerUp (s : State) : State :=
  { s with firstBoot := true, board := { s.board with powered := true, pgood := true, offHold := false, pwrEnWaits := false } }

/-- Ticks of 100 ms. -/
def offTicks : Nat := 100000000

/-- PWR_EN_ASSERT: during a power-down, or within 100 ms of PGOOD's fall, it waits; after either it counts only once PWR_EN has been low for
100 ms; with the input out of range it waits for the input. Log: 109 (DEDUCED). -/
def State.pwrEnHigh (s : State) : State :=
  if s.board.pwrEn then s
  else
    let low := s.board.pwrLowSince
    let s := { s with board := { s.board with pwrEn := true } }
    if s.board.powered then (if s.board.poweringDown then { s with board := { s.board with pwrEnWaits := true } } else s)
    else if s.board.offHold && decide (s.up < s.board.offSince + offTicks) then { s with board := { s.board with pwrEnWaits := true } }
    else if s.board.offHold && decide (s.up < low + offTicks) then s
    else if !s.board.inRange then { s with board := { s.board with pwrEnWaits := true } }
    else s.powerUp

/-- PWR_EN_DEASSERT (Table 20-5): energy totals are written, engines stop and Lamps go dark; PERST_N counts as asserted. Log: 109 (DEDUCED). -/
def State.pwrEnLow (s : State) : State :=
  if !s.board.pwrEn then s
  else
    let s := { s with board := { s.board with pwrEn := false, pwrLowSince := s.up, pwrEnWaits := false } }
    if !s.board.powered then s
    else
      let s := (s.energyWrite).lampsDark
      ({ s with board := { s.board with poweringDown := true } }).perstLow

/-- POWER_DOWN_DONE: every pending flash write is complete, then the banks are off. -/
def State.powerDone (s : State) : State :=
  if !s.board.poweringDown then s
  else
    let s := s.reports.foldl (fun s r => s.logAdd r) s
    let s := { s with retireFlash := s.retireFlash ++ s.retirePend.map (fun (r : Nat × Nat × Nat) => (r.1, r.2.1)) }
    s.shutDown

/-- INPUT_IN_RANGE: a PWR_EN that waits for the input starts the power-up. Log: 109 (DEDUCED). -/
def State.inputOk (s : State) : State :=
  let s := { s with board := { s.board with inRange := true } }
  if s.board.pwrEn && s.board.pwrEnWaits && !s.board.powered && !(s.board.offHold && decide (s.up < s.board.offSince + offTicks)) then s.powerUp
  else s

/-- POWER_OFF_INTERVAL_END: 100 ms after PGOOD's fall, a PWR_EN that waits starts the power-up. Log: 109 (DEDUCED). -/
def State.offEnd (s : State) : State :=
  if s.board.powered || !s.board.offHold || s.up < s.board.offSince + offTicks then s
  else if s.board.pwrEn && s.board.pwrEnWaits && s.board.inRange then s.powerUp
  else s

/-! ## Events -/

/-- INPUT_LIMIT. -/
def execInputLimit (vin iin : Nat) (s : State) : Host.Outcome State Fault Refusal := finish (s.inputLimit vin iin)
/-- INPUT_UNDERVOLTAGE: an input below 38.0 V for 100 µs. -/
def execInputUndervoltage (vin : Nat) (s : State) : Host.Outcome State Fault Refusal := finish (if vin < 38000 then s.inputLost else s)
/-- INPUT_OVERVOLTAGE: an input above 62.0 V. -/
def execInputOvervoltage (vin : Nat) (s : State) : Host.Outcome State Fault Refusal := finish (if 62000 < vin then s.inputLost else s)
/-- BANK_FUSE_OPEN. -/
def execBankFuseOpen (p : PartId) (s : State) : Host.Outcome State Fault Refusal := finish (s.partFault p 1)
/-- CONVERTER_PHASE_LOSS. -/
def execConverterPhaseLoss (p : PartId) (z : Fin 6) (s : State) : Host.Outcome State Fault Refusal := finish (s.converterLoss p z)
/-- VR_PHASE_LOSS. -/
def execVrPhaseLoss (p : PartId) (c : CluId) (i : Fin 8) (s : State) : Host.Outcome State Fault Refusal :=
  finish (s.phaseLoss (36 * p.val + c.val) i)
/-- CLUSTER_RAIL_SHORT. -/
def execClusterRailShort (p : PartId) (c : CluId) (s : State) : Host.Outcome State Fault Refusal :=
  finish (s.railShort (36 * p.val + c.val))
/-- TRANSIT_RAIL_SHORT. -/
def execTransitRailShort (p : PartId) (s : State) : Host.Outcome State Fault Refusal := finish (s.partFault p 2)
/-- SM_RAIL_SHORT. -/
def execSmRailShort (p : PartId) (s : State) : Host.Outcome State Fault Refusal := finish (s.partFault p 3)
/-- B8_FAULT. -/
def execB8Fault (s : State) : Host.Outcome State Fault Refusal := finish s.b8Fault
/-- CLUSTER_SWITCH_OFF. -/
def execClusterSwitchOff (p : PartId) (c : CluId) (s : State) : Host.Outcome State Fault Refusal :=
  finish (s.switchOff (36 * p.val + c.val))
/-- GATE_EN_WRITE: a write to PART_PWR_GATE. -/
def execGateEnWrite (f : Func) (p : PartId) (v : Word64) (s : State) : Host.Outcome State Fault Refusal :=
  finish (s.host f .partPwrGate p true (fun s => s.gateWrite p v.toNat))
/-- SWITCH_ON_SLOT. -/
def execSwitchOnSlot (p : PartId) (z : Fin 6) (cur : Nat) (s : State) : Host.Outcome State Fault Refusal := finish (s.switchOnSlot p z cur)
/-- SOFT_START_DONE. -/
def execSoftStartDone (p : PartId) (c : CluId) (s : State) : Host.Outcome State Fault Refusal := finish (s.softDone (36 * p.val + c.val))
/-- CAP_WRITE: a write to HF_PWR_CAP. -/
def execCapWrite (f : Func) (v : Word64) (s : State) : Host.Outcome State Fault Refusal :=
  finish (s.host f .hfPwrCap 0 true (fun s => s.capWrite v.toNat))
/-- POWER_LOOP. -/
def execPowerLoop (m : PowerMeas) (s : State) : Host.Outcome State Fault Refusal := finish (s.powerLoop m)
/-- CONTRACT_WRITE: a write to HF_PWR_CONTRACT. -/
def execContractWrite (f : Func) (v : Word64) (s : State) : Host.Outcome State Fault Refusal :=
  finish (s.host f .hfPwrContract 0 true (fun s => s.contractWrite v.toNat))
/-- CONTRACT_UPDATE. -/
def execContractUpdate (s : State) : Host.Outcome State Fault Refusal := finish s.contractUpdate
/-- SLACK_REPORT. -/
def execSlackReport (p : PartId) (s : State) : Host.Outcome State Fault Refusal := finish (s.slackReport p)
/-- BROKER_ELECT. -/
def execBrokerElect (x : Via) (prio serial : Nat) (s : State) : Host.Outcome State Fault Refusal :=
  finish (if s.mySerial x.dst then s.brokerElect x.port prio serial else s)
/-- BROKER_PERIOD. -/
def execBrokerPeriod (s : State) : Host.Outcome State Fault Refusal := finish s.brokerPeriod
/-- GRANT_COMPUTE. -/
def execGrantCompute (ms : List Contrib) (s : State) : Host.Outcome State Fault Refusal := finish (s.grantCompute ms)
/-- GRANT_APPLY. -/
def execGrantApply (w : Nat) (s : State) : Host.Outcome State Fault Refusal := finish (s.grantApply w)
/-- NO_GRANT. -/
def execNoGrant (s : State) : Host.Outcome State Fault Refusal := finish s.noGrant
/-- ENERGY_FLASH_WRITE. -/
def execEnergyFlashWrite (s : State) : Host.Outcome State Fault Refusal := finish s.energyDue
/-- THERMAL_SAMPLE. -/
def execThermalSample (t : List Sensor) (inlet outlet : Int) (s : State) : Host.Outcome State Fault Refusal := finish (s.thermal t inlet outlet)
/-- PWR_EN_ASSERT. -/
def execPwrEnAssert (s : State) : Host.Outcome State Fault Refusal := finish s.pwrEnHigh
/-- PWR_EN_DEASSERT. -/
def execPwrEnDeassert (s : State) : Host.Outcome State Fault Refusal := finish s.pwrEnLow
/-- POWER_DOWN_DONE. -/
def execPowerDownDone (s : State) : Host.Outcome State Fault Refusal := finish s.powerDone
/-- INPUT_IN_RANGE. -/
def execInputInRange (s : State) : Host.Outcome State Fault Refusal := finish s.inputOk
/-- POWER_OFF_INTERVAL_END. -/
def execPowerOffIntervalEnd (s : State) : Host.Outcome State Fault Refusal := finish s.offEnd

end Sys2Proof.Machine
end

