-- ==== Sys2Proof/Machine/Resets.lean ====
section
/-! DEFINITION. Resets of chapter 18 (R488 to R496) and Function Level Resets (R396). -/

namespace Sys2Proof.Machine

/-! ## Requests -/

/-- DESTINATION entries whose part meets `ok` are revoked with cause 4 (R349, Table 18-5). -/
def State.revokeDest (s : State) (ok : Nat → Bool) : State :=
  s.revokeAll 4 (fun s b => s.bookRole b == 2 && ok (s.rd F.hfVxBook0_part b))

/-- A reset of a unit inside the unit of `r`. -/
def ResetRun.inside (r x : ResetRun) : Bool := decide (x.kind < r.kind) && (decide (3 ≤ r.kind) || x.part == r.part)

/-- A reset starts at its request: smaller ones inside end, its cores are fenced and serve no duplicate or canary, and DESTINATION bookings of
its partitions are revoked (R490, R491, Table 18-7). A reset of every partition shows as busy in each. Log: 122 (DEDUCED). -/
def State.beginReset (s : State) (r : ResetRun) : State :=
  let s := (s.resets.filter r.inside).foldl (fun s x => s.endReset x false) s
  let s := s.abandonAll 5 (fun x => r.coversCore x.core || r.coversCore x.witness)
  let s := (s.canaries.filter (fun c => r.coversCore c.core)).foldl (fun s c => s.dropCanary c.core) s
  let cores := (List.range 4608).filter (fun g => r.coversCore g && !s.fenced g)
  let s := cores.foldl (fun s g => s.setFence g true) s
  let s := if r.kind == 2 then s.revokeDest (fun p => p == r.part) else if r.kind == 3 then s.revokeDest (fun _ => true) else s
  let s := if 3 ≤ r.kind then loop 8 (fun p s => s.wr F.partRst_busy p 1) s else s
  { s with resets := s.resets ++ [r] }

/-- A reset of partition `p` or of a unit in it, by its go bit or by an FLR; inside an enclosing reset it completes with that one. -/
def State.partReset (s : State) (p kind target go : Nat) : State :=
  let s :=
    if s.resets.any (fun r => decide (3 ≤ r.kind)) then s
    else s.beginReset { kind := kind, part := p, target := target, at_ := s.up }
  ((s.wr F.partRst_busy p 1).wr F.partRst_refused p 0).wr F.partRst_go p go

/-- A cluster that is OFF or DARK. -/
def State.cluGone (s : State) (c : Nat) : Bool := s.cluState c == 0 || s.cluState c == 3

/-- Why a request is refused (Tables 18-7, 18-10). Log: 123 (DEDUCED). -/
def State.partRefuse (s : State) (p kind target : Nat) : Bool :=
  kind == 3
  || (kind == 0 && (decide (576 ≤ target) || s.cluGone (36 * p + target / 16)))
  || (kind == 1 && (decide (36 ≤ target) || s.cluGone (36 * p + target)))

/-- A write to PART_RST; a go while busy has no effect, and an inner reset of a running enclosing one completes with it (Table 18-7). Log: 93 (DEDUCED). -/
def State.partRstWrite (s : State) (p v : Nat) : State :=
  let busy := s.flag F.partRst_busy p
  let s := (s.wr F.partRst_kind p (bits v 0 2)).wr F.partRst_target p (bits v 2 10)
  if !bitAt v 12 || busy then s
  else if s.partRefuse p (bits v 0 2) (bits v 2 10) then (s.wr F.partRst_refused p 1).wr F.partRst_go p 0
  else s.partReset p (bits v 0 2) (bits v 2 10) 1

/-- A device compute reset starts: the pending swap is withdrawn (Table 18-7). Log: 123 (DEDUCED). -/
def State.deviceStart (s : State) : State :=
  let s := match s.swap with
    | none => s
    | some w => s.withdrawSwap w
  s.beginReset { kind := 3, part := 0, target := 0, at_ := s.up }

/-- A device compute reset is requested, by the go bit or by an FLR; during an activation it waits for the resume (R507). Log: 123 (DEDUCED). -/
def State.deviceReset (s : State) (go : Nat) : State :=
  let s := ((s.wr F.hfRst_busy 0 1).wr F.hfRst_refused 0 0).wr F.hfRst_go 0 go
  if s.act.any (fun (a : Activation) => a.begun) then { s with resetWaits := true } else s.deviceStart

/-- A module reset is requested; refused while a tripped module is too hot (R449). -/
def State.moduleReset (s : State) : State :=
  if s.tooHot then (s.wr F.hfRst_refused 0 1).wr F.hfRst_go 0 0
  else
    let s := s.beginReset { kind := 4, part := 0, target := 0, at_ := s.up }
    ((s.wr F.hfRst_busy 0 1).wr F.hfRst_refused 0 0).wr F.hfRst_go 0 1

/-- A write to HF_RST. -/
def State.hfRstWrite (s : State) (v : Nat) : State :=
  let busy := s.flag F.hfRst_busy 0
  let s := s.wr F.hfRst_kind 0 (bits v 0 2)
  if !bitAt v 2 || busy then s
  else if bits v 0 2 == 1 then s.deviceReset 1
  else if bits v 0 2 == 2 then s.moduleReset
  else (s.wr F.hfRst_refused 0 1).wr F.hfRst_go 0 0

/-! ## The end of the drain (R490) -/

/-- Clusters of the unit of a reset: none for a core. -/
def ResetRun.clusters (r : ResetRun) : List Nat :=
  if r.kind == 0 then [] else if r.kind == 1 then [36 * r.part + r.target] else if r.kind == 2 then cluOfPart r.part else List.range 288

/-- Partitions whose compute part is in the unit. -/
def ResetRun.parts (r : ResetRun) : List Nat := if r.kind ≤ 1 then [] else if r.kind == 2 then [r.part] else List.range 8

/-- DRAIN_END: what has started ends without completion; rows still outbound are discarded and counted with `n` other items; frequency
changes are abandoned. A module reset then starts Table 18-1. Log: 122 (DEDUCED). -/
def State.drainEnd (s : State) (k n : Nat) : State :=
  match s.resets[k]? with
  | none => s
  | some r =>
    if r.drained then s
    else if r.kind == 4 then (if s.tooHot then s else s.boot)
    else
      let out := s.bulk.filter (fun (b : BulkRow) => !b.got && r.coversCore (b.unit / 4))
      let s := loop 8 (fun p s =>
        let m := (out.filter (fun (b : BulkRow) => partOf (b.unit / 4) == p)).length + (if p == r.part then n else 0)
        s.inc F.partRstStat_discarded p m) s
      let s := s.stopCores r.coversCore
      let s := r.parts.foldl (fun s p => (s.collReset p).setQ (unitColl p) { s.q (unitColl p) with started := [], held := [] }) s
      let s := r.clusters.foldl (fun s c =>
        (s.setClu c { s.cluSt c with fchg := none, next := none }).wr F.cluOp_fchgBusy c 0) s
      { s with resets := s.resets.map (fun x => if x == r then { x with drained := true } else x) }

/-! ## The work after the drain (Table 18-6) -/

/-- Rings that a core holds, or all of a partition, return to their start (R181). -/
def State.ringsBack (s : State) (ok : Ring → Bool) : State :=
  match s.active with
  | none => s
  | some l => (l.rings.filter ok).foldl (fun s (r : Ring) => s.ringClear r.part r.number) s

/-- One core: registers, buffers, queues and the rings it holds. Log: 122 (DEDUCED). -/
def State.coreWork (s : State) (g : Nat) : State := ((s.coreRegs g).zeroBufs g).ringsClearCore g

/-- A cluster restarts at the point of Table 10-2. -/
def State.restartClu (s : State) (c : Nat) : State :=
  let x := s.cluSt c
  let s := s.setClu c { x with stretched := 0, droop := false }
  if s.cluState c != 2 then s
  else
    let r := (s.request c).1
    let s := ((s.wr F.cluOp_targetOp c r).wr F.cluOp_capOp c x.cap).wr F.cluOp_curOp c (min r x.cap)
    let (k, s) := s.opCause c
    s.wr F.cluOp_cause c k

/-- One cluster. -/
def State.cluWork (s : State) (c : Nat) : State := ((coresIn c).foldl (fun s g => s.coreWork g) s).cluRegs c

/-- The compute part of a partition (R489): clusters, translation unit with its contexts and slots and the code lines cached
under them (R116), collective queue and landing slots, and the
registers that reset with them. -/
def State.partWork (s : State) (p : Nat) : State :=
  let s := (cluOfPart p).foldl (fun s c => s.cluWork c) s
  let own := allRegs.filter (fun r => r.info.blk == .part && r.info.dom == .partC)
  let s := own.foldl (fun s r => loop r.info.count (fun i s => s.resetReg r (p * r.info.count + i)) s) s
  let qs := allRegs.filter (fun r => r.info.dom == .queue && r != .qBench && r != .qMember)
  let s := qs.foldl (fun s r => s.resetReg r (unitColl p)) s
  let s := { s with queues := mdel s.queues (unitColl p), ctxs := mdrop (fun k => k / 64 == p) s.ctxs,
                    seqSlots := mdrop (fun k => k / 32 == p) s.seqSlots }
  let s := { s with tlb := s.tlb.filter (fun e => e.ctxPart != p), xltInv := s.xltInv.filter (fun x => x.part != p),
                    icache := s.icache.filter (fun l => l.ctxPart != p), ifills := s.ifills.filter (fun l => l.ctxPart != p) }
  s.ringsBack (fun r => r.part == p)

/-- Layout, bench queues and schedule of the Headframe (R194, R260, R270): both slots are EMPTY, and the interleave is not fixed. Log: 124 (DEDUCED). -/
def State.layoutWork (s : State) : State :=
  let carve := fun p => (s.active.elim 0 (fun (o : Layout) => o.carve.getD p 0))
  let s := loop 8 (fun p s => s.uncarve p (carve p) 0) s
  let wasLocal := s.hbmLocal
  let old := s.roles
  let s := { s with active := none, standby := none, load := none, swap := none, roles := [], repairs := [], sinceLoad := [],
                    rings := [], ringWaits := [], ringResets := [], plan := [], deputies := [], phaseOn := false,
                    slackRuns := [] }
  let s := (s.newBenchQueues).showRoles old []
  let s := loop 256 (fun b s => s.resetReg .hfBenchState b) s
  let s := ((s.wr F.hfLayoutStatus_standby 0 0).wr F.hfLayoutStatus_activeValid 0 0).wr F.hfLayoutStatus_activeDebug 0 0
  let s := ((s.wr F.hfLayoutStatus_activeSweep 0 0).wr F.hfLayoutStatus_exhausted 0 0).wr F.hfLayoutStatus_hbmFixed 0 0
  let s := ((s.wr F.hfLayoutStatus_hbmMode 0 0).wr F.hfLayoutCmd_load 0 0).wr F.hfLayoutStatus_swapPending 0 0
  let s := (s.resetReg .hfLayoutIdActive 0).resetReg .hfLayoutIdStandby 0
  let s := loop 6 (fun j s => (s.resetReg .hfLayoutHashActive j).resetReg .hfLayoutHashStandby j) s
  let s := s.resetReg .hfShift 0
  let s := { s with genState := [], genSeed := s.freeCtr, freeCtr := s.freeCtr + 1 }
  let s := loop 8 (fun p s => s.rdcInvalidate p) s
  if wasLocal then { s with mem := s.mem.forget 0 hbmEnd s.freeCtr, freeCtr := s.freeCtr + 1 } else s

/-- The configuration of virtual function `k` that a reset returns to its start: its MSI-X table (R396). Log: 125 (UNVERIFIED). -/
def State.vfConfig (s : State) (k : Nat) : State :=
  { s with msix := mdrop (fun i => i / 1024 == 1 + k) s.msix, msixPend := mdrop (fun i => i / 1024 == 1 + k) s.msixPend }

/-- RESET_COMPLETE: the work is done, go and busy clear, and the unit stops absorbing. While a cluster of the unit holds for a droop, or the
module is tripped, it does not complete (Table 18-7). Log: 122 (DEDUCED). -/
def State.resetComplete (s : State) (k : Nat) : State :=
  match s.resets[k]? with
  | none => s
  | some r =>
    let mine := if r.kind == 0 then [36 * r.part + r.target / 16] else r.clusters
    if !r.drained || s.thermNow || mine.any (fun c => (s.cluSt c).hold) then s
    else
      let s :=
        if r.kind == 0 then s.coreWork (576 * r.part + r.target)
        else if r.kind == 1 then s.cluWork (36 * r.part + r.target)
        else r.parts.foldl (fun s p => s.partWork p) s
      let s := if 3 ≤ r.kind then s.layoutWork else s
      let s := r.clusters.foldl (fun s c => s.restartClu c) s
      let s := s.endReset r false
      let us := (s.up - r.at_) / 1000
      if 3 ≤ r.kind then
        loop 8 (fun p s =>
          (((s.inc F.partRstStat_resets p).wr F.partRst_lastUs p (min us 65535)).wr F.partRst_go p 0).wr F.partRst_busy p 0) s
      else (s.inc F.partRstStat_resets r.part).wr F.partRst_lastUs r.part (min us 65535)

/-! ## Function Level Resets (R396) -/

/-- FLR of VF `k`: every partition of its tenancy resets in parallel, and the function's MSI-X table returns to its start. A partition whose own
reset of the whole compute part runs completes with it. -/
def State.vfFlr (s : State) (k : Nat) : State :=
  if s.rd F.hfHostLink_vfs 0 ≤ k then s
  else
    let s := s.vfConfig k
    loop 8 (fun p s =>
      if !s.vfHasPart k p || s.partDark p || s.resets.any (fun r => r.kind == 2 && r.part == p) then s
      else s.partReset p 2 0 0) s

/-- FLR of PF0: a device compute reset, and every virtual function's configuration at its start. Log: 125 (UNVERIFIED). -/
def State.pf0Flr (s : State) : State :=
  let s := loop 8 (fun k s => s.vfConfig k) s
  if s.flag F.hfRst_busy 0 then s else s.deviceReset 0

/-! ## Events -/

/-- A write to PART_RST of a kind, as a host access. Log: 123 (DEDUCED). -/
def State.partRstHost (s : State) (f : Func) (p : PartId) (v : Word64) (kind : Nat) : State :=
  if bits v.toNat 0 2 == kind && bitAt v.toNat 12 then s.host f .partRst p true (fun s => s.partRstWrite p v.toNat) else s

/-- CORE_RESET. -/
def execCoreReset (f : Func) (p : PartId) (v : Word64) (s : State) : Host.Outcome State Fault Refusal := finish (s.partRstHost f p v 0)
/-- CLUSTER_RESET. -/
def execClusterReset (f : Func) (p : PartId) (v : Word64) (s : State) : Host.Outcome State Fault Refusal := finish (s.partRstHost f p v 1)
/-- PARTITION_RESET. -/
def execPartitionReset (f : Func) (p : PartId) (v : Word64) (s : State) : Host.Outcome State Fault Refusal :=
  finish (s.partRstHost f p v 2)
/-- DEVICE_COMPUTE_RESET. -/
def execDeviceComputeReset (f : Func) (v : Word64) (s : State) : Host.Outcome State Fault Refusal :=
  finish (if bits v.toNat 0 3 == 5 then s.host f .hfRst 0 true (fun s => s.hfRstWrite v.toNat) else s)
/-- MODULE_RESET. -/
def execModuleReset (f : Func) (v : Word64) (s : State) : Host.Outcome State Fault Refusal :=
  finish (if bits v.toNat 0 3 == 6 then s.host f .hfRst 0 true (fun s => s.hfRstWrite v.toNat) else s)
/-- RESET_RESERVED_KIND: a go with a reserved kind at PART_RST of a partition, or at HF_RST (R496). -/
def execResetReservedKind (f : Func) (p : Option PartId) (v : Word64) (s : State) : Host.Outcome State Fault Refusal :=
  finish (match p with
    | some p => s.partRstHost f p v 3
    | none =>
      if bitAt v.toNat 2 && (bits v.toNat 0 2 == 0 || bits v.toNat 0 2 == 3) then s.host f .hfRst 0 true (fun s => s.hfRstWrite v.toNat)
      else s)
/-- DRAIN_END. -/
def execDrainEnd (k n : Nat) (s : State) : Host.Outcome State Fault Refusal := finish (s.drainEnd k n)
/-- RESET_COMPLETE. -/
def execResetComplete (k : Nat) (s : State) : Host.Outcome State Fault Refusal := finish (s.resetComplete k)
/-- VF_FLR. -/
def execVfFlr (k : Fin 8) (s : State) : Host.Outcome State Fault Refusal := finish (s.vfFlr k)
/-- PF0_FLR. -/
def execPf0Flr (s : State) : Host.Outcome State Fault Refusal := finish s.pf0Flr

end Sys2Proof.Machine
end

