-- ==== Sys2Proof/Machine/Mbox.lean ====
section
/-! DEFINITION. The management mailbox (R417, R418) and its commands outside firmware: the fabric database (R419), energy totals (R445),
fault records, canary runs, retirement and the capsule (R471, R474, R477), and the memory test (R487). -/

namespace Sys2Proof.Machine

/-! ## A command from its write to its completion -/

/-- Statuses of Table 15-6. -/
def mboxOk : Nat := 0
def mboxBadOpcode : Nat := 1
def mboxBadLen : Nat := 2
def mboxBadArg : Nat := 3
def mboxHostMem : Nat := 4
def mboxDenied : Nat := 5
def mboxAborted : Nat := 6

/-- How a command ends: with a status, its output and out_len; or it runs on. -/
inductive MboxRes where
  | done (status : Nat) (out : List Byte) (len : Nat)
  | running
  deriving DecidableEq, Repr

/-- OK with an output. -/
def MboxRes.ok (out : List Byte) : MboxRes := .done mboxOk out out.length
/-- A status without output. -/
def MboxRes.bad (status : Nat) : MboxRes := .done status [] 0

/-- A command completes (R417): its output at the start of its buffer, status and out_len, busy and go cleared, source 80. Log: 97 (DEDUCED). -/
def State.mboxEnd (s : State) (buf : Option Nat) (outOk : Bool) (status : Nat) (out : List Byte) (len : Nat) : State :=
  let lost := buf.isSome && !outOk && !out.isEmpty
  let s := match buf with
    | none => { s with mbox := s.mbox.wrN 0 out }
    | some a => if out.isEmpty || lost then s else { s with sent := s.sent ++ [HostMsg.write a out] }
  let s := (s.wr F.hfMboxStatus_status 0 (if lost then mboxHostMem else status)).wr F.hfMboxStatus_outLen 0 len
  ((s.wr F.hfMboxStatus_busy 0 0).wr F.hfMboxCmd_go 0 0).raise 80

/-- Host buffer of a command: none for the payload window. -/
def State.mboxBuf (s : State) (c : MboxCall) : Option Nat := if c.useHost then some (s.rd F.hfMboxBuf_hpa 0 * 4096) else none

/-- Bytes of a command's buffer. -/
def State.mboxSize (s : State) (c : MboxCall) : Nat := if c.useHost then 4096 * s.rd F.hfMboxBuf_pages 0 else 65536

/-- The input as the device reads it at the write; none where the host's memory fails. Log: 95 (DEDUCED). -/
def State.mboxInput (s : State) (c : MboxCall) : Option (List Byte) :=
  if c.inLen == 0 then some []
  else if c.useHost then c.host.filter (fun l => l.length == c.inLen)
  else some (s.mbox.rdN 0 c.inLen)

/-- The fields of HF_MBOX_CMD as the write leaves them, and busy. Log: 93 (DEDUCED). -/
def State.mboxTake (s : State) (c : MboxCall) (op : Nat) : State :=
  let s := ((s.wr F.hfMboxCmd_opcode 0 op).wr F.hfMboxCmd_useHost 0 (ofBool c.useHost)).wr F.hfMboxCmd_inLen 0 c.inLen
  (s.wr F.hfMboxCmd_go 0 1).wr F.hfMboxStatus_busy 0 1

/-- The mailbox takes an opcode in recovery mode (R512). Log: 95 (DEDUCED). -/
def recoveryOp (op : Nat) : Bool := op == 0x0101 || op == 0x0102 || op == 0x0103

/-- A write of go to the mailbox with opcode `op`: `lenOk` says which in_len the opcode has, and `run` what the command does with its input
and the size of its buffer. A write while busy has no effect. Log: 95 (DEDUCED), 97 (DEDUCED). -/
def State.mboxRun (s : State) (c : MboxCall) (op : Nat) (lenOk : Nat → Bool) (run : List Byte → Nat → State → MboxRes × State) : State :=
  s.host c.f .hfMboxCmd 0 true (fun s =>
    if s.flag F.hfMboxStatus_busy 0 then s
    else
      let s := s.mboxTake c op
      let buf := s.mboxBuf c
      let size := s.mboxSize c
      let stop := fun (st : Nat) => s.mboxEnd buf c.outOk st [] 0
      if s.stage == 9 && !recoveryOp op then stop mboxDenied
      else if size == 0 then stop mboxBadArg
      else if !lenOk c.inLen || size < c.inLen then stop mboxBadLen
      else
        match s.mboxInput c with
        | none => stop mboxHostMem
        | some l =>
          match run l size s with
          | (.done st out len, s) => s.mboxEnd buf c.outOk st out len
          | (.running, s) => s)

/-- A command with a fixed in_len that only reads the state. -/
def State.mboxRead (s : State) (c : MboxCall) (op n : Nat) (get : List Byte → Nat → State → MboxRes) : State :=
  s.mboxRun c op (· == n) (fun l size s => (get l size s, s))

/-! ## LSDB_READ (R419) -/

/-- The origin records of Table 15-8, own first. -/
def State.lsdbList (s : State) : List (Lsa × Nat) :=
  let me := s.rd F.hfVxSerial_serial 0
  let own := match s.lsdb.find? (fun e => e.lsa.origin == me) with
    | some e => (e.lsa, e.at_)
    | none => ({ s.ownLsa with seq := s.lsaSeq }, s.ft)
  let rest := s.lsdb.filter (fun e => e.lsa.origin != me)
  let keys := sortNat (rest.map (·.lsa.origin))
  own :: keys.filterMap (fun k => (rest.find? (fun e => e.lsa.origin == k)).map (fun e => (e.lsa, e.at_)))

/-- One origin record (Table 15-8). -/
def State.lsdbBytes (s : State) (e : Lsa × Nat) : List Byte :=
  let l := e.1
  leBytes 8 l.origin ++ leBytes 4 (l.id % 2 ^ 17 + ofBool l.idValid * 2 ^ 31) ++ leBytes 4 l.seq
    ++ leBytes 2 (min ((s.ft - e.2) / 1000000000) 65535) ++ leBytes 1 l.recs.length ++ leBytes 1 0
    ++ l.recs.flatMap (fun r =>
      leBytes 1 r.port ++ leBytes 1 r.state ++ leBytes 1 r.peerPort ++ leBytes 1 0 ++ leBytes 8 r.peerSerial ++ leBytes 2 r.delay ++ leBytes 2 0)

/-- Records, whole ones, that fit in what is left of a buffer. -/
def fitRecords : Nat → List (List Byte) → List (List Byte)
  | _, [] => []
  | room, r :: l => if r.length ≤ room then r :: fitRecords (room - r.length) l else []

/-- Output of a command that returns records from an index on: the count returned, the count held, the records. Log: 96 (DEDUCED). -/
def recordsOut (recs : List (List Byte)) (index size : Nat) : MboxRes :=
  if recs.length < index then .bad mboxBadArg
  else
    let r := fitRecords (size - 8) (recs.drop index)
    .ok (leBytes 4 r.length ++ leBytes 4 recs.length ++ r.flatten)

/-! ## ENERGY_TOTALS (R445) -/

/-- The 96 bytes of ENERGY_TOTALS. -/
def State.energyOut (s : State) : List Byte :=
  s.lifeNow.flatMap (leBytes 8) ++ leBytes 8 s.onSecs ++ leBytes 4 s.flash.onCount ++ leBytes 4 (s.onSecs - s.flash.writtenAt)

/-! ## CPER records (R473, R474) -/

/-- The detail field (R473). -/
def Report.detailBytes (r : Report) : List Byte :=
  let d := fun (i : Nat) => r.detail.getD i 0
  let body :=
    if r.cause == 0x01 then leBytes 8 (d 0) ++ leBytes 4 (d 1) ++ leBytes 4 (d 2)
    else if r.cause == 0x03 || r.cause == 0x04 || r.cause == 0x05 then leBytes 8 (d 0) ++ leBytes 8 (d 1)
    else if r.cause == 0x02 then leBytes 16 (d 0)
    else if r.detail.isEmpty then List.replicate 16 0xFF
    else leBytes 8 (d 0) ++ leBytes 8 (d 1)
  body ++ List.replicate 16 0

/-- The vendor section (Table 17-7). Log: 98 (PRESUMED). -/
def Report.vendor (r : Report) : List Byte :=
  leBytes 2 1 ++ leBytes 2 160 ++ leBytes 4 r.number ++ leBytes 8 r.ft ++ leBytes 8 Config.serial.toNat ++ leBytes 4 r.moduleId
    ++ leBytes 1 r.cause ++ leBytes 1 r.verdict ++ leBytes 1 r.severity ++ leBytes 1 r.retireCause ++ leBytes 2 r.unit
    ++ leBytes 1 r.part ++ leBytes 1 r.clu ++ leBytes 1 r.core ++ leBytes 1 r.engine ++ leBytes 2 r.global
    ++ leBytes 8 (Config.hwCode r.number) ++ leBytes 1 r.opcode ++ leBytes 2 r.fmt ++ leBytes 1 r.mode ++ leBytes 4 r.shape
    ++ leBytes 2 r.temperature ++ leBytes 2 r.voltage ++ leBytes 2 r.frequency ++ leBytes 1 r.point ++ leBytes 1 0
    ++ (List.range 6).flatMap (fun i => leBytes 8 (r.layoutHash.getD i 0)) ++ leBytes 8 r.layoutId ++ leBytes 4 r.manifest
    ++ leBytes 2 r.witness ++ leBytes 2 r.third ++ r.detailBytes

/-- The Dexantek section GUID 6d1f0c3a-8b42-4e7e-9a15-2c0b7d4e91f6 as UEFI stores a GUID. Log: 98 (PRESUMED). -/
def dexGuid : List Byte :=
  [0x3a, 0x0c, 0x1f, 0x6d, 0x42, 0x8b, 0x7e, 0x4e, 0x9a, 0x15, 0x2c, 0x0b, 0x7d, 0x4e, 0x91, 0xf6]

/-- FRU text DXT-BR8-A1-LC in 20 bytes. Log: 98 (PRESUMED). -/
def fruText : List Byte :=
  [0x44, 0x58, 0x54, 0x2D, 0x42, 0x52, 0x38, 0x2D, 0x41, 0x31, 0x2D, 0x4C, 0x43, 0, 0, 0, 0, 0, 0, 0]

/-- One UEFI CPER record of 360 bytes (R474); what that rule leaves to UEFI follows the UEFI specification. Log: 98 (PRESUMED). -/
def Report.cper (r : Report) : List Byte :=
  [0x43, 0x50, 0x45, 0x52] ++ leBytes 2 0x0100 ++ leBytes 4 0xFFFFFFFF ++ leBytes 2 1 ++ leBytes 4 r.severity ++ leBytes 4 1 ++ leBytes 4 360
    ++ leBytes 8 0 ++ leBytes 16 Config.serial.toNat ++ leBytes 16 0 ++ dexGuid ++ dexGuid ++ leBytes 8 r.number ++ leBytes 4 0 ++ leBytes 8 0
    ++ leBytes 12 0
    ++ leBytes 4 200 ++ leBytes 4 160 ++ leBytes 2 0x0100 ++ leBytes 1 2 ++ leBytes 1 0 ++ leBytes 4 1 ++ dexGuid ++ leBytes 16 0
    ++ leBytes 4 r.severity ++ fruText
    ++ r.vendor

/-! ## CANARY_RUN, RETIRE (R471) -/

/-- The core a command names; none if its input is out of range. -/
def coreArg (l : List Byte) : Option Nat :=
  let g := leNat (l.take 2)
  if 4608 ≤ g || leNat (l.drop 2) != 0 then none else some g

/-- CANARY_RUN may run on core `g`: its queues are STOPPED or HALTED, it serves no duplicate, and it is on line. Log: 117 (DEDUCED). -/
def State.canaryOk (s : State) (g : Nat) : Bool :=
  (List.range 4).all (fun e => s.qst (unitEng g e) != 1) && !s.flag F.coreId_witness g && s.onLine g

/-- CANARY_RUN: the set runs on core `g`, and once more after a wrong answer (R469); `a` and `b` are the first wrong commands of the runs. Log: 117 (DEDUCED). -/
def State.canaryRun (s : State) (g : Nat) (a b : Option Nat) : MboxRes × State :=
  let again := s.canaries.any (fun c => c.core == g && c.rerun)
  let s := if s.canaries.any (fun c => c.core == g) then s else s.startCanary g true
  let s := s.canaryResult g a
  let s := if again || a.isNone then s else s.canaryResult g b
  let bad := if again then a else b
  let code := if a.isNone && !again then 0 else if bad.isNone then 1 else 2
  (.ok (leBytes 1 code), s)

/-- RETIRE: core `g` is retired with cause HOST, with a report. -/
def State.hostRetire (s : State) (g : Nat) : State :=
  if s.retired g then s
  else
    let n := s.reportCount + 1
    let s := s.report 0x06 { s.blank (unitPart (partOf g)) with global := g, retireCause := 6, detail := [g + 6 * 2 ^ 16, n % 2 ^ 32] }
    s.retire g 6 s.reportCount

/-! ## CAPSULE (R477) -/

/-- The last 512 records of a partition's fault_ring. -/
def State.ringTail (s : State) (p : Nat) : List Byte :=
  let r := s.rd F.partTallyCtrl_faultRing p
  match s.tallyRing p r with
  | none => []
  | some (base, n) =>
    let wr := s.rd F.partTallyWr_wr (p * 8 + r)
    let k := min 512 (min n wr)
    (List.range k).flatMap (fun i =>
      match s.resolve (base + 32 * ((wr - k + i) % n)) with
      | some d => s.mem.rdN d 32
      | none => [])

/-- A Lamp's identity, hours and failed marks. -/
def State.lampFacts (s : State) (l : Nat) : List Nat :=
  if s.rd F.lampState_present l == 0 then []
  else
    [l, s.reg .lampSerial l, s.reg .lampPart (2 * l), s.reg .lampPart (2 * l + 1), s.reg .lampDate l]
      ++ (List.range 16).flatMap (fun n => [s.rd F.lampLaser1_hours (16 * l + n), s.rd F.lampLaser0_state (16 * l + n)])

/-- The failure capsule: each part in its order, then the two signatures. Log: 99 (DESIGN CHOICE). -/
def State.capsule (s : State) : List Byte × State :=
  let log := s.log.flatMap Report.cper
  let rings := (List.range 8).flatMap (fun p => s.ringTail p)
  let maps := Config.capsulePart 1 (s.repairMap ++ s.softRepair.flatMap (fun e => [e.1, e.2])
    ++ s.retireFlash.flatMap (fun e => [e.1, e.2]) ++ s.flash.routers ++ s.flash.phases.flatMap (fun e => [e.1, e.2]))
  let trims := Config.capsulePart 2 (s.clu.flatMap (fun e => [e.1, e.2.trim]))
  let lamps := Config.capsulePart 3 ((List.range 8).flatMap (fun l => s.lampFacts l))
  let head := Config.capsulePart 0 [Config.serial.toNat, s.ft, s.rd F.hfFwStatus_manifestVersion 0, log.length, rings.length, maps.length,
    trims.length, lamps.length]
  let body := head ++ log ++ rings ++ maps ++ trims ++ lamps ++ s.energyOut
  let sig := fun (scheme : Nat) => (Config.sign scheme s.aliasKey (nums body) s.signatures).map (BitVec.ofNat 8)
  (body ++ sig 5 ++ sig 6, { s with signatures := s.signatures + 1 })

/-- CAPSULE: a buffer smaller than the capsule completes with BAD_ARG and the size required. -/
def State.capsuleOut (s : State) (size : Nat) : MboxRes × State :=
  let (l, s') := s.capsule
  if size < l.length then (.done mboxBadArg [] l.length, s) else (.ok l, s')

/-! ## Memory test (R487) -/

/-- The 24 bytes of MEM_TEST_REPORT. Log: 96 (DEDUCED). -/
def MemTest.out (t : MemTest) : List Byte :=
  leBytes 1 t.run ++ leBytes 1 (ofBool t.fail) ++ leBytes 1 (ofBool t.quickRefused) ++ leBytes 1 0 ++ leBytes 4 t.ms ++ leBytes 4 t.cmRows
    ++ leBytes 4 t.smRows ++ leBytes 4 t.hbmRows ++ leBytes 4 t.left

/-! ## The commands -/

/-- Every opcode the spec defines (Tables 15-7, 17-5, 18-3, 19-3; R445). -/
def mboxOps : List Nat :=
  [0x0002, 0x0101, 0x0102, 0x0103, 0x0104, 0x0105, 0x0106, 0x0201, 0x0301, 0x0302, 0x0303, 0x0304, 0x0401, 0x0402]

/-- An opcode the spec does not define. -/
def State.mboxBad (s : State) (c : MboxCall) (op : Nat) : State := s.mboxRun c op (fun _ => true) (fun _ _ s => (.bad mboxBadOpcode, s))
/-- LSDB_READ (R419). -/
def State.lsdbRead (s : State) (c : MboxCall) : State :=
  s.mboxRead c 0x0002 4 (fun l size s => recordsOut (s.lsdbList.map s.lsdbBytes) (leNat l) size)
/-- ENERGY_TOTALS (R445). -/
def State.energyRead (s : State) (c : MboxCall) : State := s.mboxRead c 0x0201 0 (fun _ _ s => .ok s.energyOut)
/-- FAULT_READ (R474). -/
def State.faultRead (s : State) (c : MboxCall) : State :=
  s.mboxRead c 0x0301 4 (fun l size s => recordsOut (s.log.map Report.cper) (leNat l) size)
/-- CANARY_RUN (R471): `a` and `b` are the first wrong commands of the run and of its repetition. -/
def State.canaryCmd (s : State) (c : MboxCall) (a b : Option Nat) : State :=
  s.mboxRun c 0x0302 (· == 4) (fun l _ s =>
    match coreArg l with
    | none => (.bad mboxBadArg, s)
    | some g => if s.canaryOk g then s.canaryRun g a b else (.bad mboxDenied, s))
/-- CAPSULE (R477). -/
def State.capsuleCmd (s : State) (c : MboxCall) : State := s.mboxRun c 0x0303 (· == 0) (fun _ size s => s.capsuleOut size)
/-- RETIRE (R471). -/
def State.retireCmd (s : State) (c : MboxCall) : State :=
  s.mboxRun c 0x0304 (· == 4) (fun l _ s =>
    match coreArg l with
    | none => (.bad mboxBadArg, s)
    | some g => (.ok [], s.hostRetire g))
/-- BOOT_TEST_SET (R487). -/
def State.bootTestCmd (s : State) (c : MboxCall) : State :=
  s.mboxRun c 0x0401 (· == 4) (fun l _ s =>
    if 1 < leNat l then (.bad mboxBadArg, s)
    else (.ok [], { s with flash := { s.flash with quick := leNat l == 1 } }.bootTestShow))
/-- MEM_TEST_REPORT (R487). -/
def State.memTestCmd (s : State) (c : MboxCall) : State := s.mboxRead c 0x0402 0 (fun _ _ s => .ok s.flash.test.out)

/-! ## Events -/

/-- MBOX_BAD_OPCODE. -/
def execMboxBadOpcode (c : MboxCall) (op : Fin 65536) (s : State) : Host.Outcome State Fault Refusal :=
  finish (if mboxOps.contains op.val then s else s.mboxBad c op)
/-- LSDB_READ. -/
def execLsdbRead (c : MboxCall) (s : State) : Host.Outcome State Fault Refusal := finish (s.lsdbRead c)
/-- ENERGY_TOTALS. -/
def execEnergyTotals (c : MboxCall) (s : State) : Host.Outcome State Fault Refusal := finish (s.energyRead c)
/-- FAULT_READ. -/
def execFaultRead (c : MboxCall) (s : State) : Host.Outcome State Fault Refusal := finish (s.faultRead c)
/-- CANARY_RUN. -/
def execCanaryRun (c : MboxCall) (a b : Option Nat) (s : State) : Host.Outcome State Fault Refusal := finish (s.canaryCmd c a b)
/-- CAPSULE. -/
def execCapsule (c : MboxCall) (s : State) : Host.Outcome State Fault Refusal := finish (s.capsuleCmd c)
/-- RETIRE. -/
def execRetire (c : MboxCall) (s : State) : Host.Outcome State Fault Refusal := finish (s.retireCmd c)
/-- BOOT_TEST_SET. -/
def execBootTestSet (c : MboxCall) (s : State) : Host.Outcome State Fault Refusal := finish (s.bootTestCmd c)
/-- MEM_TEST_REPORT. -/
def execMemTestReport (c : MboxCall) (s : State) : Host.Outcome State Fault Refusal := finish (s.memTestCmd c)

end Sys2Proof.Machine
end

