-- ==== Sys2Proof/Machine/Firmware.lean ====
section
/-! DEFINITION. Firmware staging, verification, activation, rolling microcode updates, security-version fuses and the management
processors (R501, R503 to R511). -/

namespace Sys2Proof.Machine

/-! ## Staging (R505) -/

/-- An activation or a roll is on: nothing is staged or verified. -/
def State.fwBusy (s : State) : Bool := s.act.isSome || s.roll.isSome

/-- Bytes enter a staged copy; the first write since the last activation erases it. -/
def State.fwStage (s : State) (comp off : Nat) (data : List Byte) : State :=
  let k := fwCopy s.fwOther comp
  let base := fwBase s.fwOther comp
  let s :=
    if s.fwFresh.contains k then s
    else { s with fw := s.fw.forget base (base + 2 ^ 25) s.freeCtr, freeCtr := s.freeCtr + 1, fwFresh := s.fwFresh ++ [k],
                  fwWritten := if s.fwWritten.contains k then s.fwWritten else s.fwWritten ++ [k] }
  { (s.wr F.hfFwStatus_stagedOk 0 0) with fw := s.fw.wrN (base + off) data }

/-- The component and range of a write into a staged copy exist (Table 19-1). Log: 126 (DEDUCED). -/
def fwRange (comp off n : Nat) : Bool := decide (comp < 7) && decide (off + n ≤ 4096 + fwMax comp)

/-- The staged set is checked (R505): its result, the first failing component if any, and staged_ok. -/
def State.fwVerify (s : State) : (Nat × Option Nat) × State :=
  match s.fwFail s.fwOther with
  | none => ((0, none), s.wr F.hfFwStatus_stagedOk 0 1)
  | some (c, r) => ((r, some c), s.wr F.hfFwStatus_stagedOk 0 0)

/-- Output byte of a failing component: a free value where none fails. -/
def State.compByte (s : State) (c : Option Nat) : Nat × State :=
  match c with
  | some c => (c, s)
  | none => (s.fresh.1 % 256, s.fresh.2)

/-- FW_STAGE. Log: 126 (DEDUCED). -/
def State.fwStageCmd (s : State) (l : List Byte) : MboxRes × State :=
  let comp := leNat (l.take 1)
  let off := leNat ((l.drop 4).take 4)
  let data := l.drop 8
  if s.fwBusy || s.pldm.isSome then (.bad mboxDenied, s)
  else if !fwRange comp off data.length then (.bad mboxBadArg, s)
  else (.ok (leBytes 1 0), { s.fwStage comp off data with mboxStage := true })

/-- FW_VERIFY; it ends a staging by the mailbox. -/
def State.fwVerifyCmd (s : State) : MboxRes × State :=
  if s.fwBusy then (.bad mboxDenied, s)
  else
    let (r, s) := s.fwVerify
    let (c, s) := s.compByte r.2
    (.ok (leBytes 1 r.1 ++ leBytes 1 c), { s with mboxStage := false })

/-- FW_INFO (Table 19-3). Log: 96 (DEDUCED), 126 (DEDUCED). -/
def State.fwInfoOut (s : State) : List Byte :=
  let act := s.fwSet
  let st := s.fwOther
  leBytes 4 (s.rd F.hfFwStatus_manifestVersion 0) ++ leBytes 4 (if s.fwCheck st 0 == 0 then s.fwManifest st else 0) ++ leBytes 1 act
    ++ (List.range 7).flatMap (fun c =>
      leBytes 4 (s.fwVersion act c) ++ leBytes 1 (s.fwSvn act c) ++ leBytes 1 (s.fwSvn st c) ++ leBytes 1 (s.fwFused c) ++ leBytes 1 0)

/-! ## Security versions (R501) -/

/-- HF_FW_SVN shows the fuses. -/
def State.showSvn (s : State) : State := loop 7 (fun c s => s.wr ⟨.hfFwSvn, 7 * c, 7, .ro, 0⟩ 0 (s.fwFused c)) s

/-- FW_COMMIT_SVN may run. -/
def State.commitOk (s : State) : Bool :=
  !s.flag F.hfFwStatus_bootFallback 0 && !s.flag F.hfFwStatus_actPending 0 && !s.flag F.hfFwRoll_rollBusy 0 && !s.flag F.hfFwRoll_rollHalted 0

/-- FW_COMMIT_SVN: each fused value rises to the svn of the set in force. -/
def State.commitSvn (s : State) : State :=
  if !s.commitOk then s
  else
    { s with flash := { s.flash with svn := (List.range 7).map (fun c => max (s.fwFused c) (s.fwSvn s.fwSet c)) } }.showSvn

/-- Output of FW_COMMIT_SVN: the result and the fused values after the command. -/
def State.commitSvnCmd (s : State) : MboxRes × State :=
  let r := if s.commitOk then 0 else 11
  let s := s.commitSvn
  (.ok (leBytes 1 r ++ (List.range 7).flatMap (fun c => leBytes 1 (s.fwFused c))), s)

/-! ## Activation (R506 to R508, R511, R514) -/

/-- Output of FW_ACTIVATE: result, failing component, pause in µs. -/
def actOut (result comp us : Nat) : List Byte := leBytes 1 result ++ leBytes 1 comp ++ leBytes 2 0 ++ leBytes 4 us

/-- Why an activation at `at_` is refused; 0 if it is accepted. -/
def State.actRefuse (s : State) (at_ : Nat) : Nat :=
  if !s.flag F.hfFwStatus_stagedOk 0 || (s.roll.isNone && !s.fwOk s.fwOther) then 7
  else if s.act.isSome || at_ < s.ft + 10000000 then 9
  else 0

/-- An activation is accepted. -/
def State.actStart (s : State) (at_ : Nat) (mbox : Option (Option Nat)) : State :=
  { (s.wr F.hfFwStatus_actPending 0 1) with act := some { at_ := at_, mbox := mbox } }

/-- FW_ACTIVATE. -/
def State.fwActivateCmd (s : State) (buf : Option Nat) (l : List Byte) : MboxRes × State :=
  let at_ := leNat l
  let r := s.actRefuse at_
  if r != 0 then
    let (c, s) := s.compByte none
    (.ok (actOut r c 0), s)
  else (.running, s.actStart at_ (some buf))

/-- ACTIVATION_INSTANT: A is reached; from now on no queue starts a command. A pending swap is in the way (R507). Log: 127 (DEDUCED). -/
def State.actInstant (s : State) : State :=
  match s.act with
  | none => s
  | some a =>
    if a.begun || s.ft < a.at_ then s
    else { s with act := some { a with begun := true, swapped := s.swap.isSome } }

/-- ACTIVATION_PAUSE: C is reached once no command is started. Log: 127 (DEDUCED). -/
def State.actPause (s : State) : State :=
  match s.act with
  | none => s
  | some a => if !a.begun || a.swapped || a.c.isSome || !s.quiesced then s else { s with act := some { a with c := some s.ft } }

/-- Every core runs a microcode version. -/
def State.allMcode (s : State) (v : Nat) : State := loop 4608 (fun g s => s.wr F.coreMcode_version g v) s

/-- A roll ends with every core on one version. Log: 128 (DEDUCED). -/
def State.rollEnd (s : State) : State :=
  { ((s.wr F.hfFwRoll_rollBusy 0 0).wr F.hfFwRoll_rollHalted 0 0).wr F.hfFwRoll_changed 0 0 with roll := none }

/-- The boot pointer is written to the staged set, which is in force from now on; the old set becomes the staged one. Log: 127 (DEDUCED). -/
def State.switchSet (s : State) : State :=
  let k := s.fwOther
  let s := { s with flash := { s.flash with bootSet := k }, fwFresh := [] }
  let s := (s.wr F.hfFwStatus_activeSet 0 k).wr F.hfFwStatus_manifestVersion 0 (s.fwManifest k)
  s.wr F.hfFwStatus_stagedOk 0 0

/-- SELF_CHECK_DONE: on a pass the staged set is in force; on a failure of component `bad` every component is the old set's again. During a
roll the activation reloads the set in force, which ends the roll (R511). -/
def State.selfCheck (s : State) (bad : Option Nat) : State :=
  match s.act with
  | none => s
  | some a =>
    if a.c.isNone || a.result.isSome then s
    else
      let res := fun (s : State) (r : Nat × Nat) (last : Nat) => { (s.wr F.hfFwStatus_lastAct 0 last) with act := some { a with result := some r } }
      if s.roll.isSome then
        res (s.allMcode (s.fwVersion s.fwSet 3)).rollEnd (bad.elim (0, 256) (fun c => (8, c))) 2
      else
        match bad with
        | some c => res s (8, c) 2
        | none =>
          let s := s.switchSet
          res (s.allMcode (s.fwVersion s.fwSet 3)) (0, 256) 1

/-- What ends with an activation: act_pending, the hold of the clusters' points, and the wait of a device compute reset (R507). -/
def State.actOver (s : State) : State :=
  let s := ({ (s.wr F.hfFwStatus_actPending 0 0) with act := none }).selectAll
  if s.resetWaits then { s with resetWaits := false }.deviceStart else s

/-- The mailbox command of an activation completes, if a command waits for it. Log: 97 (DEDUCED). -/
def State.actAnswer (s : State) (mbox : Option (Option Nat)) (result : Nat) (comp : Option Nat) (us : Nat) : State :=
  match mbox with
  | none => s
  | some buf =>
    let (c, s) := s.compByte comp
    s.mboxEnd buf true mboxOk (actOut result c us) 8

/-- Secured sessions end (R508). -/
def State.endSessions (s : State) : State := { (s.wr F.hfSecState_sessions 0 0) with sessions := [] }

/-- ACTIVATION_RESUME: queues resume; a change of Headframe firmware ends the secured sessions. -/
def State.actResume (s : State) : State :=
  match s.act with
  | none => s
  | some a =>
    match a.result with
    | none => s
    | some (r, c) =>
      if a.swapped then s
      else
        let changed := s.rd F.hfFwStatus_lastAct 0 == 1 && s.fwHash s.fwSet 1 != s.fwHash (1 - s.fwSet) 1
        let s := if changed then s.endSessions else s
        (s.actAnswer a.mbox r (if r == 8 then some c else none) ((s.ft - a.c.getD s.ft) / 1000)).actOver

/-- ACTIVATION_ABANDON: C has not come within 100 ms of A, or a swap is in the way; what was loaded is the old set's again (R507). Log: 127 (DEDUCED). -/
def State.actAbandon (s : State) : State :=
  match s.act with
  | none => s
  | some a =>
    if !a.begun || !(a.swapped || (a.c.isNone && decide (a.at_ + 100000000 ≤ s.ft))) then s
    else
      let s := if a.result.isSome && s.rd F.hfFwStatus_lastAct 0 == 1 then
          let s := s.switchSet
          (s.allMcode (s.fwVersion s.fwSet 3)).wr F.hfFwStatus_stagedOk 0 1
        else s
      ((s.wr F.hfFwStatus_lastAct 0 3).actAnswer a.mbox 9 none 0).actOver

/-! ## Rolling microcode update (R509 to R511) -/

/-- Major version of a microcode version. -/
def major (v : Nat) : Nat := bits v 24 8

/-- The staged set differs from the set in force in component 0x03 alone, and its manifest. -/
def State.onlyMcode (s : State) : Bool :=
  [1, 2, 4, 5, 6].all (fun c => s.fwHash s.fwOther c == s.fwHash s.fwSet c) && s.fwHash s.fwOther 3 != s.fwHash s.fwSet 3

/-- MCODE_ROLL: a halted roll resumes; a further command while one runs changes nothing, with a result the spec does not give. Log: 128 (DEDUCED). -/
def State.mcodeRollCmd (s : State) : MboxRes × State :=
  let answer := fun (r : Nat) (s : State) => (MboxRes.ok (leBytes 1 r), s)
  if s.roll.isSome then
    if s.flag F.hfFwRoll_rollHalted 0 then answer 0 (s.wr F.hfFwRoll_rollHalted 0 0)
    else answer (s.fresh.1 % 256) s.fresh.2
  else if !s.flag F.hfFwStatus_stagedOk 0 || !s.fwOk s.fwOther || !s.onlyMcode then answer 7 s
  else if major (s.fwVersion s.fwOther 3) != major (s.fwVersion s.fwSet 3) + 1 then answer 10 s
  else if s.act.isSome then answer 9 s
  else answer 0 { (s.wr F.hfFwRoll_rollBusy 0 1) with roll := some { version := s.fwVersion s.fwOther 3 } }

/-- No engine of core `g` is executing. -/
def State.notExecuting (s : State) (g : Nat) : Bool :=
  (List.range 4).all (fun e => (s.q (unitEng g e)).started.isEmpty) && !s.flag F.coreId_witness g && !s.flag F.coreId_canary g

/-- Core `g` changes in step 3 of R510: it holds a bench index. -/
def State.rollLast (s : State) (g : Nat) : Bool := s.active.isSome && s.indexed g

/-- Whether it is core `g`'s turn to change (R510): free cores first, in increasing number, each as soon as it executes nothing; then, at most
one in a partition at each shift start, the lowest core that holds an index. Log: 128 (DEDUCED). -/
def State.rollTurn (s : State) (r : Roll) (g : Nat) : Bool :=
  let p := partOf g
  let left := (coresOf p).filter (fun x => !r.changed.contains x)
  let free := left.filter (fun x => !s.rollLast x)
  left.contains g && s.notExecuting g
  && (if s.rollLast g then
        match s.active with
        | none => false
        | some l =>
          let k := s.rd F.hfShift_shift 0
          free.isEmpty && left.head? == some g && s.flag F.hfShift_open 0 && s.ft == s.shiftStart l k && r.shifts.getD p 0 != k + 1
      else (free.filter (fun x => s.notExecuting x)).head? == some g)

/-- MCODE_CORE_CHANGE: core `g` runs the new microcode; with the last core the staged set is in force. Log: 128 (DEDUCED). -/
def State.coreChange (s : State) (g : Nat) : State :=
  match s.roll with
  | none => s
  | some r =>
    if s.flag F.hfFwRoll_rollHalted 0 || s.act.any (fun a => a.c.isSome) || !s.rollTurn r g then s
    else
      let sh := if s.rollLast g then setNth r.shifts (partOf g) (s.rd F.hfShift_shift 0 + 1) else r.shifts
      let r := { r with changed := r.changed ++ [g], shifts := sh }
      let s := ({ s with roll := some r }.wr F.coreMcode_version g r.version).wr F.hfFwRoll_changed 0 r.changed.length
      if 4608 ≤ r.changed.length then s.switchSet.rollEnd else s

/-! ## Management processors (R503) -/

/-- MP_WATCHDOG_EXPIRY: processor `m` restarts; processor 0's running mailbox command ends ABORTED, and a second restart within 10 s turns the
module off as a fault of bank B8 does. Log: 129 (DEDUCED). -/
def State.mpExpire (s : State) (m : Nat) : State :=
  if !s.board.powered || !s.board.perstN || s.stage == 9 then s
  else
    let last := s.mpRestart.getD m none
    let s := { s with mpRestart := setNth s.mpRestart m (some s.up) }
    let s :=
      if m == 0 && s.flag F.hfMboxStatus_busy 0 then
        let buf := (s.act.bind (fun a => a.mbox)).getD none
        { s with act := s.act.map (fun (a : Activation) => { a with mbox := none }) }.mboxEnd buf true mboxAborted [] 0
      else s
    match last with
    | none => s
    | some t => if s.up ≤ t + 10000000000 then s.b8Fault unitFw else s

/-! ## The mailbox's firmware commands (Table 18-3), and a write of go -/

/-- FW_INFO. -/
def State.fwInfoRun (s : State) (c : MboxCall) : State := s.mboxRead c 0x0101 0 (fun _ _ s => .ok s.fwInfoOut)
/-- FW_STAGE: in_len is 8 + n, n a multiple of 4,096 from 4,096 to 61,440. -/
def State.fwStageRun (s : State) (c : MboxCall) : State :=
  s.mboxRun c 0x0102 (fun n => decide (4104 ≤ n) && decide (n ≤ 61448) && n % 4096 == 8) (fun l _ s => s.fwStageCmd l)
/-- FW_VERIFY. -/
def State.fwVerifyRun (s : State) (c : MboxCall) : State := s.mboxRun c 0x0103 (· == 0) (fun _ _ s => s.fwVerifyCmd)
/-- FW_ACTIVATE. -/
def State.fwActivateRun (s : State) (c : MboxCall) : State :=
  s.mboxRun c 0x0104 (· == 8) (fun l _ s => s.fwActivateCmd (s.mboxBuf c) l)
/-- FW_COMMIT_SVN. -/
def State.fwCommitRun (s : State) (c : MboxCall) : State := s.mboxRun c 0x0105 (· == 0) (fun _ _ s => s.commitSvnCmd)
/-- MCODE_ROLL. -/
def State.mcodeRollRun (s : State) (c : MboxCall) : State := s.mboxRun c 0x0106 (· == 0) (fun _ _ s => s.mcodeRollCmd)

/-- The mailbox command of opcode `op`; `a` and `b` are the outcomes of a canary run. -/
def State.mboxCommand (s : State) (c : MboxCall) (op : Nat) (a b : Option Nat) : State :=
  match op with
  | 0x0002 => s.lsdbRead c
  | 0x0101 => s.fwInfoRun c
  | 0x0102 => s.fwStageRun c
  | 0x0103 => s.fwVerifyRun c
  | 0x0104 => s.fwActivateRun c
  | 0x0105 => s.fwCommitRun c
  | 0x0106 => s.mcodeRollRun c
  | 0x0201 => s.energyRead c
  | 0x0301 => s.faultRead c
  | 0x0302 => s.canaryCmd c a b
  | 0x0303 => s.capsuleCmd c
  | 0x0304 => s.retireCmd c
  | 0x0401 => s.bootTestCmd c
  | 0x0402 => s.memTestCmd c
  | _ => s.mboxBad c op

/-- The command that a write of `v` to HF_MBOX_CMD with go set starts (R417). Log: 92 (DEDUCED). -/
def goCall (m : MboxGo) (f : Func) (v : Nat) : MboxCall :=
  { f := f, useHost := bitAt v 17, inLen := bits v F.hfMboxCmd_inLen.lo F.hfMboxCmd_inLen.len, host := m.host, outOk := m.outOk }

/-! ## Events -/

/-- FW_INFO. -/
def execFwInfo (c : MboxCall) (s : State) : Host.Outcome State Fault Refusal := finish (s.fwInfoRun c)
/-- FW_STAGE. -/
def execFwStage (c : MboxCall) (s : State) : Host.Outcome State Fault Refusal := finish (s.fwStageRun c)
/-- FW_VERIFY. -/
def execFwVerify (c : MboxCall) (s : State) : Host.Outcome State Fault Refusal := finish (s.fwVerifyRun c)
/-- FW_ACTIVATE. -/
def execFwActivate (c : MboxCall) (s : State) : Host.Outcome State Fault Refusal := finish (s.fwActivateRun c)
/-- FW_COMMIT_SVN. -/
def execFwCommitSvn (c : MboxCall) (s : State) : Host.Outcome State Fault Refusal := finish (s.fwCommitRun c)
/-- MCODE_ROLL. -/
def execMcodeRoll (c : MboxCall) (s : State) : Host.Outcome State Fault Refusal := finish (s.mcodeRollRun c)
/-- ACTIVATION_INSTANT. -/
def execActivationInstant (s : State) : Host.Outcome State Fault Refusal := finish s.actInstant
/-- ACTIVATION_PAUSE. -/
def execActivationPause (s : State) : Host.Outcome State Fault Refusal := finish s.actPause
/-- SELF_CHECK_DONE. -/
def execSelfCheckDone (bad : Option (Fin 7)) (s : State) : Host.Outcome State Fault Refusal := finish (s.selfCheck (bad.map (·.val)))
/-- ACTIVATION_RESUME. -/
def execActivationResume (s : State) : Host.Outcome State Fault Refusal := finish s.actResume
/-- ACTIVATION_ABANDON. -/
def execActivationAbandon (s : State) : Host.Outcome State Fault Refusal := finish s.actAbandon
/-- MCODE_CORE_CHANGE. -/
def execMcodeCoreChange (g : CoreId) (s : State) : Host.Outcome State Fault Refusal := finish (s.coreChange g)
/-- MP_WATCHDOG_EXPIRY. -/
def execMpWatchdogExpiry (m : Fin 2) (s : State) : Host.Outcome State Fault Refusal := finish (s.mpExpire m)

end Sys2Proof.Machine
end

