-- ==== Sys2Proof/Machine/Host.lean ====
section
/-! DEFINITION. The host's accesses (chapter 15): BAR0 errors, BAR2, host-managed device memory and its back-invalidates, IDE, interrupts
and configuration. -/

namespace Sys2Proof.Machine

/-- The completion the host receives. -/
def State.answer (s : State) (r : Reply) : State := { s with reply := some r }

/-! ## Merging a host write into a row (R171) -/

/-- Whether a write of the listed bytes at `d` covers the sector or line around sector `k` whole. -/
def Store.mergeWhole (st : Store) (d : Nat) (data : List (Option Byte)) (k : Nat) : Bool :=
  let (a, n) := st.unit k
  (List.range n).all (fun i => decide (d ≤ a + i) && ((data[a + i - d]?).getD none).isSome)

/-- The bytes of a write and where they fall. -/
def writtenBytes (d : Nat) (data : List (Option Byte)) : List (Nat × Byte) :=
  ((List.range data.length).zip data).filterMap (fun e => e.2.map (fun b => (d + e.1, b)))

/-- Whether a byte of a write meets a sector or line with an uncorrectable error that the write covers in part. -/
def Store.mergeLoses (st : Store) (d : Nat) (data : List (Option Byte)) (a : Nat) : Bool :=
  st.hurt a 1 && !st.mergeWhole d data (a / 32)

/-- The bytes of a write that are written. -/
def Store.mergeBytes (st : Store) (d : Nat) (data : List (Option Byte)) : List (Nat × Byte) :=
  (writtenBytes d data).filter (fun e => !st.mergeLoses d data e.1)

/-- A host write merged into memory: bytes in such a sector are dropped; a sector written gets fresh check bits. -/
def Store.merge (st : Store) (d : Nat) (data : List (Option Byte)) : Store :=
  let l := st.mergeBytes d data
  let st' := l.foldl (fun (x : Store) e => x.wr e.1 e.2) st
  { st' with bad := st'.bad.filter (fun k => !st.mergeWhole d data k), weak := st'.weak.filter (fun k => !l.any (fun e => st.touches e.1 1 k)) }

/-- Whether any byte of a host write is dropped. -/
def Store.mergeHurt (st : Store) (d : Nat) (data : List (Option Byte)) : Bool :=
  (writtenBytes d data).any (fun e => st.mergeLoses d data e.1)

/-- Sectors or lines that the merge reads, because the write covers them in part, and corrects (R171, R195). Log: 159 (DEDUCED). -/
def Store.mergeFixes (st : Store) (d : Nat) (data : List (Option Byte)) : Nat :=
  ((st.weak.filter (fun k => !st.mergeWhole d data k && (st.mergeBytes d data).any (fun e => st.touches e.1 1 k))).map
    (fun k => (st.unit k).1)).eraseDups.length

/-- A host write at canonical DPA `d` takes effect, and what its merge corrects is counted. -/
def State.hostMerge (s : State) (d : Nat) (data : List (Option Byte)) : State :=
  { (s.corrCount d (s.mem.mergeFixes d data)) with mem := s.mem.merge d data }

/-! ## BAR0 (R399) -/

/-- BAR0_BAD_ACCESS: counted and logged; a read gives all ones of its width, a write is dropped. -/
def State.badAccess (s : State) (f : Func) (off w : Nat) (write : Bool) : State :=
  if !s.serves || !breaksR7 off w then s
  else
    let s := (s.inc F.hfHostErr_badAccess 0).errlog off (funcNum f) 1 0
    if write then s else s.answer (.data (List.replicate w 0xFF))

/-- VF_DENIED: an access of a function outside its view is counted; a read gives 0 (R398). -/
def State.deniedAccess (s : State) (f : Func) (off w : Nat) (write : Bool) : State :=
  if !s.serves || !s.outside f off write then s
  else
    let s := s.deny f off 0
    if write then s else s.answer (.data (List.replicate w 0))

/-! ## BAR2 (R401 to R403) -/

/-- The DPA an offset of BAR2 reaches (R401). -/
def bar2Dpa (o : Nat) : Option Nat :=
  if o < 8 * smPart then some (smBase + o)
  else if o < 8 * smPart + 4608 * cmCore then some (cmBase + (o - 8 * smPart))
  else none

/-- The parts of an access, split at row boundaries (R402): offset and length of each. Log: 84 (DEDUCED). -/
def rowParts (o len : Nat) : List (Nat × Nat) :=
  if len == 0 then []
  else (List.range ((o + len - 1) / 512 - o / 512 + 1)).map (fun i =>
    let a := max o (512 * (o / 512 + i))
    (a, min (o + len) (512 * (o / 512 + i + 1)) - a))

/-- What becomes of one part of a BAR2 access (Table 15-4): denied, aborted, or served at a canonical DPA. -/
inductive Bar2Row where
  | denied
  | abort
  | ok (d : Nat)
  deriving DecidableEq, Repr

/-- A CXL.io access is carried by a secure stream: the link stream or a selective one (R411, R412). Log: 87 (DEDUCED). -/
def State.ioSecure (s : State) (sec : Bool) : Bool := sec && (s.flag F.hfHostIde_linkSecure 0 || s.rd F.hfHostIde_selSecure 0 != 0)

/-- The function's view of a partition's rows. Log: 37 (DEDUCED), 85 (DEDUCED). -/
def State.rowView (s : State) (f : Func) (p : Nat) : Bool :=
  match f with
  | .pf0 => true
  | .vf k => s.vfHasPart k.val p

/-- The unit behind a row does not serve the host: its partition in compute reset or dark, a failed router, or a core whose cluster is
switched off or dark (R400, R431). Log: 90 (DEDUCED). -/
def State.rowDown (s : State) (d : Nat) : Bool :=
  s.partDark (s.ownerOf d) || s.partInReset (s.ownerOf d) || s.sliceLost (d / 512 * 512) || (cmHolder d).any (fun h => !s.cluOn h)

/-- One part of a BAR2 access; before READY every one is aborted (R483). Log: 85 (DEDUCED). -/
def State.bar2Row (s : State) (f : Func) (sec : Bool) (o : Nat) : Bar2Row :=
  if s.flag F.hfHostIde_require 0 && !s.ioSecure sec then .denied
  else if s.stage != 7 then .abort
  else
    match (bar2Dpa o).bind s.resolve with
    | none => .denied
    | some d => if !s.rowView f (s.ownerOf d) then .denied else if s.rowDown d then .abort else .ok d

/-- A BAR2 access that cannot be served: counted as `denied` or aborted, logged, and reported through CXL.io (R403). -/
def State.bar2Fail (s : State) (f : Func) (o : Nat) (denied : Bool) : State :=
  let s := if denied then s.deny f o 1 else s.abortAccess f o 1
  { s with sent := s.sent ++ [HostMsg.error (funcNum f) o] }

/-- An uncorrectable error that a host access meets (R197, R199, R403). -/
def State.hostUnc (s : State) (d : Nat) : State := (s.memUnc d).softEntry (d / 512 * 512)

/-- One part of a BAR2 read: the bytes, or how the completion fails. -/
def State.bar2Get (s : State) (f : Func) (sec : Bool) (o n : Nat) : Reply × State :=
  match s.bar2Row f sec o with
  | .denied => (.unsupported, s.bar2Fail f o true)
  | .abort => (.aborted, s.bar2Fail f o false)
  | .ok d =>
    if s.mem.hurt (d / 512 * 512) 512 then (.aborted, (s.hostUnc d).bar2Fail f o false)
    else (.data (s.mem.rdN d n), s.corr d n)

/-- What a completion becomes with one more part: the first part that fails decides it. -/
def Reply.join : Reply → Reply → Reply
  | .data a, .data b => .data (a ++ b)
  | .data _, r => r
  | r, _ => r

/-- BAR2_READ. Log: 84 (DEDUCED), 86 (DEDUCED). -/
def State.bar2Read (s : State) (f : Func) (o len : Nat) (sec : Bool) : State :=
  if !s.serves then s
  else
    let (r, s) := (rowParts o len).foldl (fun (acc : Reply × State) p =>
      let (r, s) := acc.2.bar2Get f sec p.1 p.2
      (acc.1.join r, s)) (.data [], s)
    s.answer r

/-- One part of a BAR2 write; results that an Assay unit has locked are written once they are free (R459). -/
def State.bar2Put (s : State) (f : Func) (sec : Bool) (o : Nat) (data : List (Option Byte)) : State :=
  match s.bar2Row f sec o with
  | .denied => s.bar2Fail f o true
  | .abort => s.bar2Fail f o false
  | .ok d =>
    let s := if s.mem.mergeHurt d data then (s.hostUnc d).bar2Fail f o false else s
    s.hostMerge d data

/-- The canonical addresses of a BAR2 access are results that an Assay unit has locked (R459). Log: 160 (DEDUCED). -/
def State.bar2Locked (s : State) (f : Func) (sec : Bool) (o len : Nat) : Bool :=
  (rowParts o len).any (fun p => match s.bar2Row f sec p.1 with
    | .ok d => s.lockedMem d p.2
    | _ => false)

/-- BAR2_WRITE: each part is served or dropped. Log: 84 (DEDUCED). -/
def State.bar2Write (s : State) (f : Func) (o : Nat) (data : List (Option Byte)) (sec : Bool) : State :=
  if !s.serves || s.bar2Locked f sec o data.length then s
  else (rowParts o data.length).foldl (fun s p => s.bar2Put f sec p.1 ((data.drop (p.1 - o)).take p.2)) s

/-! ## Host-managed device memory (R405 to R409) -/

/-- Lines the device can track (R407). Log: 89 (DEDUCED). -/
def trackMax : Nat := 2097152

/-- The HBM line a host physical address reaches, once the decoder is committed (R405) and the module is READY (R483). -/
def State.hdmLine (s : State) (hpa : Nat) : Option Nat :=
  if s.stage == 7 && s.flag F.hfHostLink_hdmCommitted 0 && decide (s.hdmBase ≤ hpa) && decide (hpa < s.hdmBase + hbmEnd) then some ((hpa - s.hdmBase) / 64)
  else none

/-- HF_HDM_SF shows the number of lines tracked. Log: 89 (DEDUCED). -/
def State.setTracked (s : State) (l : List Tracked) : State := { (s.wr F.hfHdmSf_tracked 0 l.length) with tracked := l }

/-- A CXL.mem request refused for want of a secure stream (R412). Log: 86 (DEDUCED). -/
def State.cmRefused (s : State) (sec : Bool) : Bool := s.flag F.hfHostIde_require 0 && !(sec && s.flag F.hfHostIde_cmSecure 0)

/-- A line becomes tracked, or is tracked with what the host now asks for. Log: 89 (DEDUCED). -/
def State.track (s : State) (l : Nat) (excl : Bool) : State :=
  if s.tracked.any (fun t => t.line == l) then
    s.setTracked (s.tracked.map (fun (t : Tracked) => if t.line == l then { t with excl := t.excl || excl } else t))
  else s.setTracked (s.tracked ++ [{ line := l, excl := excl }])

/-- CXL_MEM_READ: a line of HBM, with poison on an uncorrectable error or in a dark partition. With the tracker full, a read for a coherent
state waits until the line tracked longest has come back. Log: 88 (PRESUMED). -/
def State.cxlRead (s : State) (hpa : Nat) (want : Coherence) (sec : Bool) : State :=
  if !s.serves then s
  else
    match s.hdmLine hpa with
    | none => s.answer .unmapped
    | some l =>
      let d := 64 * l
      if s.cmRefused sec then (s.deny .pf0 d 1).answer .poisoned
      else if s.mem.hurt d 64 || s.homeDark d then
        let s := if s.mem.hurt d 64 then s.hostUnc d else s
        ((s.inc F.hfHostErr_poison 0).errlog d 0 4 1).answer .poisoned
      else if want == .none then (s.corr d 64).answer (.data (s.mem.rdN d 64))
      else if !s.tracked.any (fun t => t.line == l) && decide (trackMax ≤ s.tracked.length) then
        match s.tracked.head? with
        | none => s
        | some t => (if s.snoops.any (fun x => x.line == t.line) then s else s.snoopLine t.line true false).answer .waits
      else ((s.corr d 64).track l (want == .exclusive)).answer (.data (s.mem.rdN d 64))

/-- CXL_MEM_WRITE: up to 64 bytes of a line. -/
def State.cxlWrite (s : State) (hpa : Nat) (data : List (Option Byte)) (sec : Bool) : State :=
  if !s.serves then s
  else
    match s.hdmLine hpa with
    | none => s.answer .unmapped
    | some l =>
      if s.cmRefused sec then s.deny .pf0 (64 * l) 1
      else if s.homeDark (64 * l) then s
      else s.hostMerge (64 * l) (data.take 64)

/-- BISNP_RESPONSE: the host gives the line back, with its data if it has changed it; after a BISnpData it may keep the line shared. -/
def State.snoopAnswer (s : State) (l : Nat) (data : Option (List Byte)) (shared : Bool) : State :=
  match s.snoops.find? (fun x => x.line == l) with
  | none => s
  | some x =>
    let s := { s with snoops := s.snoops.filter (fun y => y.line != l) }
    let s := match data with
      | some b => s.hostMerge (64 * l) ((b.take 64).map some)
      | none => s
    if shared && !x.inv then s.setTracked (s.tracked.map (fun (t : Tracked) => if t.line == l then { t with excl := false } else t))
    else s.setTracked (s.tracked.filter (fun t => t.line != l))

/-- BISNP_TIMEOUT: 100 µs without an answer (R408). Log: 41 (DESIGN CHOICE). -/
def State.snoopTimeout (s : State) (l : Nat) : State :=
  match s.snoops.find? (fun x => x.line == l) with
  | none => s
  | some x =>
    if s.up < x.since + 100000 then s
    else
      let s := { s with snoops := s.snoops.filter (fun y => y.line != l), snoopDead := if x.eng then s.snoopDead ++ [l] else s.snoopDead }
      let s := (s.setTracked (s.tracked.filter (fun t => t.line != l))).inc F.hfHdmSf_bisnpTimeout 0
      if s.flag F.hfHostErrlog_valid 0 then s.raise 86 else s.errlog (64 * l) 0 6 1

/-- HDM_DECODER_COMMIT (R405). -/
def State.hdmCommit (s : State) (base : Nat) : State :=
  if !s.serves then s else { (s.wr F.hfHostLink_hdmCommitted 0 1) with hdmBase := base }

/-! ## IDE (R411 to R413) -/

/-- Show whether a stream is secure: 0 the link stream, 1 to 8 the selective ones, 9 CXL.cachemem. -/
def State.setSecure (s : State) (stream v : Nat) : State :=
  if stream == 0 then s.wr F.hfHostIde_linkSecure 0 v
  else if stream ≤ 8 then s.wr ⟨.hfHostIde, 1 + stream, 1, .ro, 0⟩ 0 v
  else s.wr F.hfHostIde_cmSecure 0 v

/-- Whether a stream is secure. -/
def State.isSecure (s : State) (stream : Nat) : Bool :=
  if stream == 0 then s.flag F.hfHostIde_linkSecure 0
  else if stream ≤ 8 then bitAt (s.rd F.hfHostIde_selSecure 0) (stream - 1)
  else s.flag F.hfHostIde_cmSecure 0

/-- IDE_KM: in an established secured session over DOE, the keys of a stream are set and the stream is secure. Log: 133 (PRESUMED). -/
def State.ideKey (s : State) (session stream : Nat) (key : List Nat) : State :=
  if s.sessions.any (fun x => x.id == session && x.ready && x.via == 0) then
    let s := { (s.setSecure stream 1) with ideKeys := mput s.ideKeys stream key }
    { s with mgmt := s.mgmt ++ [⟨0, .ideKey stream⟩] }
  else { s with mgmt := s.mgmt ++ [⟨0, .spdmError .session⟩] }

/-- IDE_FAILURE: the stream becomes insecure and loses its keys; the failing TLP or flit is dropped, so its address and function are not
known. Log: 87 (DEDUCED). -/
def State.ideFailure (s : State) (stream : Nat) : State :=
  if !s.isSecure stream then s
  else
    let s := { (s.setSecure stream 0) with ideKeys := mdel s.ideKeys stream }
    let (a, s) := s.fresh
    let (f, s) := s.fresh
    let (k, s) := s.fresh
    if s.flag F.hfHostErrlog_valid 0 then s.raise 86 else s.errlog a f 5 k

/-! ## Interrupts (R414 to R416) -/

/-- A function has vector `v` (R414). -/
def vectorOk (func v : Nat) : Bool := if func == 0 then decide (v < 1024) else decide (v < 128)

/-- Why a write to HF_INT_MAP is refused (R416). Log: 135 (DEDUCED). -/
def State.mapBad (s : State) (src func vec : Nat) : Bool :=
  let named :=
    if func == 0 then decide (src < 87)
    else if src < 64 then s.vfHasPart (func - 1) (src / 8)
    else decide (src < 80) && s.vfHasPart (func - 1) (src % 8)
  !named || decide (8 < func) || (func != 0 && decide (s.rd F.hfHostLink_vfs 0 < func)) || !vectorOk func vec

/-- INT_MAP_WRITE. Log: 135 (DEDUCED). -/
def State.mapWrite (s : State) (src v : Nat) : State :=
  if s.mapBad src (bits v 11 4) (bits v 0 11) then s.wr F.hfIntMap_mapErr src 1
  else (s.softWr .hfIntMap src v).wr F.hfIntMap_mapErr src 0

/-- The function exists: PF0, or a virtual function NumVFs has enabled (R394). -/
def State.funcUp (s : State) (f : Func) : Bool :=
  match f with
  | .pf0 => true
  | .vf k => decide (k.val < s.rd F.hfHostLink_vfs 0)

/-- A vector is unmasked: one message for the events collected while it was masked (R414). Log: 91 (PRESUMED). -/
def State.unmask (s : State) (f : Func) (v : Nat) : State :=
  if !s.serves || !s.funcUp f || !vectorOk (funcNum f) v then s
  else
    let k := funcNum f * 1024 + v
    let s := { s with msix := mputD s.msix k { mgetD s.msix k {} with mask := false } {} }
    if mgetD s.msixPend k false then { s with msixPend := mdel s.msixPend k }.sendVector (funcNum f) v else s

/-! ## Events -/

/-- BAR0_BAD_ACCESS: an access of `w` bytes. -/
def execBar0BadAccess (f : Func) (off w : Nat) (wr : Bool) (s : State) : Host.Outcome State Fault Refusal := finish (s.badAccess f off w wr)
/-- VF_DENIED. -/
def execVfDenied (f : Func) (off w : Nat) (wr : Bool) (s : State) : Host.Outcome State Fault Refusal := finish (s.deniedAccess f off w wr)
/-- BAR2_READ. -/
def execBar2Read (f : Func) (off len : Nat) (sec : Bool) (s : State) : Host.Outcome State Fault Refusal := finish (s.bar2Read f off len sec)
/-- BAR2_WRITE. -/
def execBar2Write (f : Func) (off : Nat) (data : List (Option Byte)) (sec : Bool) (s : State) : Host.Outcome State Fault Refusal :=
  finish (s.bar2Write f off data sec)
/-- CXL_MEM_READ. -/
def execCxlMemRead (hpa : Nat) (want : Coherence) (sec : Bool) (s : State) : Host.Outcome State Fault Refusal :=
  finish (s.cxlRead hpa want sec)
/-- CXL_MEM_WRITE. -/
def execCxlMemWrite (hpa : Nat) (data : List (Option Byte)) (sec : Bool) (s : State) : Host.Outcome State Fault Refusal :=
  finish (s.cxlWrite hpa data sec)
/-- BISNP_RESPONSE. -/
def execBisnpResponse (line : Nat) (data : Option (List Byte)) (shared : Bool) (s : State) : Host.Outcome State Fault Refusal :=
  finish (s.snoopAnswer line data shared)
/-- BISNP_TIMEOUT. -/
def execBisnpTimeout (line : Nat) (s : State) : Host.Outcome State Fault Refusal := finish (s.snoopTimeout line)
/-- HDM_DECODER_COMMIT. -/
def execHdmDecoderCommit (base : Nat) (s : State) : Host.Outcome State Fault Refusal := finish (s.hdmCommit base)
/-- IDE_KM. -/
def execIdeKm (session : Nat) (stream : Fin 10) (key : List Nat) (s : State) : Host.Outcome State Fault Refusal :=
  finish (s.ideKey session stream key)
/-- IDE_FAILURE. -/
def execIdeFailure (stream : Fin 10) (s : State) : Host.Outcome State Fault Refusal := finish (s.ideFailure stream)
/-- INT_MAP_WRITE. -/
def execIntMapWrite (f : Func) (src : Fin 96) (v : Word64) (s : State) : Host.Outcome State Fault Refusal :=
  finish (s.host f .hfIntMap src true (fun s => s.mapWrite src v.toNat))
/-- NUMVFS_WRITE. Log: 134 (DEDUCED). -/
def execNumvfsWrite (n : Fin 9) (s : State) : Host.Outcome State Fault Refusal :=
  finish (if s.serves then s.wr F.hfHostLink_vfs 0 n else s)
/-- ATOMICOP_REQUEST. Log: 86 (DEDUCED). -/
def execAtomicopRequest (_f : Func) (_off : Nat) (s : State) : Host.Outcome State Fault Refusal :=
  finish (if s.serves then s.answer .unsupported else s)
/-- VECTOR_UNMASK. -/
def execVectorUnmask (f : Func) (v : Nat) (s : State) : Host.Outcome State Fault Refusal := finish (s.unmask f v)
/-- CDAT_REQUEST (R410). Log: 133 (PRESUMED). -/
def execCdatRequest (s : State) : Host.Outcome State Fault Refusal :=
  finish (if s.serves then { s with mgmt := s.mgmt ++ [⟨0, .cdat 0 0xFFFFFFFFFF 350 256⟩] } else s)
/-- DOE_DISCOVERY (R410). Log: 133 (PRESUMED). -/
def execDoeDiscovery (s : State) : Host.Outcome State Fault Refusal :=
  finish (if s.serves then { s with mgmt := s.mgmt ++ [⟨0, .discovery [.discovery, .spdm, .securedSpdm, .cdat]⟩] } else s)
/-- I3C_DYNAMIC_ADDRESS (R513). Log: 133 (PRESUMED). -/
def execI3cDynamicAddress (a : Nat) (s : State) : Host.Outcome State Fault Refusal :=
  finish (if s.board.powered then { s with board := { s.board with dynAddr := some (a % 128) } } else s)

end Sys2Proof.Machine
end

