-- ==== Sys2Proof/Machine/Mgmt.lean ====
section
/-! DEFINITION. The management transports: SPDM over DOE and MCTP (R517 to R520), and PLDM for Firmware Update over MCTP (R513, R514).
Transport 0 is PF0's DOE mailbox, 1 is MCTP over I3C. -/

namespace Sys2Proof.Machine

/-- The management transports are served: in normal operation from step 8 on, and in recovery mode (R513). -/
def State.mgmtUp (s : State) : Bool := s.board.powered && s.board.perstN && decide (4 ≤ s.stage)

/-- A message leaves by a transport. -/
def State.mgmtSend (s : State) (via : Nat) (m : MgmtMsg) : State := { s with mgmt := s.mgmt ++ [⟨via, m⟩] }

/-! ## Signatures (R519, R520) -/

/-- A leaf of the per-boot tree is taken; a tree without leaves is replaced first, which a used-up top tree or a failing flash write refuses. Log: 130 (DEDUCED). -/
def State.takeLeaf (s : State) (flashOk : Bool) : Bool × State :=
  let use := fun (s : State) => (true, s.wr F.hfSecState_bootLeaves 0 (s.rd F.hfSecState_bootLeaves 0 + 1))
  if s.rd F.hfSecState_bootLeaves 0 < 32768 then use s
  else
    match s.topNext with
    | none => (false, s.topOut)
    | some s' => if flashOk then use (s'.wr F.hfSecState_bootLeaves 0 0) else (false, s.hfErr 2 0)

/-- The two signatures over a transcript, or none where they are refused. -/
def State.signTwo (s : State) (flashOk : Bool) (t : List Nat) : Option TwoSigs × State :=
  match s.takeLeaf flashOk with
  | (false, s) => (none, s)
  | (true, s) =>
    let n := s.signatures
    (some { ecdsa := Config.sign 5 s.aliasKey t n, hss := Config.sign 7 s.flash.topIndex (Config.digest t) n }, { s with signatures := n + 1 })

/-! ## SPDM (R517) -/

/-- A transport's connection. -/
def State.conn (s : State) (via : Nat) : Spdm := s.spdm.getD via {}
/-- Change a transport's connection. -/
def State.setConn (s : State) (via : Nat) (c : Spdm) : State := { s with spdm := setNth s.spdm via c }

/-- A request, by its number and fields, enters the transcript. -/
def State.hear (s : State) (via : Nat) (l : List Nat) : State :=
  s.setConn via { s.conn via with transcript := (s.conn via).transcript ++ l }

/-- A request that needs negotiation to have come to `stage`; before that it is out of order. Log: 131 (PRESUMED). -/
def State.spdmReq (s : State) (via stage : Nat) (l : List Nat) (eff : State → State) : State :=
  if !s.mgmtUp then s
  else if (s.conn via).stage < stage then s.mgmtSend via (.spdmError .unexpected)
  else eff (s.hear via l)

/-- Negotiation has come to `stage`. Log: 131 (PRESUMED). -/
def State.spdmStage (s : State) (via stage : Nat) : State := s.setConn via { s.conn via with stage := stage }

/-- GET_VERSION: a new connection begins. -/
def State.spdmVersion (s : State) (via : Nat) : State :=
  if !s.mgmtUp then s else (s.setConn via { stage := 1, transcript := [1] }).mgmtSend via (.version 1 3)

/-- GET_DIGESTS: slot 0 alone is provisioned. -/
def State.spdmDigests (s : State) (via : Nat) : State := s.mgmtSend via (.digests 0 (Config.digest (Config.chain s.aliasKey)))

/-- GET_CERTIFICATE. -/
def State.spdmCert (s : State) (via slot off len : Nat) : State :=
  let chain := Config.chain s.aliasKey
  if slot != 0 || chain.length ≤ off then s.mgmtSend via (.spdmError .invalid)
  else s.mgmtSend via (.certificate 0 off ((chain.drop off).take len) (chain.length - off - min len (chain.length - off)))

/-- A signed response, or Unspecified where no signature is to be had (R520). -/
def State.spdmSigned (s : State) (via : Nat) (flashOk : Bool) (m : TwoSigs → MgmtMsg) : State :=
  match s.signTwo flashOk (s.conn via).transcript with
  | (none, s) => s.mgmtSend via (.spdmError .unspecified)
  | (some g, s) => s.mgmtSend via (m g)

/-- CHALLENGE. -/
def State.spdmChallenge (s : State) (via slot nonce : Nat) (flashOk : Bool) : State :=
  if slot != 0 then s.mgmtSend via (.spdmError .invalid) else s.spdmSigned via flashOk (.challengeAuth 0 nonce)

/-- A mask of eight or 64 units. Log: 131 (PRESUMED). -/
def maskOf (n : Nat) (p : Nat → Bool) : Nat := (List.range n).foldl (fun m i => m + ofBool (p i) * 2 ^ i) 0

/-- Measurement block `i` of Table 19-6. Log: 131 (PRESUMED). -/
def State.measure (s : State) (i : Nat) : List Nat :=
  if i == 1 then Config.romDigest
  else if i ≤ 7 then s.fwHash s.fwSet (i - 1)
  else if i == 8 then s.fwHash s.fwSet 0
  else if i == 9 then
    (List.range 7).map (fun c => s.fwFused c) ++ [s.rd F.hfFwStatus_bootFallback 0, s.rd F.hfSecState_testLocked 0]
  else if i == 10 then
    (if s.flag F.hfLayoutStatus_activeValid 0 then (List.range 6).map (fun j => s.rd F.hfLayoutHashActive_activeHash j) else List.replicate 6 0)
  else if i == 11 then
    (if s.standby.isSome then (List.range 6).map (fun j => s.rd F.hfLayoutHashStandby_standbyHash j) else List.replicate 6 0)
  else if i == 12 then
    [s.rd F.hfLayoutStatus_activeDebug 0, maskOf 8 (fun l => s.flag F.lampState_unverifiedRun l), maskOf 64 (fun x => s.pst x == 4 && !s.flag F.vxPortState_trusted x)]
  else
    match s.roll with
    | none => [0, 4608]
    | some r => [r.changed.length, 4608 - r.changed.length]

/-- GET_MEASUREMENTS: index 0 asks for the number of blocks, 255 for all, else for one. -/
def State.spdmMeasure (s : State) (via idx : Nat) (signed : Bool) (nonce : Nat) (flashOk : Bool) : State :=
  let blocks := if idx == 0 then [(0, [13])]
    else if idx == 255 then (List.range 13).map (fun i => (i + 1, s.measure (i + 1)))
    else [(idx, s.measure idx)]
  if 13 < idx && idx != 255 then s.mgmtSend via (.spdmError .invalid)
  else
    let ver := if blocks.any (fun b => b.1 == 8) then some (s.rd F.hfFwStatus_manifestVersion 0) else none
    if signed then s.spdmSigned via flashOk (fun g => .measurements blocks ver nonce (some g))
    else s.mgmtSend via (.measurements blocks ver nonce none)

/-- HF_SEC_STATE counts the established sessions. -/
def State.setSessions (s : State) (l : List Session) : State :=
  { (s.wr F.hfSecState_sessions 0 (l.filter (fun x => x.ready)).length) with sessions := l }

/-- KEY_EXCHANGE: a session begins; as many as HF_SEC_STATE can count. Log: 131 (PRESUMED). -/
def State.spdmKeyExchange (s : State) (via slot : Nat) : State :=
  if slot != 0 then s.mgmtSend via (.spdmError .invalid)
  else if s.flag F.hfSecState_lmsExhausted 0 then s.mgmtSend via (.spdmError .unspecified)
  else if 15 ≤ s.sessions.length then s.mgmtSend via (.spdmError .session)
  else
    let id := s.sessionNext
    let n := s.signatures
    let rnd := Config.random s.freeCtr
    let sig := Config.sign 5 s.aliasKey (s.conn via).transcript n
    let x : Session := { id := id, via := via, at_ := s.up }
    { s with sessions := s.sessions ++ [x], sessionNext := id + 1, signatures := n + 1,
             freeCtr := s.freeCtr + 1 }.mgmtSend via (.keyExchange id rnd sig)

/-- A request of session `id` on a transport, in an established session or before FINISH. -/
def State.inSession (s : State) (via id : Nat) (ready : Bool) (eff : State → State) : State :=
  if !s.mgmtUp then s
  else if s.sessions.any (fun x => x.id == id && x.via == via && x.ready == ready) then
    eff { s with sessions := s.sessions.map (fun (x : Session) => if x.id == id then { x with at_ := s.up } else x) }
  else s.mgmtSend via (.spdmError .session)

/-- FINISH. -/
def State.spdmFinish (s : State) (via id : Nat) : State :=
  s.inSession via id false (fun s =>
    (s.setSessions (s.sessions.map (fun (x : Session) => if x.id == id then { x with ready := true } else x))).mgmtSend via (.finish id))

/-- END_SESSION. -/
def State.spdmEnd (s : State) (via id : Nat) : State :=
  s.inSession via id true (fun s => (s.setSessions (s.sessions.filter (fun x => x.id != id))).mgmtSend via (.endSession id))

/-- HEARTBEAT. -/
def State.spdmHeartbeat (s : State) (via id : Nat) : State := s.inSession via id true (fun s => s.mgmtSend via (.heartbeat id))

/-! ## PLDM for Firmware Update (R513, R514) -/

/-- A PLDM answer. -/
def State.pldmSay (s : State) (c : PldmCode) : State := s.mgmtSend 1 (.update c)

/-- A PLDM command that an update must be on for. -/
def State.pldmIn (s : State) (eff : Pldm → State → State) : State :=
  if !s.mgmtUp then s
  else
    match s.pldm with
    | none => s.pldmSay .sequence
    | some u => eff u s

/-- RequestUpdate: one update or staging at a time; none during an activation or a roll. Log: 132 (PRESUMED). -/
def State.pldmRequest (s : State) : State :=
  if !s.mgmtUp then s
  else if s.pldm.isSome || s.mboxStage then s.pldmSay .inProgress
  else if s.fwBusy then s.pldmSay .refused
  else { s with pldm := some {} }.pldmSay .ok

/-- PassComponentTable. -/
def State.pldmTable (s : State) (comps : List Nat) : State :=
  s.pldmIn (fun u s =>
    if u.comp.isSome then s.pldmSay .sequence
    else if comps.any (fun c => decide (7 ≤ c)) then s.pldmSay .badField
    else { s with pldm := some { u with comps := comps } }.pldmSay .ok)

/-- UpdateComponent: the device asks for the component's image. Log: 132 (PRESUMED). -/
def State.pldmComponent (s : State) (comp size : Nat) : State :=
  s.pldmIn (fun u s =>
    if u.comp.isSome || !u.comps.contains comp then s.pldmSay .sequence
    else if size == 0 || !fwRange comp 0 size then s.pldmSay .badField
    else ({ s with pldm := some { u with comp := some comp, size := size, offset := 0 } }.pldmSay .ok).mgmtSend 1 (.requestData comp 0 size))

/-- Firmware data arrives: it is staged; with the component's last byte the transfer is complete, with the last component's the staged set is
verified. Log: 132 (PRESUMED). -/
def State.pldmData (s : State) (data : List Byte) : State :=
  s.pldmIn (fun u s =>
    match u.comp with
    | none => s
    | some c =>
      let d := data.take (u.size - u.offset)
      let s := s.fwStage c u.offset d
      let off := u.offset + d.length
      if off < u.size then { s with pldm := some { u with offset := off } }.mgmtSend 1 (.requestData c off (u.size - off))
      else
        let rest := u.comps.filter (fun x => x != c)
        let s := { s with pldm := some { comps := rest } }.mgmtSend 1 (.transferComplete c)
        if !rest.isEmpty then s
        else
          let (r, s) := s.fwVerify
          (s.mgmtSend 1 (.verifyComplete c r.1)).mgmtSend 1 (.applyComplete c r.1))

/-- ActivateFirmware (R514). Log: 132 (PRESUMED). -/
def State.pldmActivate (s : State) : State :=
  s.pldmIn (fun u s =>
    if u.comp.isSome || !u.comps.isEmpty then s.pldmSay .sequence
    else if s.stage == 9 then
      if s.fwOk s.fwOther then
        let s := { s with flash := { s.flash with bootSet := s.fwOther }, pldm := none }
        (s.moduleReset).pldmSay .ok
      else s.pldmSay .refused
    else if s.actRefuse (s.ft + 10000000) != 0 then s.pldmSay .refused
    else ({ s with pldm := none }.actStart (s.ft + 10000000) none).pldmSay .ok)

/-! ## Events -/

/-- GET_VERSION. -/
def execGetVersion (via : Fin 2) (s : State) : Host.Outcome State Fault Refusal := finish (s.spdmVersion via)
/-- GET_CAPABILITIES. -/
def execGetCapabilities (via : Fin 2) (s : State) : Host.Outcome State Fault Refusal :=
  finish (s.spdmReq via 1 [2] (fun s => (s.spdmStage via 2).mgmtSend via (.capabilities true true true true true)))
/-- NEGOTIATE_ALGORITHMS: the requester offers the algorithms of R517 or not. -/
def execNegotiateAlgorithms (via : Fin 2) (offered : Bool) (s : State) : Host.Outcome State Fault Refusal :=
  finish (s.spdmReq via 2 [3] (fun s =>
    if offered then (s.spdmStage via 3).mgmtSend via (.algorithms [.ecdsaP384, .sha384, .secp384r1, .aes256gcm])
    else s.mgmtSend via (.spdmError .invalid)))
/-- GET_DIGESTS. -/
def execGetDigests (via : Fin 2) (s : State) : Host.Outcome State Fault Refusal := finish (s.spdmReq via 3 [4] (fun s => s.spdmDigests via))
/-- GET_CERTIFICATE. -/
def execGetCertificate (via : Fin 2) (slot off len : Nat) (s : State) : Host.Outcome State Fault Refusal :=
  finish (s.spdmReq via 3 [5, slot, off, len] (fun s => s.spdmCert via slot off len))
/-- CHALLENGE: `flashOk` says whether a flash write of the top-tree index passes its check. -/
def execChallenge (via : Fin 2) (slot nonce : Nat) (flashOk : Bool) (s : State) : Host.Outcome State Fault Refusal :=
  finish (s.spdmReq via 3 [6, slot, nonce] (fun s => s.spdmChallenge via slot nonce flashOk))
/-- GET_MEASUREMENTS. -/
def execGetMeasurements (via : Fin 2) (idx : Fin 256) (signed : Bool) (nonce : Nat) (flashOk : Bool) (s : State) :
    Host.Outcome State Fault Refusal :=
  finish (s.spdmReq via 3 [7, idx.val, nonce] (fun s => s.spdmMeasure via idx signed nonce flashOk))
/-- KEY_EXCHANGE. -/
def execKeyExchange (via : Fin 2) (slot random : Nat) (s : State) : Host.Outcome State Fault Refusal :=
  finish (s.spdmReq via 3 [8, slot, random] (fun s => s.spdmKeyExchange via slot))
/-- FINISH. -/
def execFinish (via : Fin 2) (session : Nat) (s : State) : Host.Outcome State Fault Refusal := finish (s.spdmFinish via session)
/-- END_SESSION. -/
def execEndSession (via : Fin 2) (session : Nat) (s : State) : Host.Outcome State Fault Refusal := finish (s.spdmEnd via session)
/-- HEARTBEAT. -/
def execHeartbeat (via : Fin 2) (session : Nat) (s : State) : Host.Outcome State Fault Refusal := finish (s.spdmHeartbeat via session)
/-- QUERY_DEVICE_IDENTIFIERS. -/
def execQueryDeviceIdentifiers (s : State) : Host.Outcome State Fault Refusal :=
  finish (if s.mgmtUp then s.mgmtSend 1 (.identifiers Config.serial.toNat) else s)
/-- GET_FIRMWARE_PARAMETERS. -/
def execGetFirmwareParameters (s : State) : Host.Outcome State Fault Refusal :=
  finish (if s.mgmtUp then
    s.mgmtSend 1 (.parameters ((List.range 7).map (fun c => (c, s.fwVersion s.fwSet c, s.fwVersion s.fwOther c)))) else s)
/-- REQUEST_UPDATE. -/
def execRequestUpdate (s : State) : Host.Outcome State Fault Refusal := finish s.pldmRequest
/-- PASS_COMPONENT_TABLE. -/
def execPassComponentTable (comps : List Nat) (s : State) : Host.Outcome State Fault Refusal := finish (s.pldmTable comps)
/-- UPDATE_COMPONENT. -/
def execUpdateComponent (comp size : Nat) (s : State) : Host.Outcome State Fault Refusal := finish (s.pldmComponent comp size)
/-- REQUEST_FIRMWARE_DATA. -/
def execRequestFirmwareData (data : List Byte) (s : State) : Host.Outcome State Fault Refusal := finish (s.pldmData data)
/-- ACTIVATE_FIRMWARE. -/
def execActivateFirmware (s : State) : Host.Outcome State Fault Refusal := finish s.pldmActivate
/-- CANCEL_UPDATE. -/
def execCancelUpdate (s : State) : Host.Outcome State Fault Refusal :=
  finish (s.pldmIn (fun _ s => { s with pldm := none }.pldmSay .ok))

end Sys2Proof.Machine
end

