-- ==== Sys2Proof/Machine/Networks.lean ====
section
/-! DEFINITION. The on-device networks (chapter 11): die-to-die links, Class S rows, router failure and rerouting, the Bell network. -/

namespace Sys2Proof.Machine

/-! ## Die-to-die links (R310 to R312) -/

/-- Register index of link `d` of partition `p`. -/
def linkIdx (p d : Nat) : Nat := p * 18 + d
/-- State of a link: 0 DOWN, 1 TRAINING, 2 FULL, 3 HALF. -/
def State.linkSt (s : State) (p d : Nat) : Nat := s.rd F.partD2dLink_state (linkIdx p d)

/-- Partitions of the tenancy of `p`. Log: 65 (DEDUCED). -/
def State.tenants (s : State) (p : Nat) : List Nat := (List.range 8).filter (fun q => bitAt (s.tenancyMask p) q)

/-- D2D_LANE_ERROR: `n` rows were retried; the link trains anew, and its traffic waits. Log: 65 (DEDUCED). -/
def State.laneError (s : State) (p d n : Nat) : State :=
  let i := linkIdx p d
  if s.linkSt p d < 2 || s.partDark p then s
  else (((s.inc F.partD2dLink_crcErr i n).inc F.partD2dLink_retrains i).wr F.partD2dLink_state i 1)

/-- How a link runs by the failed lanes of its groups of 32: FULL where each group has at most one, HALF where the groups with more lie in
one half, else DOWN. -/
def linkMode (bad : List Nat) : Nat :=
  let h := bad.length / 2
  let twoBad := fun (l : List Nat) => l.any (fun n => decide (2 ≤ n))
  if !twoBad bad then 2 else if twoBad (bad.take h) && twoBad (bad.drop h) then 0 else 3

/-- A map of links by partition with one changed. Log: 65 (DEDUCED). -/
def markLink (m : List Nat) (p d : Nat) (on : Bool) : List Nat := modNth m p (fun w => putBits w d 1 (ofBool on))

/-- D2D_TRAIN_DONE: the lanes found failed in each group of the link besides those of the fused lane map (R20), 32 groups on a side link
and 16 on an inner one. A half-width link counts as one at validation from then on (R311); what is down waits for new paths (R312). Log: 65 (DEDUCED). -/
def State.trainDone (s : State) (p d : Nat) (bad : List Nat) : State :=
  let i := linkIdx p d
  if s.linkSt p d != 1 || s.partDark p then s
  else
    let groups := (List.range (if d < 12 then 32 else 16)).map (fun k => bad.getD k 0 + (mgetD s.fuses.lanes i []).getD k 0)
    let mode := linkMode groups
    let lost := groups.foldl (· + ·) 0
    let s := (s.wr F.partD2dLink_state i mode).wr F.partD2dLink_spared i (countBelow groups.length (fun k => groups.getD k 0 == 1))
    let s := s.wr F.partD2dLink_failed i (min lost 255)
    let half := fun (n : NetMap) => { n with half := markLink n.half p d (mode == 3) }
    let s := { s with net := half s.net, netWant := half { s.netWant with down := markLink s.netWant.down p d (mode == 0) } }
    if mode == 3 then
      (s.stick F.partNetSticky_d2dHalf p p).note p (unitPart p) 0x0681 (d + min lost 255 * 2 ^ 8) 0
    else if mode == 0 then
      let s := s.report 0x0A { s.blank (unitPart p) with part := p, detail := [d, 0] }
      (s.stick F.partNetSticky_d2dDown p p).noteEach (s.tenants p) (unitPart p) 0x0682 d 0
    else s

/-! ## Class S rows (R309) -/

/-- The command of a row fails: its rows on the way are gone. -/
def State.bulkFail (s : State) (b : BulkRow) (st sub : Nat) : State :=
  let g := b.unit / 4
  let s := { s with bulk := s.bulk.filter (fun (x : BulkRow) => !(x.unit == b.unit && x.id == b.id)) }
  match s.startedOf b.unit b.id with
  | none => s
  | some x => ((s.wr F.coreMovFaultAddr_addr g b.addr).opFail b.unit x st sub).repeated g

/-- BULK_ROW_DELIVER: row `k` of those under way reaches its receiver, behind those its source sent to the same place before it (R234,
R301); one whose sequence number the receiver already has is discarded. Log: 67 (DEDUCED), 162 (DESIGN CHOICE). -/
def State.bulkDeliver (s : State) (k : Nat) : State :=
  match s.bulk[k]? with
  | none => s
  | some b =>
    let behind := fun (x : BulkRow) => x.unit == b.unit && !x.got && s.rowPos x.row == s.rowPos b.row
    if s.bulk.any (fun (x : BulkRow) => x.seq == b.seq && x.got) || (s.bulk.take k).any behind then s
    else
      let g := b.unit / 4
      match s.rowPut g b.row b.data with
      | (.done, s) => { s with bulk := setNth s.bulk k { b with got := true } }
      | (.wait, s) => s
      | (.unc, s) => (s.engUnc g 3 0x70 b.row).bulkFail b 0x79 0
      | (.net n, s) => s.bulkFail b 0x7C n

/-- ROW_ACK: the acknowledgement of a received row releases the source's copy, and with the last one mark signals that waited for it
(R229). Log: 67 (DEDUCED). -/
def State.rowAck (s : State) (k : Nat) : State :=
  match s.bulk[k]? with
  | none => s
  | some b => if b.got then { s with bulk := dropNth s.bulk k }.flushHeld b.unit else s

/-! ## Router failure and rerouting (R315 to R318) -/

/-- Cores at position `c` of partition `p` are retired with cause NETWORK (R317, R319). -/
def State.retireClu (s : State) (p c rep : Nat) : State := loop 16 (fun k s => s.retire (576 * p + 16 * c + k) 5 rep) s

/-- ROUTER_FAIL: 1 self-check, 2 no answer. -/
def State.routerFail (s : State) (p c cause : Nat) : State :=
  let w := s.rd F.partNetRouter_failed p
  if bitAt w c || s.partDark p || !s.board.powered then s
  else
    let w := putBits w c 1 1
    let pay := c + cause * 2 ^ 8
    let s := s.report 0x08 { s.blank (unitPart p) with part := p, clu := c, retireCause := 5, detail := [pay, 0] }
    let rep := s.reportCount
    let s := s.wr F.partNetRouter_failed p w
    let s := { s with flash := { s.flash with routers := setNth s.flash.routers p w },
                      netWant := { s.netWant with failed := setNth s.netWant.failed p w } }
    let s := (s.stick F.partNetSticky_routerFail p p).noteEach (s.tenants p) (unitPart p) 0x0680 pay 0
    s.retireClu p c rep

/-- A mover whose Class B transfer had rows in flight through a failed position (R316). -/
def State.moverLost (s : State) (u : Nat) : State :=
  if !isCoreQ u || u % 4 != 3 then s
  else
    match s.oldest u 0x70 with
    | none => s
    | some x =>
      if s.unacked u x.id || !x.prog.begun then s
      else ((s.wr F.coreMovFaultAddr_addr (u / 4) (faultRow (MoveCmd.of x.e) false x.prog.src)).opFail u x 0x7C 1).repeated (u / 4)

/-- Partition whose network a unit sends on (Table 8-10); none for the units of the Headframe. -/
def netPartOf (u : Nat) : Option Nat := if u < 18432 then some (partOf (u / 4)) else if u < 18456 then some (u % 8) else none

/-- Rows of partition `p` sent again on new paths (R316): every Class S row not acknowledged, and of the tallies under way (Class C) a
free number, since the spec does not say which have been answered. Log: 67 (DEDUCED). -/
def State.resend (s : State) (p : Nat) : State :=
  let n := (s.bulk.filter (fun (b : BulkRow) => partOf (b.unit / 4) == p)).length
  let c := (s.tallies.filter (fun (t : Tally) => netPartOf t.unit == some p)).length
  if c == 0 then s.inc F.partNetErr_resent p n
  else s.fresh.2.inc F.partNetErr_resent p (n + s.fresh.1 % (c + 1))

/-- Fills of the remote-data caches whose rows were lost on the old paths are fetched again and counted (R198, R316); which were is free. Log: 67 (DEDUCED). -/
def State.refetch (s : State) : State :=
  (List.range s.rdcFills.length).foldl (fun s k =>
    match s.rdcFills[k]? with
    | none => s
    | some f =>
      let (v, s) := s.fresh
      if v % 2 == 0 then s
      else { (s.inc F.partMemUncorr_rdcRefetch f.part) with
        rdcFills := setNth s.rdcFills k { f with data := s.mem.rdN f.row 512 } }) s

/-- REROUTE_INSTALL: new paths avoid what has failed, routes that no longer fit lose their reservation, rows not acknowledged are sent
again, cache fills are fetched again, and the Class B transfers of `ms` end. -/
def State.reroute (s : State) (ms : List Nat) : State :=
  if s.net == s.netWant then s
  else
    let old := s.net
    let s := { s with net := s.netWant }
    let s := match s.active with
      | none => s
      | some l =>
        let (routes, gone) := degrade old s.net s.roles l.routes
        ({ s with active := some { l with routes := routes } }).degradedNotes routes gone
    let s := (loop 8 (fun p s => s.resend p) s).refetch
    ms.foldl (fun s u => s.moverLost u) s

/-! ## The Bell network (R319) -/

/-- The nodes below a failed Bell link are lost: a hub with its partition, a row node with six clusters, a cluster node with its cores. Log: 66 (DEDUCED). -/
def State.bellLost (s : State) (p level node rep : Nat) : State :=
  if level == 1 then (if s.partDark p then s else (s.loseCompute p 0).losePart p)
  else if level == 2 then loop 6 (fun i s => s.retireClu p (6 * (node % 6) + i) rep) s
  else s.retireClu p (node % 36) rep

/-- BELL_BEAT_ERROR: a beat toward a node of partition `p` (1 hub, 2 row node, 3 cluster node) is corrected (`fails` 0), retried, or, after
3 failed retries, lost with its link. Log: 66 (DEDUCED). -/
def State.bellError (s : State) (p level node fails : Nat) : State :=
  if s.partDark p || !s.board.powered then s
  else if fails == 0 then s.inc F.partNetErr_bellCorr p
  else
    let s := s.inc F.partNetErr_bellRetry p (min fails 3)
    if fails < 3 then s
    else
      let pay := level + node * 2 ^ 8
      let s := s.report 0x09 { s.blank (unitPart p) with part := p, retireCause := 5, detail := [pay, 0] }
      let rep := s.reportCount
      let s := (s.stick F.partNetSticky_bellFail p p).note p (unitPart p) 0x0684 pay 0
      s.bellLost p level node rep

/-! ## Events -/

/-- D2D_LANE_ERROR. -/
def execD2dLaneError (p : PartId) (d : Fin 18) (n : Nat) (s : State) : Host.Outcome State Fault Refusal := finish (s.laneError p d n)
/-- D2D_TRAIN_DONE. -/
def execD2dTrainDone (p : PartId) (d : Fin 18) (bad : List Nat) (s : State) : Host.Outcome State Fault Refusal := finish (s.trainDone p d bad)
/-- BULK_ROW_DELIVER. -/
def execBulkRowDeliver (k : Nat) (s : State) : Host.Outcome State Fault Refusal := finish (s.bulkDeliver k)
/-- ROW_ACK. -/
def execRowAck (k : Nat) (s : State) : Host.Outcome State Fault Refusal := finish (s.rowAck k)
/-- ROUTER_FAIL. -/
def execRouterFail (p : PartId) (c : CluId) (silent : Bool) (s : State) : Host.Outcome State Fault Refusal :=
  finish (s.routerFail p c (if silent then 2 else 1))
/-- REROUTE_INSTALL. -/
def execRerouteInstall (ms : List Nat) (s : State) : Host.Outcome State Fault Refusal := finish (s.reroute ms)
/-- BELL_BEAT_ERROR. -/
def execBellBeatError (p : PartId) (level : Fin 3) (node : CluId) (fails : Nat) (s : State) : Host.Outcome State Fault Refusal :=
  finish (s.bellError p (level.val + 1) node fails)

end Sys2Proof.Machine
end

