-- ==== Sys2Proof/Machine/Xlt.lean ====
section
/-! DEFINITION. The translation unit's requests (R202, R206, R207), the remote-data cache's fills (R190, R191) and the patrol scrub
(R196, R199). -/

namespace Sys2Proof.Machine

/-- Index of the copy of PART_XLT_REQ a function reaches (Table 7-10). -/
def xltCopy (f : Func) (p : Nat) : Nat :=
  match f with
  | .pf0 => 2 * p
  | .vf _ => 2 * p + 1

/-- The answer of a request: its status, and go cleared. -/
def State.xltAnswer (s : State) (i st : Nat) : State := (s.wr F.partXltReq_status i st).wr F.partXltReq_go i 0

/-- A queue uses context `c` of partition `p` (R207): it is RUNNING or HALTED and its ctx holds the number. -/
def State.ctxUsed (s : State) (p c : Nat) : Bool :=
  let uses := fun (u : Nat) => s.qst u != 0 && s.rd F.qCtrl_ctx u == c && s.queuePart u == p
  (List.range 2304).any (fun k => uses (2304 * p + k)) || uses (unitColl p) || (List.range 1024).any (fun k => uses (18456 + k))

/-- The lowest of `n` numbers that a map does not hold under `p * n + number`. -/
def firstFree {ν : Type} (m : NMap ν) (p n : Nat) : Option Nat := lowest n (fun k => (mget m (p * n + k)).isNone)

/-- A root or page list may lie at a DPA (R420): through PF0 any of Table 7-2, through a VF one of its tenancy. -/
def State.xltReach (s : State) (p i d : Nat) : Bool :=
  match s.resolve d with
  | none => false
  | some c => i % 2 == 0 || bitAt (s.tenancyMask p) (s.ownerOf c)

/-- No instruction cache holds, or waits for, a line of context `c` of partition `p` (R116). -/
def State.dropCode (s : State) (p c : Nat) : State :=
  { s with icache := s.icache.filter (fun l => !(l.ctxPart == p && l.ctx == c)),
           ifills := s.ifills.filter (fun l => !(l.ctxPart == p && l.ctx == c)) }

/-- The effect of a request's op on partition `p`, from the copy `i` (R206, R207). -/
def State.xltOp (s : State) (p i op : Nat) : State :=
  let num := s.rd F.partXltReq_number i
  let root := s.rd F.partXltArg0_root i
  if op == 1 then
    if root % 4096 != 0 || !s.xltReach p i root then s.xltAnswer i 4
    else
      match firstFree s.ctxs p 64 with
      | none => s.xltAnswer i 1
      | some k => (({ s with ctxs := mput s.ctxs (p * 64 + k) root }.dropCode p k).wr F.partXltReq_number i k).xltAnswer i 0
  else if op == 2 then
    if (mget s.ctxs (p * 64 + num)).isNone then s.xltAnswer i 5
    else if s.ctxUsed p num then s.xltAnswer i 3
    else ({ s with ctxs := mdel s.ctxs (p * 64 + num) }.dropCode p num).xltAnswer i 0
  else if op == 3 then
    let cap := s.rd F.partXltArg1_capacity i
    let sh := s.rd F.partXltArg1_pageShift i
    let tb := (s.rd F.partXltArg1_tokenRowsM1 i + 1) * 512
    if root % 8 != 0 || !s.xltReach p i root || cap == 0 || decide (2 ^ 20 < cap) || decide (sh < 12) || decide (21 < sh) then s.xltAnswer i 4
    else
      match firstFree s.seqSlots p 32 with
      | none => s.xltAnswer i 2
      | some k =>
        let q : SeqSlot := { root := root, capacity := cap, pageShift := sh, tokenBytes := tb, append := 0 }
        let s := { s with seqSlots := mput s.seqSlots (p * 32 + k) q }
        let s := (s.wr F.partSeqLen_length (p * 32 + k) 0).wr F.partSeqLen_allocated (p * 32 + k) 1
        (s.wr F.partXltReq_number i k).xltAnswer i 0
  else if op == 4 then
    if 32 ≤ num || (s.seqSlot p num).isNone then s.xltAnswer i 5
    else
      let s := { s with seqSlots := mdel s.seqSlots (p * 32 + num) }
      ((s.wr F.partSeqLen_length (p * 32 + num) 0).wr F.partSeqLen_allocated (p * 32 + num) 0).xltAnswer i 0
  else if op == 5 then
    match (if 32 ≤ num then none else s.seqSlot p num) with
    | none => s.xltAnswer i 5
    | some q =>
      let n := s.rd F.partXltArg1_length i
      let s := { s with seqSlots := mput s.seqSlots (p * 32 + num) { q with append := n, ranges := [] } }
      (s.wr F.partSeqLen_length (p * 32 + num) n).xltAnswer i 0
  else s.xltAnswer i 4

/-- A write of go = 1 to PART_XLT_REQ with an op that meets `is`: the fields, then the request; while a request of the copy runs it
has no effect (R207). Log: 93 (DEDUCED). -/
def State.xltReq (s : State) (f : Func) (p v : Nat) (is : Nat → Bool) : State :=
  let i := xltCopy f p
  s.host f .partXltReq i true (fun s =>
    if !bitAt v 3 || !is (bits v 0 3) || s.flag F.partXltReq_go i then s
    else (s.softWr .partXltReq i v).xltOp p i (bits v 0 3))

/-- A write to PART_XLT_INV: the fields, and an invalidation that starts with go (R202). -/
def State.xltInvGo (s : State) (p v : Nat) : State :=
  if !bitAt v 7 || s.flag F.partXltInv_go p then s
  else
    let s := s.softWr .partXltInv p v
    { s with xltInv := s.xltInv ++ [{ part := p, all := bitAt v 6, ctx := bits v 0 6 }] }

/-- The running invalidation of partition `p` ends: its cores hold none of the translations, and go clears (R202). Log: 31 (DESIGN CHOICE). -/
def State.xltInvEnd (s : State) (p : Nat) : State :=
  match s.xltInv.find? (fun x => x.part == p) with
  | none => s
  | some x =>
    let hit := fun (e : TlbEntry) => e.ctxPart == p && (x.all || e.ctx == x.ctx) && (decide (4608 ≤ e.core) || partOf e.core == p)
    { (s.wr F.partXltInv_go p 0) with tlb := s.tlb.filter (fun e => !hit e), xltInv := s.xltInv.filter (fun y => y.part != p) }

/-- The length of sequence slot `k` advances over its earliest reserved range once that is completely written (R206). Log: 30 (DEDUCED). -/
def State.seqAdvance (s : State) (p k : Nat) : State :=
  match (if 32 ≤ k then none else s.seqSlot p k) with
  | none => s
  | some q =>
    match q.ranges with
    | (_, hi, true) :: r =>
      ({ s with seqSlots := mput s.seqSlots (p * 32 + k) { q with ranges := r } }).wr F.partSeqLen_length (p * 32 + k) hi
    | _ => s

/-- The `k`-th fill on its way installs its line, unless an invalidation has started since; a full cache loses its oldest line. Log: 32 (DEDUCED). -/
def State.rdcFill (s : State) (k : Nat) : State :=
  match s.rdcFills[k]? with
  | none => s
  | some f =>
    let s := { s with rdcFills := dropNth s.rdcFills k }
    let n := s.rdcLines f.part
    if f.stale || n == 0 then s
    else
      let keep := s.rdc.filter (fun l => !(l.part == f.part && l.row == f.row))
      let keep := if n ≤ (keep.filter (fun l => l.part == f.part)).length then
          (match keep.find? (fun l => l.part == f.part) with
           | some o => keep.filter (fun l => l != o)
           | none => keep)
        else keep
      { s with rdc := keep ++ [{ part := f.part, row := f.row, data := f.data }] }

/-- Nanoseconds of 24 hours. -/
def day : Nat := 86400000000000

/-- The row of shared memory, core memory or HBM at `512 * row` of Table 7-2's windows, the carve-out's rows included, which the scrub
reads like every other (R196). -/
def scrubRow (row : Nat) : Option Nat :=
  let d := 512 * row
  if d < hbmEnd then some d
  else if d < smBase then none
  else if d < smBase + 8 * smPart then some d
  else if d < ilBase then none
  else if d < ilBase + 8 * smPart then some (ilRow ((d - ilBase) / smPart) ((d - ilBase) % smPart / 512))
  else if cmBase ≤ d && d < cmBase + 4608 * cmCore then some d
  else none

/-- The patrol scrub reads the row of DPA `512 * row` and finds `n` corrected errors besides those the state holds (R196): they are counted
and written back corrected, and a third pass of the row with one within 24 hours of power-on time makes a soft-repair entry (R199); an
uncorrectable error is counted, recorded, reported and listed. Log: 17 (DEDUCED). -/
def State.scrub (s : State) (row n : Nat) : State :=
  match scrubRow row with
  | none => s
  | some d =>
    let p := s.ownerOf d
    let n := n + s.mem.corrections d 512
    let s :=
      if n == 0 then s
      else
        let s := if d < hbmEnd then s.inc F.hbmEcc_corr (s.stackOf d) n
          else if d < cmBase then s.inc F.partMemCorr_smCorr p n else s.inc F.partMemCorr_cmCorr p n
        let hits := (mgetD s.scrubHits (d / 512) []).filter (fun t => decide (s.onNs < t + day)) ++ [s.onNs]
        let s := { s with scrubHits := mput s.scrubHits (d / 512) hits, mem := s.mem.heal d 512 }
        if 3 ≤ hits.length then s.softEntry d else s
    if s.mem.hurt d 512 then
      let s := (s.memUnc d).softEntry d
      s.report 0x04 { s.blank (if d < hbmEnd then unitHbm (s.stackOf d) else unitPart p) with
        part := p, detail := [storeCode d, d] }
    else s

/-- CTX_ALLOC. -/
def execCtxAlloc (f : Func) (p : PartId) (v : Word64) (s : State) : Host.Outcome State Fault Refusal :=
  finish (s.xltReq f p v.toNat (fun op => op == 1))
/-- CTX_FREE. -/
def execCtxFree (f : Func) (p : PartId) (v : Word64) (s : State) : Host.Outcome State Fault Refusal :=
  finish (s.xltReq f p v.toNat (fun op => op == 2))
/-- SEQ_ALLOC. -/
def execSeqAlloc (f : Func) (p : PartId) (v : Word64) (s : State) : Host.Outcome State Fault Refusal :=
  finish (s.xltReq f p v.toNat (fun op => op == 3))
/-- SEQ_FREE. -/
def execSeqFree (f : Func) (p : PartId) (v : Word64) (s : State) : Host.Outcome State Fault Refusal :=
  finish (s.xltReq f p v.toNat (fun op => op == 4))
/-- SEQ_SET_LEN. -/
def execSeqSetLen (f : Func) (p : PartId) (v : Word64) (s : State) : Host.Outcome State Fault Refusal :=
  finish (s.xltReq f p v.toNat (fun op => op == 5))
/-- XLT_REQ_BAD_OP: op 0, 6 or 7. -/
def execXltReqBadOp (f : Func) (p : PartId) (v : Word64) (s : State) : Host.Outcome State Fault Refusal :=
  finish (s.xltReq f p v.toNat (fun op => op == 0 || decide (6 ≤ op)))
/-- XLT_INV. -/
def execXltInv (f : Func) (p : PartId) (v : Word64) (s : State) : Host.Outcome State Fault Refusal :=
  finish (s.host f .partXltInv p true (fun s => s.xltInvGo p v.toNat))
/-- XLT_INV_COMPLETE. -/
def execXltInvComplete (p : PartId) (s : State) : Host.Outcome State Fault Refusal := finish (s.xltInvEnd p)
/-- SEQ_LENGTH_ADVANCE. -/
def execSeqLengthAdvance (p : PartId) (k : Nat) (s : State) : Host.Outcome State Fault Refusal := finish (s.seqAdvance p k)
/-- RDC_FILL_RETURN. -/
def execRdcFillReturn (k : Nat) (s : State) : Host.Outcome State Fault Refusal := finish (s.rdcFill k)
/-- PATROL_SCRUB. -/
def execPatrolScrub (row n : Nat) (s : State) : Host.Outcome State Fault Refusal := finish (s.scrub row n)

end Sys2Proof.Machine
end

