-- ==== Sys2Proof/Machine/Registers.lean ====
section
/-! DEFINITION. Reads and writes of registers by address (R8 to R10, R398 to R400): what a write does beyond the register's own fields, the
payload window of the mailbox and the MSI-X tables. -/

namespace Sys2Proof.Machine

/-! ## Writes with an effect of their own -/

/-- HF_FT_CTRL: with ref_en 0 the module uses no reference any more, and a locked one leaves it in HOLDOVER (R275, R276). Log: 58 (DEDUCED). -/
def State.ftCtrlWrite (s : State) (v : Nat) : State :=
  let s := s.softWr .hfFtCtrl 0 v
  if s.flag F.hfFtCtrl_refEn 0 then s
  else
    let s := if s.rd F.hfFtStatus_state 0 == 1 then s.wr F.hfFtStatus_state 0 4 else s
    { (s.wr F.hfFtStatus_sysScope 0 0) with pps := { skip := s.pps.skip } }

/-- HF_FT_PPS: the value the next edge stands for (R275). Log: 58 (DEDUCED). -/
def State.ftPpsWrite (s : State) (v : Nat) : State :=
  { (s.softWr .hfFtPps 0 v) with pps := { s.pps with value := some v, expect := none } }

/-- HF_SCHED_TALLY: in force from the tick after the write (R283). Log: 63 (DEDUCED). -/
def State.schedWrite (s : State) (v : Nat) : State :=
  { (s.softWr .hfSchedTally 0 v) with schedPrev := if s.schedAt == s.ft && s.ft != 0 then s.schedPrev else s.reg .hfSchedTally 0, schedAt := s.ft }

/-- VX_PORT_CTRL: enable 0 holds the port DARK, enable 1 lets a lit port train (R337). -/
def State.portCtrlWrite (s : State) (x v : Nat) : State :=
  let s := s.softWr .vxPortCtrl x v
  if !s.flag F.vxPortCtrl_enable x then s.portDown x 4
  else if s.portLight x then s.portLit x
  else s

/-- A write of a word of a landing entry (R377). -/
def State.landWrite (s : State) (r : RegName) (k v : Nat) : State :=
  let b := s.bookSt (s.rd F.partCeLand0_booking k)
  if b == 0 || b == 3 then s.softWr r k v else s

/-- HF_MBOX_CMD: its fields, and with go the command that they name runs (R417). Log: 92 (DEDUCED). -/
def State.mboxCmdWrite (s : State) (f : Func) (v : Nat) (m : MboxGo) : State :=
  if bitAt v 16 then s.mboxCommand (goCall m f v) (bits v 0 16) m.a m.b else s.softWr .hfMboxCmd 0 v

/-- What a software write to register `i` of a name does. Log: 92 (DEDUCED). -/
def State.regWrite (s : State) (f : Func) (r : RegName) (i v : Nat) (m : MboxGo) : State :=
  match r with
  | .qCtrl => s.ctrlWrite i v
  | .qBase => s.idleWrite .qBase i v
  | .qHead => s.idleWrite .qHead i v
  | .qTail => s.tailWrite i v
  | .partMark => s.markSet (i / 4096) (i % 4096) v
  | .partMarkAdd => s.markBump (i / 4096) (i % 4096) v
  | .partTallyRd => s.tallyRdWrite (i / 8) (i % 8) v
  | .partUpdCommit => s.commitWrite i v
  | .partXltReq => if bitAt v 3 then s.xltReq f (i / 2) v (fun _ => true) else s.softWr .partXltReq i v
  | .partXltInv => if bitAt v 7 then s.xltInvGo i v else s.softWr .partXltInv i v
  | .partRingReset => s.ringReset i v
  | .partCeLand0 => s.landWrite .partCeLand0 i v
  | .partCeLand1 => s.landWrite .partCeLand1 i v
  | .partPwrGate => s.gateWrite i v
  | .partRst => s.partRstWrite i v
  | .lampCtrl => s.lampCtrl i v
  | .vxPortCtrl => s.portCtrlWrite i v
  | .vxPortCal => s.calWrite (i / 4096) (i % 4096) v
  | .hfLayoutCmd => s.layoutCmd v
  | .hfFtCtrl => s.ftCtrlWrite v
  | .hfFtPps => s.ftPpsWrite v
  | .hfSchedTally => s.schedWrite v
  | .hfVxId => s.idWrite v
  | .hfVxBook0 => s.bookWrite i v
  | .hfIntMap => s.mapWrite i v
  | .hfMboxCmd => s.mboxCmdWrite f v m
  | .hfPwrCap => s.capWrite v
  | .hfPwrContract => s.contractWrite v
  | .hfPwrBroker => s.brokerWrite v
  | .hfPwrBrokerGuard => (s.softWr .hfPwrBrokerGuard 0 v).recap
  | .hfRst => s.hfRstWrite v
  | _ => s.softWr r i v

/-! ## Windows that hold no registers -/

/-- The mailbox, its payload window among it, answers PF0 (R417, R512). -/
def State.mboxUp (s : State) (f : Func) : Bool := f == .pf0 && (s.serves || (s.stage == 9 && s.board.powered))

/-- A write of `w` bytes to a word of the function's MSI-X table (R414); the pending-bit array ignores writes. Log: 91 (PRESUMED). -/
def State.msixWrite (s : State) (f : Func) (off w v : Nat) : State :=
  if !s.serves || 0x604000 ≤ off then s
  else
    let n := (off - 0x600000) / 16
    let k := funcNum f * 1024 + n
    let put := fun (s : State) (j x : Nat) =>
      let e := mgetD s.msix k {}
      let e : Msix :=
        if j == 0 then { e with addr := putBits e.addr 0 32 x }
        else if j == 1 then { e with addr := putBits e.addr 32 32 x }
        else if j == 2 then { e with data := x }
        else { e with mask := bitAt x 0 }
      let s := { s with msix := mputD s.msix k e {} }
      if j == 3 && !bitAt x 0 then s.unmask f n else s
    let j := off % 16 / 4
    let s := put s j (v % 2 ^ 32)
    if w == 8 then put s (j + 1) (v / 2 ^ 32) else s

/-- A word of the function's MSI-X table or pending-bit array. Log: 94 (DEDUCED). -/
def State.msixRead (s : State) (f : Func) (off : Nat) : Nat :=
  if 0x604000 ≤ off then
    (List.range 32).foldl (fun m i => m + ofBool (mgetD s.msixPend (funcNum f * 1024 + (off - 0x604000) * 8 + i) false) * 2 ^ i) 0
  else
    let e := mgetD s.msix (funcNum f * 1024 + (off - 0x600000) / 16) {}
    let j := off % 16 / 4
    if j == 0 then e.addr % 2 ^ 32 else if j == 1 then e.addr / 2 ^ 32 else if j == 2 then e.data else ofBool e.mask

/-! ## Accesses -/

/-- A register's content as a read returns it; HF_FT shows FT (Table 10-6). -/
def State.regRead (s : State) (r : RegName) (i : Nat) : Nat := if r == .hfFt then s.ft % 2 ^ 64 else softRead r (s.reg r i)

/-- A write of `w` bytes at an offset of BAR0; a wider one to the payload window is several of these. Log: 94 (DEDUCED). -/
def State.bar0Write (s : State) (f : Func) (off w v : Nat) (m : MboxGo) : State :=
  if breaksR7 off w then s.badAccess f off w true
  else
    match regAt off with
    | some (r, i) => s.host f r i true (fun s => s.regWrite f r i (v % 2 ^ (8 * w)) m)
    | none =>
      if inPayload off w && s.mboxUp f then { s with mbox := s.mbox.wrN (off - payloadBase) (leBytes (min w 8) v) }
      else if inMsix f off then s.msixWrite f off w v
      else if s.outside f off true then s.deniedAccess f off w true
      else if s.serves && s.offsetDown off then s.abortAccess f off 0
      else s

/-- A read of `w` bytes at an offset of BAR0: RC fields are cleared by it, without losing an event of the same instant (R9). -/
def State.bar0Read (s : State) (f : Func) (off w : Nat) : State :=
  let data := fun (s : State) (v : Nat) => s.answer (.data (leBytes w v))
  if breaksR7 off w then s.badAccess f off w false
  else
    match regAt off with
    | some (r, i) =>
      match s.gate f r i false with
      | .ok => (data s (s.regRead r i)).setReg r i (afterRead r (s.reg r i))
      | .silent => s
      | .denied => data (s.deny f off 0) 0
      | .abort => (s.abortAccess f off 0).answer (.data (List.replicate w 0xFF))
    | none =>
      if inPayload off w && s.mboxUp f then s.answer (.data (s.mbox.rdN (off - payloadBase) w))
      else if inMsix f off && s.serves then
        data s (s.msixRead f off + (if w == 8 then s.msixRead f (off + 4) * 2 ^ 32 else 0))
      else if s.outside f off false then s.deniedAccess f off w false
      else if s.serves && s.offsetDown off then (s.abortAccess f off 0).answer (.data (List.replicate w 0xFF))
      else if s.serves then data s 0
      else s

/-! ## Events -/

/-- REGISTER_WRITE: a write of `w` bytes. -/
def execRegisterWrite (f : Func) (off w : Nat) (v : RegData) (s : State) : Host.Outcome State Fault Refusal :=
  finish (s.bar0Write f off w v.v.toNat v.m)
/-- REGISTER_RC_READ: a read of `w` bytes. -/
def execRegisterRcRead (f : Func) (off w : Nat) (s : State) : Host.Outcome State Fault Refusal := finish (s.bar0Read f off w)

end Sys2Proof.Machine
end

