-- ==== Sys2Proof/Machine/Dispatch.lean ====
section
/-! DEFINITION. The meaning of each command: one arm for each constructor, a direct call of its meaning. -/

namespace Sys2Proof.Machine

/-- The effect of a command on everything but the queue. -/
def exec (i : Instr) (s : State) : Host.Outcome State Fault Refusal :=
  match i with
  | .nop q => Sys2Proof.Machine.execNop q s
  | .jump q => Sys2Proof.Machine.execJump q s
  | .sync q => Sys2Proof.Machine.execSync q s
  | .mm g => Sys2Proof.Machine.execMm g s
  | .mmLoad g => Sys2Proof.Machine.execMmLoad g s
  | .mmStore g => Sys2Proof.Machine.execMmStore g s
  | .vlaunch g => Sys2Proof.Machine.execVlaunch g s
  | .vprefetch g => Sys2Proof.Machine.execVprefetch g s
  | .upd g => Sys2Proof.Machine.execUpd g s
  | .move g => Sys2Proof.Machine.execMove g s
  | .coll p => Sys2Proof.Machine.execColl p s
  | .commandFetch q => Sys2Proof.Machine.execCommandFetch q s
  | .commandStart q => Sys2Proof.Machine.execCommandStart q s
  | .late q => Sys2Proof.Machine.execLate q s
  | .commandComplete q => Sys2Proof.Machine.execCommandComplete q s
  | .queueRun f q v => Sys2Proof.Machine.execQueueRun f q v s
  | .queueStop f q v => Sys2Proof.Machine.execQueueStop f q v s
  | .tailWrite f q v => Sys2Proof.Machine.execTailWrite f q v s
  | .benchBroadcast b e => Sys2Proof.Machine.execBenchBroadcast b e s
  | .markWrite f p m v => Sys2Proof.Machine.execMarkWrite f p m v s
  | .markAdd f p m v => Sys2Proof.Machine.execMarkAdd f p m v s
  | .markAddArrive k => Sys2Proof.Machine.execMarkAddArrive k s
  | .tallyWrite k => Sys2Proof.Machine.execTallyWrite k s
  | .tallyRdWrite f p r v => Sys2Proof.Machine.execTallyRdWrite f p r v s
  | .vNop g n => Sys2Proof.Machine.execVNop g n s
  | .vJmp g n => Sys2Proof.Machine.execVJmp g n s
  | .vBrDiv g n => Sys2Proof.Machine.execVBrDiv g n s
  | .vJoin g n => Sys2Proof.Machine.execVJoin g n s
  | .vBrAny g n => Sys2Proof.Machine.execVBrAny g n s
  | .vBrAll g n => Sys2Proof.Machine.execVBrAll g n s
  | .vBz g n => Sys2Proof.Machine.execVBz g n s
  | .vBnz g n => Sys2Proof.Machine.execVBnz g n s
  | .vEnd g n => Sys2Proof.Machine.execVEnd g n s
  | .vIadd g n => Sys2Proof.Machine.execVIadd g n s
  | .vIsub g n => Sys2Proof.Machine.execVIsub g n s
  | .vImul g n => Sys2Proof.Machine.execVImul g n s
  | .vImulhi g n => Sys2Proof.Machine.execVImulhi g n s
  | .vImin g n => Sys2Proof.Machine.execVImin g n s
  | .vImax g n => Sys2Proof.Machine.execVImax g n s
  | .vAnd g n => Sys2Proof.Machine.execVAnd g n s
  | .vOr g n => Sys2Proof.Machine.execVOr g n s
  | .vXor g n => Sys2Proof.Machine.execVXor g n s
  | .vShl g n => Sys2Proof.Machine.execVShl g n s
  | .vShr g n => Sys2Proof.Machine.execVShr g n s
  | .vSar g n => Sys2Proof.Machine.execVSar g n s
  | .vClz g n => Sys2Proof.Machine.execVClz g n s
  | .vPopc g n => Sys2Proof.Machine.execVPopc g n s
  | .vIcmp g n => Sys2Proof.Machine.execVIcmp g n s
  | .vSel g n => Sys2Proof.Machine.execVSel g n s
  | .vFadd g n => Sys2Proof.Machine.execVFadd g n s
  | .vFsub g n => Sys2Proof.Machine.execVFsub g n s
  | .vFmul g n => Sys2Proof.Machine.execVFmul g n s
  | .vFfma g n => Sys2Proof.Machine.execVFfma g n s
  | .vFmin g n => Sys2Proof.Machine.execVFmin g n s
  | .vFmax g n => Sys2Proof.Machine.execVFmax g n s
  | .vFcmp g n => Sys2Proof.Machine.execVFcmp g n s
  | .vFrnd g n => Sys2Proof.Machine.execVFrnd g n s
  | .vCvt g n => Sys2Proof.Machine.execVCvt g n s
  | .vMxpack g n => Sys2Proof.Machine.execVMxpack g n s
  | .vMxunpack g n => Sys2Proof.Machine.execVMxunpack g n s
  | .vShfl g n => Sys2Proof.Machine.execVShfl g n s
  | .vMov g n => Sys2Proof.Machine.execVMov g n s
  | .vVtos g n => Sys2Proof.Machine.execVVtos g n s
  | .vMovi g n => Sys2Proof.Machine.execVMovi g n s
  | .vExp2 g n => Sys2Proof.Machine.execVExp2 g n s
  | .vLog2 g n => Sys2Proof.Machine.execVLog2 g n s
  | .vRcp g n => Sys2Proof.Machine.execVRcp g n s
  | .vRsq g n => Sys2Proof.Machine.execVRsq g n s
  | .vSin g n => Sys2Proof.Machine.execVSin g n s
  | .vCos g n => Sys2Proof.Machine.execVCos g n s
  | .vLd g n => Sys2Proof.Machine.execVLd g n s
  | .vSt g n => Sys2Proof.Machine.execVSt g n s
  | .vRowld g n => Sys2Proof.Machine.execVRowld g n s
  | .vRowst g n => Sys2Proof.Machine.execVRowst g n s
  | .vRingrd g n => Sys2Proof.Machine.execVRingrd g n s
  | .vRingwr g n => Sys2Proof.Machine.execVRingwr g n s
  | .vAtom g n => Sys2Proof.Machine.execVAtom g n s
  | .vAtomcas g n => Sys2Proof.Machine.execVAtomcas g n s
  | .vSalu g n => Sys2Proof.Machine.execVSalu g n s
  | .vScmp g n => Sys2Proof.Machine.execVScmp g n s
  | .vMalu g n => Sys2Proof.Machine.execVMalu g n s
  | .vMtos g n => Sys2Proof.Machine.execVMtos g n s
  | .vStom g n => Sys2Proof.Machine.execVStom g n s
  | .vBar g n => Sys2Proof.Machine.execVBar g n s
  | .barrierRelease g id => Sys2Proof.Machine.execBarrierRelease g id s
  | .vMwait g n => Sys2Proof.Machine.execVMwait g n s
  | .mwaitSatisfied g n => Sys2Proof.Machine.execMwaitSatisfied g n s
  | .vMsig g n => Sys2Proof.Machine.execVMsig g n s
  | .vFence g n => Sys2Proof.Machine.execVFence g n s
  | .vPost g n => Sys2Proof.Machine.execVPost g n s
  | .postAccepted g n => Sys2Proof.Machine.execPostAccepted g n s
  | .vRdft g n => Sys2Proof.Machine.execVRdft g n s
  | .icacheFill g k => Sys2Proof.Machine.execIcacheFill g k s
  | .vecWatchdog g id => Sys2Proof.Machine.execVecWatchdog g id s
  | .updCommitGo f p v => Sys2Proof.Machine.execUpdCommitGo f p v s
  | .updCommitFt p => Sys2Proof.Machine.execUpdCommitFt p s
  | .rowAdopt g => Sys2Proof.Machine.execRowAdopt g s
  | .updCommitComplete p => Sys2Proof.Machine.execUpdCommitComplete p s
  | .ringSlotClaim k => Sys2Proof.Machine.execRingSlotClaim k s
  | .ringTimeout k => Sys2Proof.Machine.execRingTimeout k s
  | .ringReset f p v => Sys2Proof.Machine.execRingReset f p v s
  | .patrolScrub row n => Sys2Proof.Machine.execPatrolScrub row n s
  | .ctxAlloc f p v => Sys2Proof.Machine.execCtxAlloc f p v s
  | .ctxFree f p v => Sys2Proof.Machine.execCtxFree f p v s
  | .seqAlloc f p v => Sys2Proof.Machine.execSeqAlloc f p v s
  | .seqFree f p v => Sys2Proof.Machine.execSeqFree f p v s
  | .seqSetLen f p v => Sys2Proof.Machine.execSeqSetLen f p v s
  | .xltReqBadOp f p v => Sys2Proof.Machine.execXltReqBadOp f p v s
  | .xltInv f p v => Sys2Proof.Machine.execXltInv f p v s
  | .xltInvComplete p => Sys2Proof.Machine.execXltInvComplete p s
  | .seqLengthAdvance p k => Sys2Proof.Machine.execSeqLengthAdvance p k s
  | .rdcFillReturn k => Sys2Proof.Machine.execRdcFillReturn k s
  | .layoutLoad f v => Sys2Proof.Machine.execLayoutLoad f v s
  | .layoutValidationDone => Sys2Proof.Machine.execLayoutValidationDone s
  | .layoutBroadcastDone => Sys2Proof.Machine.execLayoutBroadcastDone s
  | .swapRequest f v => Sys2Proof.Machine.execSwapRequest f v s
  | .swapCancel f v => Sys2Proof.Machine.execSwapCancel f v s
  | .swapInstant => Sys2Proof.Machine.execSwapInstant s
  | .swapQuiesce => Sys2Proof.Machine.execSwapQuiesce s
  | .layoutActive => Sys2Proof.Machine.execLayoutActive s
  | .ftFrame u w => Sys2Proof.Machine.execFtFrame u w s
  | .ppsEdge => Sys2Proof.Machine.execPpsEdge s
  | .ppsTimeout => Sys2Proof.Machine.execPpsTimeout s
  | .classTSyncSend x => Sys2Proof.Machine.execClassTSyncSend x s
  | .classTSync x t1 fr => Sys2Proof.Machine.execClassTSync x t1 fr s
  | .syncResp x t1 t2 t3 fr hops => Sys2Proof.Machine.execSyncResp x t1 t2 t3 fr hops s
  | .announce x a => Sys2Proof.Machine.execAnnounce x a s
  | .masterTimeout => Sys2Proof.Machine.execMasterTimeout s
  | .alignedTimeout => Sys2Proof.Machine.execAlignedTimeout s
  | .shiftOpen => Sys2Proof.Machine.execShiftOpen s
  | .phaseStart => Sys2Proof.Machine.execPhaseStart s
  | .opMoveStart p => Sys2Proof.Machine.execOpMoveStart p s
  | .trimRead p c mv => Sys2Proof.Machine.execTrimRead p c mv s
  | .droopDetect p c below need n => Sys2Proof.Machine.execDroopDetect p c below need n s
  | .droopHoldEnd p c => Sys2Proof.Machine.execDroopHoldEnd p c s
  | .demote p c => Sys2Proof.Machine.execDemote p c s
  | .voltageRampDone p c => Sys2Proof.Machine.execVoltageRampDone p c s
  | .fchgStop p row => Sys2Proof.Machine.execFchgStop p row s
  | .fchgDrainDone p c => Sys2Proof.Machine.execFchgDrainDone p c s
  | .fchgRelockDone p c => Sys2Proof.Machine.execFchgRelockDone p c s
  | .fchgRestart p c => Sys2Proof.Machine.execFchgRestart p c s
  | .fchgAbort p c => Sys2Proof.Machine.execFchgAbort p c s
  | .d2dLaneError p d n => Sys2Proof.Machine.execD2dLaneError p d n s
  | .d2dTrainDone p d bad => Sys2Proof.Machine.execD2dTrainDone p d bad s
  | .bulkRowDeliver k => Sys2Proof.Machine.execBulkRowDeliver k s
  | .rowAck k => Sys2Proof.Machine.execRowAck k s
  | .routerFail p c silent => Sys2Proof.Machine.execRouterFail p c silent s
  | .rerouteInstall ms => Sys2Proof.Machine.execRerouteInstall ms s
  | .bellBeatError p level node fails => Sys2Proof.Machine.execBellBeatError p level node fails s
  | .flitReceive x b errs was pos due len => Sys2Proof.Machine.execFlitReceive x b errs was pos due len s
  | .laneLockLoss x lanes => Sys2Proof.Machine.execLaneLockLoss x lanes s
  | .flitSilenceTimeout x => Sys2Proof.Machine.execFlitSilenceTimeout x s
  | .downWaitExpiry x => Sys2Proof.Machine.execDownWaitExpiry x s
  | .portTrained x => Sys2Proof.Machine.execPortTrained x s
  | .helloSend x => Sys2Proof.Machine.execHelloSend x s
  | .hello x h => Sys2Proof.Machine.execHello x h s
  | .cert x chain => Sys2Proof.Machine.execCert x chain s
  | .peerVerdict x => Sys2Proof.Machine.execPeerVerdict x s
  | .lsa x l => Sys2Proof.Machine.execLsa x l s
  | .lsaRefresh => Sys2Proof.Machine.execLsaRefresh s
  | .lsaExpiry k => Sys2Proof.Machine.execLsaExpiry k s
  | .packetForward x => Sys2Proof.Machine.execPacketForward x s
  | .vxIdWrite f v => Sys2Proof.Machine.execVxIdWrite f v s
  | .bookActivate f b v => Sys2Proof.Machine.execBookActivate f b v s
  | .confirm x b prev lat links slots => Sys2Proof.Machine.execConfirm x b prev lat links slots s
  | .confirmed x b lat links => Sys2Proof.Machine.execConfirmed x b lat links s
  | .refused x b hop reason => Sys2Proof.Machine.execRefused x b hop reason s
  | .bookConfirmTimeout b => Sys2Proof.Machine.execBookConfirmTimeout b s
  | .bookRevoke f b v => Sys2Proof.Machine.execBookRevoke f b v s
  | .revoke x b cause => Sys2Proof.Machine.execRevoke x b cause s
  | .bookEntryWrite f b v => Sys2Proof.Machine.execBookEntryWrite f b v s
  | .calWrite f x k v => Sys2Proof.Machine.execCalWrite f x k v s
  | .transferOffer p => Sys2Proof.Machine.execTransferOffer p s
  | .transferAck x b n => Sys2Proof.Machine.execTransferAck x b n s
  | .transferDeadline id => Sys2Proof.Machine.execTransferDeadline id s
  | .childMessageConsume p => Sys2Proof.Machine.execChildMessageConsume p s
  | .childWaitExpiry p => Sys2Proof.Machine.execChildWaitExpiry p s
  | .downResult p => Sys2Proof.Machine.execDownResult p s
  | .collComplete p => Sys2Proof.Machine.execCollComplete p s
  | .ceLandWrite f p j w v => Sys2Proof.Machine.execCeLandWrite f p j w v s
  | .laserFail l n => Sys2Proof.Machine.execLaserFail l n s
  | .lampHoursWrite l => Sys2Proof.Machine.execLampHoursWrite l s
  | .lampEject f l v => Sys2Proof.Machine.execLampEject f l v s
  | .lampSurpriseRemoval l => Sys2Proof.Machine.execLampSurpriseRemoval l s
  | .lampSeated l e => Sys2Proof.Machine.execLampSeated l e s
  | .lampVerdict l sig => Sys2Proof.Machine.execLampVerdict l sig s
  | .allowUnverifiedWrite f l v => Sys2Proof.Machine.execAllowUnverifiedWrite f l v s
  | .bar0BadAccess f off w wr => Sys2Proof.Machine.execBar0BadAccess f off w wr s
  | .vfDenied f off w wr => Sys2Proof.Machine.execVfDenied f off w wr s
  | .bar2Read f off len sec => Sys2Proof.Machine.execBar2Read f off len sec s
  | .bar2Write f off data sec => Sys2Proof.Machine.execBar2Write f off data sec s
  | .cxlMemRead hpa want sec => Sys2Proof.Machine.execCxlMemRead hpa want sec s
  | .cxlMemWrite hpa data sec => Sys2Proof.Machine.execCxlMemWrite hpa data sec s
  | .bisnpResponse line data shared => Sys2Proof.Machine.execBisnpResponse line data shared s
  | .bisnpTimeout line => Sys2Proof.Machine.execBisnpTimeout line s
  | .hdmDecoderCommit base => Sys2Proof.Machine.execHdmDecoderCommit base s
  | .vfFlr k => Sys2Proof.Machine.execVfFlr k s
  | .pf0Flr => Sys2Proof.Machine.execPf0Flr s
  | .ideKm session stream key => Sys2Proof.Machine.execIdeKm session stream key s
  | .ideFailure stream => Sys2Proof.Machine.execIdeFailure stream s
  | .intMapWrite f src v => Sys2Proof.Machine.execIntMapWrite f src v s
  | .lsdbRead c => Sys2Proof.Machine.execLsdbRead c s
  | .mboxBadOpcode c op => Sys2Proof.Machine.execMboxBadOpcode c op s
  | .fwInfo c => Sys2Proof.Machine.execFwInfo c s
  | .fwStage c => Sys2Proof.Machine.execFwStage c s
  | .fwVerify c => Sys2Proof.Machine.execFwVerify c s
  | .fwActivate c => Sys2Proof.Machine.execFwActivate c s
  | .fwCommitSvn c => Sys2Proof.Machine.execFwCommitSvn c s
  | .mcodeRoll c => Sys2Proof.Machine.execMcodeRoll c s
  | .energyTotals c => Sys2Proof.Machine.execEnergyTotals c s
  | .faultRead c => Sys2Proof.Machine.execFaultRead c s
  | .canaryRun c a b => Sys2Proof.Machine.execCanaryRun c a b s
  | .capsule c => Sys2Proof.Machine.execCapsule c s
  | .retire c => Sys2Proof.Machine.execRetire c s
  | .bootTestSet c => Sys2Proof.Machine.execBootTestSet c s
  | .memTestReport c => Sys2Proof.Machine.execMemTestReport c s
  | .getVersion via => Sys2Proof.Machine.execGetVersion via s
  | .getCapabilities via => Sys2Proof.Machine.execGetCapabilities via s
  | .negotiateAlgorithms via offered => Sys2Proof.Machine.execNegotiateAlgorithms via offered s
  | .getDigests via => Sys2Proof.Machine.execGetDigests via s
  | .getCertificate via slot off len => Sys2Proof.Machine.execGetCertificate via slot off len s
  | .challenge via slot nonce flashOk => Sys2Proof.Machine.execChallenge via slot nonce flashOk s
  | .getMeasurements via idx signed nonce flashOk => Sys2Proof.Machine.execGetMeasurements via idx signed nonce flashOk s
  | .keyExchange via slot random => Sys2Proof.Machine.execKeyExchange via slot random s
  | .finish via session => Sys2Proof.Machine.execFinish via session s
  | .endSession via session => Sys2Proof.Machine.execEndSession via session s
  | .heartbeat via session => Sys2Proof.Machine.execHeartbeat via session s
  | .queryDeviceIdentifiers => Sys2Proof.Machine.execQueryDeviceIdentifiers s
  | .getFirmwareParameters => Sys2Proof.Machine.execGetFirmwareParameters s
  | .requestUpdate => Sys2Proof.Machine.execRequestUpdate s
  | .passComponentTable comps => Sys2Proof.Machine.execPassComponentTable comps s
  | .updateComponent comp size => Sys2Proof.Machine.execUpdateComponent comp size s
  | .requestFirmwareData data => Sys2Proof.Machine.execRequestFirmwareData data s
  | .activateFirmware => Sys2Proof.Machine.execActivateFirmware s
  | .cancelUpdate => Sys2Proof.Machine.execCancelUpdate s
  | .inputLimit vin iin => Sys2Proof.Machine.execInputLimit vin iin s
  | .inputUndervoltage vin => Sys2Proof.Machine.execInputUndervoltage vin s
  | .inputOvervoltage vin => Sys2Proof.Machine.execInputOvervoltage vin s
  | .bankFuseOpen p => Sys2Proof.Machine.execBankFuseOpen p s
  | .converterPhaseLoss p z => Sys2Proof.Machine.execConverterPhaseLoss p z s
  | .vrPhaseLoss p c n => Sys2Proof.Machine.execVrPhaseLoss p c n s
  | .clusterRailShort p c => Sys2Proof.Machine.execClusterRailShort p c s
  | .transitRailShort p => Sys2Proof.Machine.execTransitRailShort p s
  | .smRailShort p => Sys2Proof.Machine.execSmRailShort p s
  | .b8Fault => Sys2Proof.Machine.execB8Fault s
  | .clusterSwitchOff p c => Sys2Proof.Machine.execClusterSwitchOff p c s
  | .gateEnWrite f p v => Sys2Proof.Machine.execGateEnWrite f p v s
  | .switchOnSlot p z cur => Sys2Proof.Machine.execSwitchOnSlot p z cur s
  | .softStartDone p c => Sys2Proof.Machine.execSoftStartDone p c s
  | .capWrite f v => Sys2Proof.Machine.execCapWrite f v s
  | .powerLoop m => Sys2Proof.Machine.execPowerLoop m s
  | .contractWrite f v => Sys2Proof.Machine.execContractWrite f v s
  | .contractUpdate => Sys2Proof.Machine.execContractUpdate s
  | .slackReport p => Sys2Proof.Machine.execSlackReport p s
  | .brokerElect x prio serial => Sys2Proof.Machine.execBrokerElect x prio serial s
  | .brokerPeriod => Sys2Proof.Machine.execBrokerPeriod s
  | .grantCompute ms => Sys2Proof.Machine.execGrantCompute ms s
  | .grantApply w => Sys2Proof.Machine.execGrantApply w s
  | .noGrant => Sys2Proof.Machine.execNoGrant s
  | .energyFlashWrite => Sys2Proof.Machine.execEnergyFlashWrite s
  | .thermalSample t inlet outlet => Sys2Proof.Machine.execThermalSample t inlet outlet s
  | .pwrEnAssert => Sys2Proof.Machine.execPwrEnAssert s
  | .pwrEnDeassert => Sys2Proof.Machine.execPwrEnDeassert s
  | .powerDownDone => Sys2Proof.Machine.execPowerDownDone s
  | .captureCopyDone g e id err => Sys2Proof.Machine.execCaptureCopyDone g e id err s
  | .assayCompareDone g e id out => Sys2Proof.Machine.execAssayCompareDone g e id out s
  | .assayVerdict g e id o2 t => Sys2Proof.Machine.execAssayVerdict g e id o2 t s
  | .assayTimeout g e id => Sys2Proof.Machine.execAssayTimeout g e id s
  | .retirementFlashWrite k ok => Sys2Proof.Machine.execRetirementFlashWrite k ok s
  | .canarySchedule => Sys2Proof.Machine.execCanarySchedule s
  | .canaryResult g bad => Sys2Proof.Machine.execCanaryResult g bad s
  | .coreReset f p v => Sys2Proof.Machine.execCoreReset f p v s
  | .clusterReset f p v => Sys2Proof.Machine.execClusterReset f p v s
  | .partitionReset f p v => Sys2Proof.Machine.execPartitionReset f p v s
  | .deviceComputeReset f v => Sys2Proof.Machine.execDeviceComputeReset f v s
  | .moduleReset f v => Sys2Proof.Machine.execModuleReset f v s
  | .resetReservedKind f p v => Sys2Proof.Machine.execResetReservedKind f p v s
  | .drainEnd k n => Sys2Proof.Machine.execDrainEnd k n s
  | .resetComplete k => Sys2Proof.Machine.execResetComplete k s
  | .perstAssert => Sys2Proof.Machine.execPerstAssert s
  | .perstRelease straps recoveryN => Sys2Proof.Machine.execPerstRelease straps recoveryN s
  | .memoryTestDone t => Sys2Proof.Machine.execMemoryTestDone t s
  | .activationInstant => Sys2Proof.Machine.execActivationInstant s
  | .activationPause => Sys2Proof.Machine.execActivationPause s
  | .selfCheckDone bad => Sys2Proof.Machine.execSelfCheckDone bad s
  | .activationResume => Sys2Proof.Machine.execActivationResume s
  | .activationAbandon => Sys2Proof.Machine.execActivationAbandon s
  | .mcodeCoreChange g => Sys2Proof.Machine.execMcodeCoreChange g s
  | .mpWatchdogExpiry m => Sys2Proof.Machine.execMpWatchdogExpiry m s
  | .registerWrite f off w v => Sys2Proof.Machine.execRegisterWrite f off w v s
  | .registerRcRead f off w => Sys2Proof.Machine.execRegisterRcRead f off w s
  | .flitPosition x => Sys2Proof.Machine.execFlitPosition x s
  | .localValueFormed p => Sys2Proof.Machine.execLocalValueFormed p s
  | .ppsOut => Sys2Proof.Machine.execPpsOut s
  | .managementReady flashOk => Sys2Proof.Machine.execManagementReady flashOk s
  | .hbmTrainingDone ok => Sys2Proof.Machine.execHbmTrainingDone ok s
  | .cxlLinkTrainingDone rate width lopt => Sys2Proof.Machine.execCxlLinkTrainingDone rate width lopt s
  | .numvfsWrite n => Sys2Proof.Machine.execNumvfsWrite n s
  | .atomicopRequest f off => Sys2Proof.Machine.execAtomicopRequest f off s
  | .cdatRequest => Sys2Proof.Machine.execCdatRequest s
  | .doeDiscovery => Sys2Proof.Machine.execDoeDiscovery s
  | .vectorUnmask f v => Sys2Proof.Machine.execVectorUnmask f v s
  | .inputInRange => Sys2Proof.Machine.execInputInRange s
  | .powerOffIntervalEnd => Sys2Proof.Machine.execPowerOffIntervalEnd s
  | .laserBiasLimit l n bias power set => Sys2Proof.Machine.execLaserBiasLimit l n bias power set s
  | .faultLogFlashWrite k ok => Sys2Proof.Machine.execFaultLogFlashWrite k ok s
  | .i3cDynamicAddress a => Sys2Proof.Machine.execI3cDynamicAddress a s

end Sys2Proof.Machine
end

