-- ==== Sys2Proof/Machine/Step.lean ====
section
/-! DEFINITION. One step: the command at the front of the queue runs on the rest; on an empty queue one tick of FT
passes. -/

namespace Sys2Proof.Machine

/-- One tick passes: what is decided at the end of a tick is decided (R350), and Fabric Time advances while the module
is powered and out of PERST_N (R271). Log: 1 (DESIGN CHOICE), 60 (DEDUCED). -/
def tick (s : State) : State :=
  let s := s.endTick
  { s with ft := if s.board.powered && s.board.perstN then s.ft + 1 else s.ft, up := s.up + 1 }

/-- One step of the block. Log: 1 (DESIGN CHOICE), 11 (DESIGN CHOICE). -/
def step (s : State) : Host.Outcome State Fault Refusal :=
  match s.pending with
  | [] => .next (tick s)
  | c :: rest => exec c { s with pending := rest }

/-- The table gives its rows no bits, so no word spells a command and none is placed. Log: 3 (DESIGN CHOICE). -/
def State.withFetchWord (s : State) (nbits w : Nat) : State :=
  match decodeTableWord nbits w with
  | none => s
  | some c => { s with pending := c :: s.pending }

end Sys2Proof.Machine
end

