-- ==== Sys2Proof/Safety.lean ====
section
/-! DEFINITION. The terms the claims use: what a state must always show, what an instruction of a gang issues and leaves, and
what a host access or a command needs so that its row has its effect. -/

namespace Sys2Proof.Machine

/-! ## What every state shows -/

/-- The board outputs and HF_BOARD stand as the registers they follow (R524, Table 20-9). -/
def State.boardFollows (s : State) : Prop :=
  s.board.alert = s.alertNow ∧ s.board.therm = s.thermNow
  ∧ s.rd F.hfBoard_alertSrc 0 = s.alertSrc % 2 ^ 6 ∧ s.rd F.hfBoard_alertN 0 = ofBool s.alertNow
  ∧ s.rd F.hfBoard_thermN 0 = ofBool s.thermNow ∧ s.rd F.hfBoard_pwrEn 0 = ofBool s.board.pwrEn

/-- The register map and every byte store are in their canonical form. -/
def State.canonical (s : State) : Prop :=
  rising s.regs = true ∧ s.mem.wf = true ∧ s.bufs.wf = true ∧ s.mbox.wf = true ∧ s.fw.wf = true

/-- A run is safe when every step answers a next state whose board outputs follow its registers. -/
def State.safeStep (s : State) : Prop := ∃ t, step s = .next t ∧ t.boardFollows

/-- Command `c`, in every state, answers a next state in which memory, the private buffers, the queues, the gangs, the waiting commands
and every register but those named, and HF_BOARD, are as they were. -/
def LeavesBut (c : Instr) (rs : List RegName) : Prop :=
  ∀ s : State, ∃ t, exec c s = .next t ∧ t.mem = s.mem ∧ t.bufs = s.bufs ∧ t.queues = s.queues ∧ t.gangs = s.gangs
    ∧ t.pending = s.pending ∧ ∀ r i, r ∉ rs → r ≠ .hfBoard → t.reg r i = s.reg r i

/-! ## Vector instructions -/

/-- Gang `n` of core `g` issues instruction word `w`, a defined word of operation `op`, from resident line `l` of launch `la`: the launch
has time left, and no register it reads holds an uncorrectable error. -/
structure Issues (s : State) (g n : Nat) (op : VOp) (w : Nat) (q : Gang) (la : Launch) (l : ILine) : Prop where
  gang : s.gang g n = some q
  launch : s.launch g q.launch = some la
  runs : s.runs g = true
  wait : q.wait = .run
  pc : q.pc ≤ 131071
  line : s.iline g la.ctxPart la.ctx ((la.code + 8 * q.pc) / 512 * 512) = some l
  word : l.words.getD ((la.code + 8 * q.pc) % 512 / 8) 0 = w
  op_ : vecOp (vOpcode w) = some op
  legal : op.legal w = true
  time : s.overdue g la = false
  sound : q.lostLanes op w = []

/-- The state an instruction acts in: its line is the most recently used, it is counted (Table 4-9), the launch's time and a first launch's
notice are counted from the first one on (R91, R112), and errors in its registers are corrected and counted (R120). -/
def State.issued (s : State) (g : Nat) (la : Launch) (l : ILine) (n : Nat) : State :=
  (((s.touchLine l).incUnit F.coreVecAct_instrK g 1024 1).firstIssue g la).regCorr g n

/-- What an instruction that touches only its own gang leaves as it was; its own counters apart (Table 4-9, R91, R120). -/
def VecFrame (s t : State) (g n : Nat) : Prop :=
  t.mem = s.mem ∧ t.bufs = s.bufs ∧ t.queues = s.queues ∧ t.adds = s.adds ∧ t.tallies = s.tallies
  ∧ (∀ k, k ≠ gangKey g n → mget t.gangs k = mget s.gangs k)
  ∧ ∀ r i, (r ≠ .coreVecAct ∨ i ≠ g) → (r ≠ .coreVecStall ∨ i ≠ g) → (r ≠ .partMemCorr ∨ i ≠ partOf g) → r ≠ .hfBoard →
    t.reg r i = s.reg r i

/-- The gang has gone on behind its instruction, with its masks, stack and scalars as they were. -/
def Passed (q q' : Gang) : Prop :=
  q'.pc = q.pc + 1 ∧ q'.emask = q.emask ∧ q'.stack = q.stack ∧ q'.wait = .run ∧ q'.launch = q.launch

/-- Result of a lane-wise instruction: lane `l` of register `vD w` (a pair if `wide`) holds `f l` in every active lane; every other
lane and register of the gang, every mask and every scalar is as it was (R92, R130, R133). -/
def LaneResult (s t : State) (g n w : Nat) (q : Gang) (wide : Bool) (f : Nat → Nat) : Prop :=
  VecFrame s t g n ∧ ∃ q', t.gang g n = some q' ∧ Passed q q' ∧ q'.m = q.m ∧ q'.sr = q.sr
    ∧ (∀ l, l < 16 → bitAt (q.active w) l = true → q'.vread wide (vD w) l = f l % 2 ^ (if wide then 64 else 32))
    ∧ ∀ r l, l < 16 → (bitAt (q.active w) l = false ∨ (r ≠ vD w ∧ (wide = true → r ≠ vD w + 1))) → q'.vr r l = q.vr r l

/-- Result of a comparison into mask `vD w`: bit `l` is `f l` in every active lane and as it was in the others; m0 ignores it (R93). -/
def MaskResult (s t : State) (g n w : Nat) (q : Gang) (f : Nat → Bool) : Prop :=
  VecFrame s t g n ∧ ∃ q', t.gang g n = some q' ∧ Passed q q' ∧ q'.v = q.v ∧ q'.sr = q.sr
    ∧ (vD w ≠ 0 → ∀ l, l < 16 → bitAt (q'.mask (vD w)) l = if bitAt (q.active w) l then f l else bitAt (q.mask (vD w)) l)
    ∧ ∀ r, (r ≠ vD w ∨ r = 0) → q'.mask r = q.mask r

/-- Result in scalar register `d` (a pair if `wide`); every other register of the gang is as it was. -/
def ScalarResult (s t : State) (g n d : Nat) (q : Gang) (wide : Bool) (x : Nat) : Prop :=
  VecFrame s t g n ∧ ∃ q', t.gang g n = some q' ∧ Passed q q' ∧ q'.v = q.v ∧ q'.m = q.m
    ∧ q'.sread wide d = x % 2 ^ (if wide then 64 else 32)
    ∧ ∀ r, r ≠ d → (wide = true → r ≠ d + 1) → q'.sreg r = q.sreg r

/-- A control instruction that leaves every register of its gang and goes on at `pc`. -/
def GoesTo (s t : State) (g n : Nat) (q : Gang) (pc : Nat) : Prop :=
  VecFrame s t g n ∧ t.gang g n = some { q with pc := pc, wait := .run }

/-! ## Resets (R488, R490) -/

/-- A reset of a unit has begun: it runs last of the resets, and every core of the unit is fenced. -/
def ResetBegun (s t : State) (kind part target : Nat) : Prop :=
  t.resets.getLast? = some { kind := kind, part := part, target := target, at_ := s.up }
  ∧ ∀ g, g < 4608 → ({ kind := kind, part := part, target := target, at_ := s.up } : ResetRun).coversCore g = true → t.fenced g = true

/-! ## Mailbox commands (R417) -/

/-- A write of go for command `c` with opcode `op` is taken, and its input `l` read: the register answers, no command runs, a module in
recovery takes the opcode, and the buffer holds the input. -/
structure MboxTakes (s : State) (c : MboxCall) (op : Nat) (l : List Byte) : Prop where
  gate : s.gate c.f .hfMboxCmd 0 true = .ok
  idle : s.flag F.hfMboxStatus_busy 0 = false
  stage : s.stage ≠ 9 ∨ recoveryOp op = true
  size : s.mboxSize c ≠ 0
  fits : c.inLen ≤ s.mboxSize c
  input : s.mboxInput c = some l

/-- A mailbox command has completed with a status and an output of a length. -/
def MboxDone (t : State) (status len : Nat) : Prop :=
  t.rd F.hfMboxStatus_status 0 = status ∧ t.rd F.hfMboxStatus_outLen 0 = len ∧ t.rd F.hfMboxStatus_busy 0 = 0
  ∧ t.rd F.hfMboxCmd_go 0 = 0

/-- The end of a mailbox command that ran up to state `s'` and answers OK with an output. -/
def State.mboxOkEnd (s : State) (c : MboxCall) (out : List Byte) (s' : State) : State :=
  s'.mboxEnd (s.mboxBuf c) c.outOk 0 out out.length

end Sys2Proof.Machine
end

