-- ==== Sys2Proof/Certificates/Slice0/Obligations.lean ====
section
/-! DEFINITION. The statements for the provers. -/

open Sys2Proof Sys2Proof.Machine

/-- A step takes the command at the front of the queue and runs it on the rest: whatever else the state holds, the step answers what
`exec` answers for that command, with only the commands behind it waiting. -/
def Obligations.StepRunsFrontCommand : Prop :=
  ∀ (c : Instr) (rest : List Instr) (s : State), s.pending = c :: rest → step s = exec c { s with pending := rest }

/-- With no command waiting one tick passes: the transfers that a revocation or their deadline met end, and the two clocks move, FT only while
the module has power and PERST_N is high (R271, R348, R350); with no such transfer nothing else moves. That an empty queue is a tick is the model's
own choice (log entry 1). -/
def Obligations.EmptyQueueTicks : Prop :=
  (∀ s : State, s.pending = [] → (∀ x ∈ s.transfers, x.rev = none) → ∃ t, step s = .next t ∧ t.up = s.up + 1
    ∧ t.ft = s.ft + (if s.board.powered = true ∧ s.board.perstN = true then 1 else 0) ∧ t.pending = [] ∧ t.regs = s.regs ∧ t.mem = s.mem
    ∧ t.bufs = s.bufs ∧ t.queues = s.queues ∧ t.gangs = s.gangs ∧ t.board = s.board ∧ t.reports = s.reports ∧ t.tallies = s.tallies)
  ∧ (∀ s : State, s.pending = [] → (∀ x ∈ s.transfers, ∀ y ∈ s.transfers, x.id = y.id → x = y) →
    ∃ t, step s = .next t ∧ t.up = s.up + 1 ∧ t.pending = []
      ∧ t.ft = s.ft + (if s.board.powered = true ∧ s.board.perstN = true then 1 else 0)
      ∧ t.transfers = s.transfers.filter (fun x => x.rev.isNone)
      ∧ t.gangs = s.gangs)

/-- Every step from every state whose board outputs follow its registers answers a next state whose board outputs follow them too:
ALERT_N the unmasked sources of HF_BOARD and recovery, THERM_N the thermal state, and HF_BOARD's read-only fields with them (R524,
Table 20-9); and no command, with whatever operands, ends in a fault or a refusal. -/
def Obligations.BoardOutputsFollow : Prop :=
  (∀ s : State, s.boardFollows → s.safeStep)
  ∧ ∀ (c : Instr) (s : State), ∃ t, exec c s = .next t ∧ t.boardFollows

/-- After reset the board outputs follow the registers, every store is empty and in its canonical form, no command waits, and every
field of every register reads as its Reset column says; CORE_ID shows the logical and the global number of its core (R11, R15,
Table 17-9). -/
def Obligations.ResetLeaves : Prop :=
  State.reset.boardFollows ∧ State.reset.canonical ∧ State.reset.pending = []
  ∧ (∀ (r : RegName) (f : Fld) (i : Nat), f ∈ r.flds → r ≠ .coreId → State.reset.rd f i = f.rst)
  ∧ ∀ g : CoreId, State.reset.rd F.coreId_logical g = g % 576 ∧ State.reset.rd F.coreId_global g = g
    ∧ State.reset.rd F.coreId_retired g = 0 ∧ State.reset.rd F.coreId_fenced g = 0

/-- A software write by access code, for every register and field: RW takes the value, a 1 clears a W1C bit and sets a W1S bit, RO, WO
and RC fields and reserved bits stand (Table 0-3, R8, R10). A read returns the register with WO fields as 0, and clears RC fields
alone. A command that writes a register without effects of its own leaves exactly that. -/
def Obligations.SoftwareAccessByCode : Prop :=
  (∀ (r : RegName) (f : Fld) (old v : Nat), f ∈ r.flds →
    bits (softWrite r old v) f.lo f.len
      = match f.acc with
        | .rw => bits v f.lo f.len
        | .w1c => bits old f.lo f.len &&& (2 ^ f.len - 1 - bits v f.lo f.len)
        | .w1s => bits old f.lo f.len ||| bits v f.lo f.len
        | .ro | .wo | .rc => bits old f.lo f.len)
  ∧ (∀ (r : RegName) (old v i : Nat), (∀ f ∈ r.flds, i < f.lo ∨ f.lo + f.len ≤ i) → (softWrite r old v).testBit i = old.testBit i)
  ∧ (∀ (r : RegName) (f : Fld) (w : Nat), f ∈ r.flds →
    bits (softRead r w) f.lo f.len = (if f.acc = .wo then 0 else bits w f.lo f.len)
    ∧ bits (afterRead r w) f.lo f.len = (if f.acc = .rc then 0 else bits w f.lo f.len))
  ∧ (∀ (f : Func) (off w i : Nat) (r : RegName) (v : Word64) (m : MboxGo) (s : State), breaksR7 off w = false → regAt off = some (r, i) →
    s.gate f r i true = .ok →
    r ∈ [RegName.qMember, .coreErrSticky, .coreVecFault, .partUpdS0, .partUpdL7, .partXltArg0, .partTallyBase, .partTallyCtrl,
         .partNetSticky, .partAssayCtrl, .partErrSticky, .cluClkSticky, .lampSticky, .hfLayoutSrc, .hfLayoutLen, .hfLayoutSwapFt,
         .hfVxCtrl, .hfHostErr, .hfHostErrlog, .hfMboxBuf, .hfPwrSticky, .hfErrSticky, .hfFtStatus] →
    ∃ t, exec (.registerWrite f off w ⟨v, m⟩) s = .next t ∧ t.reg r i = softWrite r (s.reg r i) (v.toNat % 2 ^ (8 * w)) % 2 ^ 64
      ∧ t.mem = s.mem ∧ t.queues = s.queues ∧ ∀ r' i', (r' ≠ r ∨ i' ≠ i) → r' ≠ .hfBoard → t.reg r' i' = s.reg r' i')

/-- The arithmetic counters of a core (Tables 2-7 to 2-9): each is advanced by what its operation counted and stops at 0xFFFF_FFFF,
and an RC read of the 64-bit register answers with both fields and clears them together (R61). -/
def Obligations.CountersSaturate : Prop :=
  (∀ (s : State) (g : Nat) (c : Counts),
    (s.counts g c).rd F.coreArithFtz_mmFtz g = min (s.rd F.coreArithFtz_mmFtz g + c.mmFtz) 0xFFFFFFFF
    ∧ (s.counts g c).rd F.coreArithFtz_updFtz g = min (s.rd F.coreArithFtz_updFtz g + c.updFtz) 0xFFFFFFFF
    ∧ (s.counts g c).rd F.coreArithConv_convSat g = min (s.rd F.coreArithConv_convSat g + c.sat) 0xFFFFFFFF
    ∧ (s.counts g c).rd F.coreArithConv_nanLost g = min (s.rd F.coreArithConv_nanLost g + c.lost) 0xFFFFFFFF
    ∧ (s.counts g c).rd F.coreArithQuant_zeroBlocks g = min (s.rd F.coreArithQuant_zeroBlocks g + c.zeroBlocks) 0xFFFFFFFF
    ∧ (s.counts g c).rd F.coreArithQuant_vanishedElems g = min (s.rd F.coreArithQuant_vanishedElems g + c.vanished) 0xFFFFFFFF)
  ∧ (∀ (f : Func) (off i : Nat) (r : RegName) (a b : Fld) (s : State), breaksR7 off 8 = false → regAt off = some (r, i) →
    s.gate f r i false = .ok →
    (r, a, b) ∈ [(RegName.coreArithFtz, F.coreArithFtz_mmFtz, F.coreArithFtz_updFtz),
                 (RegName.coreArithQuant, F.coreArithQuant_zeroBlocks, F.coreArithQuant_vanishedElems),
                 (RegName.coreArithConv, F.coreArithConv_convSat, F.coreArithConv_nanLost)] →
    ∃ t, exec (.registerRcRead f off 8) s = .next t ∧ t.rd a i = 0 ∧ t.rd b i = 0
      ∧ t.reply = some (.data (leBytes 8 (s.rd a i + s.rd b i * 2 ^ 32))) ∧ t.mem = s.mem
      ∧ ∀ r' i', (r' ≠ r ∨ i' ≠ i) → r' ≠ .hfBoard → t.reg r' i' = s.reg r' i')

/-- Sticky registers keep their value through every reset short of power loss (R11, R492): PERST_N low loses everything else but the
rails' state, while every register that is not sticky reads its Reset column, and the end of a core, cluster, partition or device
compute reset leaves every sticky register as it was. -/
def Obligations.StickyRegistersSurvive : Prop :=
  (∀ s : State, ∃ t, exec .perstAssert s = .next t ∧ t.board.perstN = false
    ∧ ∀ (r : RegName) (i : Nat), r.info.dom = .sticky → t.reg r i = s.reg r i)
  ∧ (∀ s : State, s.board.pgood = true → s.firstBoot = false → s.thermNow = false →
    ∃ t, exec .perstAssert s = .next t ∧ t.mem.cells = [] ∧ t.queues = [] ∧ t.gangs = []
      ∧ ∀ (r : RegName) (i : Nat), r.info.dom ≠ .sticky →
        r ∉ [RegName.hfPwrPart, .partPwrBank, .partPwrZone, .partPwrClu, .hfMboxStatus, .hfBoard] → t.reg r i = (regReset r i).toNat)
  ∧ (∀ (k : Nat) (s : State), ∃ t, exec (.resetComplete k) s = .next t
    ∧ ∀ (r : RegName) (i : Nat), r.info.dom = .sticky → t.reg r i = s.reg r i)

/-- A host write to memory and what a read of the same bytes then answers: through BAR2 and through CXL.mem, the bytes written; every
other byte, and the canonical form, stay, and the read changes no byte; what the merge of a partial sector corrects is counted in PART_MEM_CORR or
HBM_ECC (R171, R195, R401, R405). -/
def Obligations.HostWriteReadsBack : Prop :=
  (∀ (f : Func) (off d : Nat) (l : List Byte) (sec : Bool) (s : State), s.serves = true →
    s.bar2Locked f sec off l.length = false → l ≠ [] → (off + l.length - 1) / 512 = off / 512 → s.bar2Row f sec off = .ok d →
    s.mem.hurt (d / 512 * 512) 512 = false →
    ∃ t, exec (.bar2Write f off (l.map some) sec) s = .next t ∧ (∀ a, (a < d ∨ d + l.length ≤ a) → t.mem.rd a = s.mem.rd a)
      ∧ (s.mem.wf = true → t.mem.wf = true) ∧ t.bufs = s.bufs
      ∧ (∀ r i, r ≠ .hfBoard → r ≠ .partMemCorr → r ≠ .hbmEcc → t.reg r i = s.reg r i)
      ∧ ∃ u, exec (.bar2Read f off l.length sec) t = .next u ∧ u.reply = some (.data l) ∧ u.mem = t.mem)
  ∧ (∀ (hpa n : Nat) (l : List Byte) (sec : Bool) (s : State), s.serves = true → s.hdmLine hpa = some n → s.cmRefused sec = false →
    s.homeDark (64 * n) = false → l.length = 64 →
    ∃ t, exec (.cxlMemWrite hpa (l.map some) sec) s = .next t
      ∧ (∀ a, (a < 64 * n ∨ 64 * n + 64 ≤ a) → t.mem.rd a = s.mem.rd a) ∧ (s.mem.wf = true → t.mem.wf = true) ∧ t.bufs = s.bufs
      ∧ (∀ r i, r ≠ .hfBoard → t.reg r i = s.reg r i)
      ∧ ∃ u, exec (.cxlMemRead hpa .none sec) t = .next u ∧ u.reply = some (.data l) ∧ u.mem = t.mem)

/-- Tenancies are kept apart at the host's gate (R398): no virtual function gets through to a register of a partition outside its
tenancy, nor to a row of one through BAR2; an access turned away as outside its view is counted and logged, a read of it answers
zeros, and nothing else changes. -/
def Obligations.DeniedAccessChangesNothing : Prop :=
  (∀ (k : Fin 8) (r : RegName) (i p : Nat) (wr : Bool) (s : State), (regOwner r i).part = some p → s.vfHasPart k p = false →
    s.gate (.vf k) r i wr ≠ .ok)
  ∧ (∀ (k : Fin 8) (sec : Bool) (o d : Nat) (s : State), s.bar2Row (.vf k) sec o = .ok d → s.vfHasPart k (s.ownerOf d) = true)
  ∧ (∀ (f : Func) (off w i : Nat) (r : RegName) (v : Word64) (m : MboxGo) (s : State), breaksR7 off w = false → regAt off = some (r, i) →
    s.gate f r i true = .denied →
    ∃ t, exec (.registerWrite f off w ⟨v, m⟩) s = .next t ∧ t.reply = s.reply ∧ t.mem = s.mem ∧ t.bufs = s.bufs ∧ t.queues = s.queues
      ∧ t.rd F.hfHostErr_denied 0 = satAdd F.hfHostErr_denied.len (s.rd F.hfHostErr_denied 0) 1 ∧ t.rd F.hfHostErrlog_valid 0 = 1
      ∧ ∀ r' i', r' ∉ [RegName.hfHostErr, .hfHostErrlog, .hfBoard] → t.reg r' i' = s.reg r' i')
  ∧ (∀ (f : Func) (off w i : Nat) (r : RegName) (s : State), breaksR7 off w = false → regAt off = some (r, i) →
    s.gate f r i false = .denied →
    ∃ t, exec (.registerRcRead f off w) s = .next t ∧ t.reply = some (.data (leBytes w 0)) ∧ t.mem = s.mem ∧ t.bufs = s.bufs
      ∧ t.queues = s.queues ∧ t.rd F.hfHostErr_denied 0 = satAdd F.hfHostErr_denied.len (s.rd F.hfHostErr_denied 0) 1
      ∧ ∀ r' i', r' ∉ [RegName.hfHostErr, .hfHostErrlog, .hfBoard] → t.reg r' i' = s.reg r' i')

/-- Frames of the commands that only keep time, bring links up, manage or answer: in every state and with every operand each completes,
and changes no byte of memory, no buffer, no queue, no gang and no register but those named with it (R272 to R278, R287, R293, R326,
R330, R334, R337 to R341, R410, R414, R513, R517). -/
def Obligations.ControlEventFrames : Prop :=
  (∀ (u : Fin 296) (w : Word64), LeavesBut (.ftFrame u w) [.cluClkSticky])
  ∧ LeavesBut .ppsEdge [.hfFtStatus] ∧ LeavesBut .ppsTimeout [.hfFtStatus] ∧ LeavesBut .alignedTimeout [.hfFtStatus]
  ∧ LeavesBut .ppsOut []
  ∧ (∀ (p : PartId) (c : CluId), LeavesBut (.droopHoldEnd p c) [] ∧ LeavesBut (.voltageRampDone p c) []
    ∧ LeavesBut (.fchgDrainDone p c) [] ∧ LeavesBut (.fchgRelockDone p c) [])
  ∧ (∀ (p : PartId) (row : Fin 6), LeavesBut (.fchgStop p row) [])
  ∧ (∀ x : PortId, LeavesBut (.downWaitExpiry x) [.vxPortState, .hfVxStat] ∧ LeavesBut (.portTrained x) [.vxPortState, .hfVxStat]
    ∧ LeavesBut (.helloSend x) [] ∧ LeavesBut (.packetForward x) [.hfVxStat] ∧ LeavesBut (.classTSyncSend x) []
    ∧ LeavesBut (.flitPosition x) [.vxPortErr])
  ∧ (∀ (x : PortId) (chain : List Nat) (dst : Nat) (l : Lsa) (t1 : Nat) (fr : Fin 16), LeavesBut (.cert x chain) []
    ∧ LeavesBut (.lsa ⟨x, dst⟩ l) [.hfVxStat] ∧ LeavesBut (.classTSync x t1 fr) [])
  ∧ (∀ (p : PartId), LeavesBut (.slackReport p) [.partPwrSlack])
  ∧ (∀ (k : Nat), LeavesBut (.lsaExpiry k) [.hfVxStat])
  ∧ (∀ (l : BayId) (n : Fin 16) (bias power set : Nat) (temp : Int),
    LeavesBut (.laserBiasLimit l n bias power ⟨set, temp⟩) [.lampLaser0, .lampSticky, .lampState]
    ∧ LeavesBut (.lampHoursWrite l) [.lampLaser0, .lampLaser1, .lampSticky])
  ∧ (∀ (via : Fin 2) (a b c : Nat) (o : Bool) (i : Fin 256),
    LeavesBut (.getVersion via) [] ∧ LeavesBut (.getCapabilities via) [] ∧ LeavesBut (.negotiateAlgorithms via o) []
    ∧ LeavesBut (.getDigests via) [] ∧ LeavesBut (.getCertificate via a b c) []
    ∧ LeavesBut (.challenge via a b o) [.hfSecState, .hfErrSticky, .hfErrFirst, .hfErrFirstInfo]
    ∧ LeavesBut (.getMeasurements via i o b true) [.hfSecState]
    ∧ LeavesBut (.getMeasurements via i o b false) [.hfSecState, .hfErrSticky, .hfErrFirst, .hfErrFirstInfo]
    ∧ LeavesBut (.keyExchange via a b) [] ∧ LeavesBut (.finish via a) [.hfSecState] ∧ LeavesBut (.endSession via a) [.hfSecState]
    ∧ LeavesBut (.heartbeat via a) [])
  ∧ LeavesBut .queryDeviceIdentifiers [] ∧ LeavesBut .getFirmwareParameters [] ∧ LeavesBut .requestUpdate [] ∧ LeavesBut .cancelUpdate []
  ∧ (∀ (comps : List Nat) (c n : Nat), LeavesBut (.passComponentTable comps) [] ∧ LeavesBut (.updateComponent c n) [])
  ∧ (∀ (session : Nat) (stream : Fin 10) (key : List Nat), LeavesBut (.ideKm session stream key) [.hfHostIde]
    ∧ LeavesBut (.ideFailure stream) [.hfHostIde, .hfHostErrlog])
  ∧ (∀ (f : Func) (off w : Nat) (wr : Bool), LeavesBut (.bar0BadAccess f off w wr) [.hfHostErr, .hfHostErrlog]
    ∧ LeavesBut (.vfDenied f off w wr) [.hfHostErr, .hfHostErrlog] ∧ LeavesBut (.atomicopRequest f off) []
    ∧ LeavesBut (.vectorUnmask f w) [])
  ∧ LeavesBut .cdatRequest [] ∧ LeavesBut .doeDiscovery [] ∧ (∀ a : Nat, LeavesBut (.i3cDynamicAddress a) [])
  ∧ (∀ n : Fin 9, LeavesBut (.numvfsWrite n) [.hfHostLink])
  ∧ (∀ (rate width : Fin 4) (o : Bool), LeavesBut (.cxlLinkTrainingDone rate width o) [.hfHostLink])

/-- The reconvergence stack at its ends, and the end of a gang (R104): a push onto a full stack of 32 entries faults with VEC_STACK,
subcode 1, and a join on an empty one with subcode 2; the first fault is captured with its gang, lanes and instruction, and the
launch stops. The end instruction ends the gang whatever its execution mask and stack hold, and the launch completes with its last
gang and not before. -/
def Obligations.StackLimitsFault : Prop :=
  (∀ (g : CoreId) (n : GangId) (s : State) (w : Nat) (q : Gang) (la : Launch) (l : ILine), Issues s g n .brDiv w q la l →
    (q.stack.length = 32 ∧ (∀ e, q.stack.head? = some e → e.1 ≠ bits w 12 17 + 1)
      ∨ (q.stack.length = 32 ∨ q.stack.length = 31 ∧ (∀ e, q.stack.head? = some e → e.1 ≠ bits w 12 17 + 1))
        ∧ q.emask &&& q.predMask w ≠ 0 ∧ q.emask &&& (0xFFFF - q.predMask w) ≠ 0) →
    exec (.vBrDiv g n) s = .next (settle ((s.issued g la l (q.errsRead .brDiv w).length).vecFault g n 0x4A 1 q.emask 0)))
  ∧ (∀ (g : CoreId) (n : GangId) (s : State) (w : Nat) (q : Gang) (la : Launch) (l : ILine), Issues s g n .join w q la l →
    q.stack = [] → exec (.vJoin g n) s = .next (settle ((s.issued g la l (q.errsRead .join w).length).vecFault g n 0x4A 2 q.emask 0)))
  ∧ (∀ (g : CoreId) (n : GangId) (s : State) (q : Gang) (sub : Nat), rising s.gangs = true → s.gang g n = some q →
    s.flag F.coreVecFault_valid g = false → s.startedOf (unitEng g 1) q.launch = none →
    (s.vecFault g n 0x4A sub q.emask 0).rd F.coreVecFault_code g = 0x4A
    ∧ (s.vecFault g n 0x4A sub q.emask 0).rd F.coreVecFault_subcode g = sub % 256
    ∧ (s.vecFault g n 0x4A sub q.emask 0).rd F.coreVecFault_gang g = n
    ∧ (s.vecFault g n 0x4A sub q.emask 0).rd F.coreVecFault_lanes g = q.emask % 65536
    ∧ (s.vecFault g n 0x4A sub q.emask 0).rd F.coreVecFault_valid g = 1 ∧ (s.vecFault g n 0x4A sub q.emask 0).gang g n = none)
  ∧ (∀ (g : CoreId) (n : GangId) (s : State) (w : Nat) (q : Gang) (la : Launch) (l : ILine) (k : Nat) (q' : Gang),
    Issues s g n .fin w q la l → k ≠ n → k < 32 → s.gang g k = some q' → q'.launch = q.launch →
    ∃ t, exec (.vEnd g n) s = .next t ∧ t.gang g n = none ∧ t.launch g q.launch ≠ none
      ∧ t.rd F.coreVecAct_launches g = s.rd F.coreVecAct_launches g)
  ∧ (∀ (g : CoreId) (n : GangId) (s : State) (w : Nat) (q : Gang) (la : Launch) (l : ILine),
    Issues s g n .fin w q la l →
    (∀ e ∈ s.gangs, e.1 / 32 = g.val → e.2.launch = q.launch → e.1 = gangKey g n) →
    ∃ t, exec (.vEnd g n) s = .next t ∧ t.gang g n = none ∧ t.launch g q.launch = none
      ∧ t.rd F.coreVecAct_launches g = satAdd F.coreVecAct_launches.len (s.rd F.coreVecAct_launches g) 1
      ∧ ∀ x, s.startedOf (unitEng g 1) q.launch = some x → t.startedOf (unitEng g 1) q.launch = some { x with done := some (0, 0) })

/-- NOP, SYNC, JUMP and a row's fetch of every queue: what a started NOP or SYNC does, what a taken JUMP installs, and how a
fetch takes entries (R210, R211, R213, R214). -/
def Obligations.QueueOperationsComplete : Prop :=
  (∀ (q : QId) (s : State) (x : Started), s.oldest (qUnit q) 0x00 = some x →
    exec (.nop q) s = .next (settle (s.opDone (qUnit q) x.id)))
  ∧ (∀ (q : QId) (s : State) (x : Started), s.oldest (qUnit q) 0x02 = some x →
    bitAt x.e.cmd.w4 0 = true → bits x.e.cmd.w6 0 16 = 0 →
    exec (.sync q) s = .next (settle ((s.signal (qUnit q) x.id
      { part := bits x.e.cmd.w4 1 3, mark := bits x.e.cmd.w4 4 12, add := x.e.cmd.w5,
        stamp := max (s.queueFt (qUnit q)) x.at_, src := qUnit q }).opDone (qUnit q) x.id)))
  ∧ (∀ (q : QId) (s : State) (x : Started), s.oldest (qUnit q) 0x02 = some x →
    bitAt x.e.cmd.w4 0 = false → bits x.e.cmd.w6 0 16 ≠ 0 →
    exec (.sync q) s = .next (settle ((s.tallyAt (max (s.queueFt (qUnit q)) x.at_) (s.queuePart (qUnit q)) x.e.cmd.tallyRing
      (qUnit q) (bits x.e.cmd.w6 0 16) 0 x.e.cmd.w7 0).opDone (qUnit q) x.id)))
  ∧ (∀ (q : QId) (s : State) (x : Started), s.oldest (qUnit q) 0x02 = some x →
    bitAt x.e.cmd.w4 0 = false → bits x.e.cmd.w6 0 16 = 0 →
    exec (.sync q) s = .next (settle (s.opDone (qUnit q) x.id)))
  ∧ (∀ (q : QId) (s s1 : State) (x : Started), s.oldest (qUnit q) 0x02 = some x →
    bitAt x.e.cmd.w4 0 = true → bits x.e.cmd.w6 0 16 ≠ 0 →
    s1 = s.signal (qUnit q) x.id { part := bits x.e.cmd.w4 1 3, mark := bits x.e.cmd.w4 4 12, add := x.e.cmd.w5,
                                     stamp := max (s.queueFt (qUnit q)) x.at_, src := qUnit q } →
    exec (.sync q) s = .next (settle ((s1.tallyAt (max (s.queueFt (qUnit q)) x.at_) (s1.queuePart (qUnit q)) x.e.cmd.tallyRing
      (qUnit q) (bits x.e.cmd.w6 0 16) 0 x.e.cmd.w7 0).opDone (qUnit q) x.id)))
  ∧ (∀ (q : QId) (s : State) (e : Entry), s.queueUp (qUnit q) = true → (s.q (qUnit q)).jump = some e →
    s.qst (qUnit q) = 1 → jumpFieldBad e.cmd = false →
    ∃ t, exec (.jump q) s = .next t ∧ t.rd F.qBase_base (qUnit q) = bits e.cmd.w4 9 48
      ∧ t.rd F.qCtrl_sizeLog2 (qUnit q) = bits e.cmd.w5 0 5 ∧ t.rd F.qHead_head (qUnit q) = bits e.cmd.w5 5 16
      ∧ t.rd F.qCtrl_tag (qUnit q) = bits e.cmd.w5 37 16 ∧ (t.q (qUnit q)).jump = none
      ∧ t.rd F.qTail_tail (qUnit q)
          = (if s.flag F.qState_pendValid (qUnit q) && s.rd F.qTail_pendTag (qUnit q) == bits e.cmd.w5 37 16
             then s.rd F.qTail_pendTail (qUnit q) else bits e.cmd.w5 21 16)
      ∧ t.rd F.qState_pendValid (qUnit q) = 0)
  ∧ (∀ (q : QId) (s : State) (e : Entry), s.queueUp (qUnit q) = true → (s.q (qUnit q)).jump = some e →
    s.qst (qUnit q) = 1 → jumpFieldBad e.cmd = true →
    exec (.jump q) s = .next (settle (s.setQ (qUnit q)
      { s.q (qUnit q) with jump := none, waiting := (s.q (qUnit q)).waiting ++ [{ e with err := some (0x04, 0) }] })))
  ∧ (∀ (q : QId) (s s' : State) (d : Nat), s.queueUp (qUnit q) = true → s.qst (qUnit q) = 1 →
    s.benchMode (qUnit q) = false → (isBenchQ (qUnit q) = true → s.benchExists ((qUnit q - 18456) / 4) = true) →
    (s.q (qUnit q)).jump = none → (∀ e ∈ (s.q (qUnit q)).waiting, e.err = none) →
    s.rd F.qHead_head (qUnit q) ≠ s.rd F.qTail_tail (qUnit q) → (s.q (qUnit q)).waiting.length < 16 →
    s.xlat (tlbCore (qUnit q)) (s.queuePart (qUnit q)) (s.rd F.qCtrl_ctx (qUnit q))
      ((s.rd F.qBase_base (qUnit q) * 512 + 64 * s.rd F.qHead_head (qUnit q)) / 512 * 512) false = (.ok d, s') →
    s'.homeDark d = false → s'.nack (fetchCore (qUnit q)) d = none → (isCoreQ (qUnit q) = true → s'.rowHeld (qUnit q / 4) d true = false) →
    s'.heldByHost d false = [] → s'.mem.hurt d 512 = false → s'.snoopLost d = false → s'.sliceLost d = false →
    exec (.commandFetch q) s = .next (settle
      (let r := takeEntries (s'.mem.rdN d 512) (s.rd F.qTail_tail (qUnit q)) (2 ^ s.rd F.qCtrl_sizeLog2 (qUnit q))
        (s.rd F.qCtrl_tag (qUnit q)) (s.q (qUnit q)).gen 8 (s.rd F.qHead_head (qUnit q)) (s.q (qUnit q))
       (((s'.corr d 512).setQ (qUnit q) r.2).wr F.qHead_head (qUnit q) r.1).queueNotice (qUnit q)
         (r.2.waiting.drop (s.q (qUnit q)).waiting.length))))

/-- How a command leaves the head of its queue: it starts once its waits hold, ends with the status of its check or of its fetch, ends LATE
at its deadline, completes once its operation is over, or goes to every member of a bench (R219, R221, R223, R229). -/
def Obligations.CommandFlowCompletes : Prop :=
  (∀ (q : QId) (s : State) (e : Entry) (rest : List Entry), isBenchQ (qUnit q) = false → s.mayStart (qUnit q) = true →
    (s.q (qUnit q)).waiting = e :: rest → e.err = none → s.headCheck (qUnit q) e = 0 → e.own.cmd.opcode ≠ 0x60 →
    s.pastDeadline (qUnit q) e.cmd = false → (s.showWaits (qUnit q) e.own.cmd).markOk (qUnit q) e.own.cmd = true →
    (s.showWaits (qUnit q) e.own.cmd).gateOk (qUnit q) e.own.cmd = true →
    (s.showWaits (qUnit q) e.own.cmd).fenceOk (qUnit q) e.own.cmd = true →
    (s.showWaits (qUnit q) e.own.cmd).engineFree (qUnit q) e.own = true →
    exec (.commandStart q) s = .next (settle ((s.showWaits (qUnit q) e.own.cmd).startHead (qUnit q) e.own)))
  ∧ (∀ (q : QId) (s : State) (e : Entry) (rest : List Entry), isBenchQ (qUnit q) = false → s.mayStart (qUnit q) = true →
    (s.q (qUnit q)).waiting = e :: rest → e.err = none → s.headCheck (qUnit q) e ≠ 0 → s.pastDeadline (qUnit q) e.cmd = false →
    exec (.commandStart q) s = .next (settle (s.endHead (qUnit q) e (s.headCheck (qUnit q) e) 0)))
  ∧ (∀ (q : QId) (s : State) (e : Entry) (rest : List Entry) (st sub : Nat), isBenchQ (qUnit q) = false → s.mayStart (qUnit q) = true →
    (s.q (qUnit q)).waiting = e :: rest → e.err = some (st, sub) →
    exec (.commandStart q) s = .next (settle (s.endHead (qUnit q) e st sub)))
  ∧ (∀ (q : QId) (s : State) (e : Entry) (rest : List Entry), isBenchQ (qUnit q) = false → s.qst (qUnit q) = 1 →
    s.queueUp (qUnit q) = true → s.act.any (fun a => a.begun) = false → (s.q (qUnit q)).waiting = e :: rest → e.err = none →
    s.pastDeadline (qUnit q) e.cmd = true →
    exec (.late q) s = .next (settle (s.endHead (qUnit q) e.own 0x01 0 0
      (if isCoreQ (qUnit q) then s.expired (qUnit q / 4) e.cmd.w2 else none))))
  ∧ (∀ (q : QId) (s : State) (x : Started) (c sub : Nat), x.done = some (c, sub) →
    (isCoreQ (qUnit q) = true → s.runs (qUnit q / 4) = true) →
    (if isCoreQ (qUnit q) = true ∧ qUnit q % 4 = 1 then (s.q (qUnit q)).started.find? (fun y => y.done.isSome) = some x
     else (s.q (qUnit q)).started.head? = some x) →
    exec (.commandComplete q) s = .next (settle
      ((((s.dropStarted (qUnit q) x.id).complete (qUnit q) x.id x.e.forEnd x.at_ c sub).compareFor (qUnit q) x.id).flushHeld (qUnit q))))
  ∧ (∀ (b : BenchId) (e : Fin 4) (s : State) (x : Entry) (rest : List Entry), s.qst (unitBench b e) = 1 →
    s.benchExists b = true → s.ready = true → (s.q (unitBench b e)).waiting = x :: rest → x.err = none →
    (∀ g ∈ s.members b, s.coreInReset g = false) →
    (∀ g ∈ s.members b, s.benchMode (unitEng g e) = true ∧ (s.q (unitEng g e)).waiting.length < 16) →
    exec (.benchBroadcast b e) s = .next (settle
      (let s1 := (s.setQ (unitBench b e) { s.q (unitBench b e) with waiting := rest }).wr F.qState_creditWait (unitBench b e) 0
       (s.members b).foldl (fun (t : State) g => (t.setQ (unitEng g e)
         { t.q (unitEng g e) with waiting := (t.q (unitEng g e)).waiting
            ++ [{ x with bench := some { index := t.rd F.qBench_index (unitEng g e), ctxPart := s1.rd F.qCtrl_ctxPart (unitBench b e),
                                         ctx := s1.rd F.qCtrl_ctx (unitBench b e) },
                         stamp := s.ft, gen := (t.q (unitEng g e)).gen }] }).queueNotice (unitEng g e) [x]) s1)))

/-- The queue registers the host writes: run = 1 and run = 0, and TAIL (R215, R216). -/
def Obligations.QueueWritesComplete : Prop :=
  (∀ (f : Func) (q : QId) (v : Word64) (s : State), s.gate f .qCtrl (qUnit q) true = .ok → bitAt v.toNat 12 = true →
    s.qst (qUnit q) ≠ 1 → isBenchQ (qUnit q) = false → 3 ≤ bits v.toNat 6 5 → bits v.toNat 6 5 ≤ 16 → s.ready = true →
    (isCoreQ (qUnit q) = true → bitAt v.toNat 11 = true → s.flag F.qBench_member (qUnit q) = true) →
    ∃ t, exec (.queueRun f q v) s = .next t ∧ t.qst (qUnit q) = 1 ∧ t.rd F.qCtrl_run (qUnit q) = 1
      ∧ t.rd F.qCtrl_sizeLog2 (qUnit q) = bits v.toNat 6 5 ∧ t.rd F.qCtrl_tag (qUnit q) = bits v.toNat 32 16
      ∧ t.rd F.qCtrl_ctx (qUnit q) = bits v.toNat 0 6 ∧ t.rd F.qState_cfgErr (qUnit q) = 0 ∧ t.mem = s.mem)
  ∧ (∀ (f : Func) (b : BenchId) (e : EngId) (v : Word64) (s : State), s.gate f .qCtrl (unitBench b e) true = .ok →
    bitAt v.toNat 12 = true → s.qst (unitBench b e) ≠ 1 → 3 ≤ bits v.toNat 6 5 → bits v.toNat 6 5 ≤ 16 → s.ready = true →
    s.benchExists b = true → (∀ g ∈ s.members b, s.qst (unitEng g e) ≠ 2) →
    (∀ g ∈ s.members b, g < 4608) →
    ∃ t, exec (.queueRun f (.bench b e) v) s = .next t ∧ t.qst (unitBench b e) = 1 ∧ t.rd F.qCtrl_run (unitBench b e) = 1
      ∧ t.rd F.qCtrl_sizeLog2 (unitBench b e) = bits v.toNat 6 5 ∧ t.rd F.qMember_hvalid (unitBench b e) = 0 ∧ t.mem = s.mem)
  ∧ (∀ (f : Func) (q : QId) (v : Word64) (s : State), s.gate f .qCtrl (qUnit q) true = .ok → bitAt v.toNat 12 = true →
    s.qst (qUnit q) = 1 → exec (.queueRun f q v) s = .next (settle (s.wr F.qState_cfgErr (qUnit q) 0)))
  ∧ (∀ (f : Func) (q : QId) (v : Word64) (s : State), s.gate f .qCtrl (qUnit q) true = .ok → bitAt v.toNat 12 = true →
    s.qst (qUnit q) ≠ 1 → bits v.toNat 6 5 < 3 ∨ 16 < bits v.toNat 6 5 ∨ s.ready = false →
    ∃ t, exec (.queueRun f q v) s = .next t ∧ t.qst (qUnit q) = s.qst (qUnit q) ∧ t.rd F.qState_cfgErr (qUnit q) = 1)
  ∧ (∀ (f : Func) (q : QId) (v : Word64) (s : State), s.gate f .qCtrl (qUnit q) true = .ok → bitAt v.toNat 12 = false →
    s.qst (qUnit q) = 1 →
    ∃ t, exec (.queueStop f q v) s = .next t ∧ t = settle (((s.discard (qUnit q)).setQst (qUnit q) 0).clearWaits (qUnit q))
      ∧ t.qst (qUnit q) = 0 ∧ t.rd F.qCtrl_run (qUnit q) = 0)
  ∧ (∀ (f : Func) (q : QId) (v : Word64) (s : State), s.gate f .qCtrl (qUnit q) true = .ok → bitAt v.toNat 12 = false →
    s.qst (qUnit q) ≠ 1 →
    ∃ t, exec (.queueStop f q v) s = .next t ∧ t.qst (qUnit q) = 0 ∧ t.rd F.qCtrl_run (qUnit q) = 0
      ∧ t.rd F.qCtrl_sizeLog2 (qUnit q) = bits v.toNat 6 5 ∧ t.rd F.qCtrl_tag (qUnit q) = bits v.toNat 32 16)
  ∧ (∀ (f : Func) (q : QId) (v : Word64) (s : State), s.gate f .qTail (qUnit q) true = .ok →
    bits v.toNat 16 16 = s.rd F.qCtrl_tag (qUnit q) →
    exec (.tailWrite f q v) s = .next (settle ((s.wr F.qTail_tailTag (qUnit q) (bits v.toNat 16 16)).wr
      F.qTail_tail (qUnit q) (bits v.toNat 0 16))))
  ∧ (∀ (f : Func) (q : QId) (v : Word64) (s : State), s.gate f .qTail (qUnit q) true = .ok →
    bits v.toNat 16 16 ≠ s.rd F.qCtrl_tag (qUnit q) →
    ∃ t, exec (.tailWrite f q v) s = .next t ∧ t.rd F.qTail_pendTail (qUnit q) = bits v.toNat 0 16
      ∧ t.rd F.qTail_pendTag (qUnit q) = bits v.toNat 16 16 ∧ t.rd F.qState_pendValid (qUnit q) = 1
      ∧ t.rd F.qTail_tail (qUnit q) = s.rd F.qTail_tail (qUnit q))

/-- Marks (R227): 4,096 in each partition, each of 64 bits; a write sets, an add adds modulo 2^64, whether the host writes it or a
message brings it, and no other mark and no other register changes, nor a byte of memory; adds that arrive one after the other are all
applied, behind a write too. An add waits for what its source sent before it, and while its partition's transit domain holds.
Marks are 0 after a module reset and keep their values through every compute reset. -/
def Obligations.MarksAddModulo : Prop :=
  (∀ (f : Func) (p : PartId) (m : MarkId) (v : Word64) (s : State), s.gate f .partMark (markIdx p m) true = .ok →
    ∃ t, exec (.markWrite f p m v) s = .next t ∧ t.mark p m = v.toNat ∧ t.mem = s.mem ∧ t.queues = s.queues
      ∧ ∀ r i, (r ≠ .partMark ∨ i ≠ markIdx p m) → r ≠ .hfBoard → t.reg r i = s.reg r i)
  ∧ (∀ (f : Func) (p : PartId) (m : MarkId) (v : Word64) (s : State), s.gate f .partMarkAdd (markIdx p m) true = .ok →
    ∃ t, exec (.markAdd f p m v) s = .next t ∧ t.mark p m = (s.mark p m + v.toNat) % 2 ^ 64 ∧ t.mem = s.mem
      ∧ t.queues = s.queues ∧ ∀ r i, (r ≠ .partMark ∨ i ≠ markIdx p m) → r ≠ .hfBoard → t.reg r i = s.reg r i)
  ∧ (∀ (k : Nat) (s : State) (a : MarkAdd), s.adds[k]? = some a → s.sentBefore a.src a.num = false →
    s.transitHold.contains a.part = false →
    ∃ t, exec (.markAddArrive k) s = .next t ∧ t.mark a.part a.mark = (s.mark a.part a.mark + a.add) % 2 ^ 64
      ∧ t.adds = dropNth s.adds k ∧ t.mem = s.mem ∧ t.queues = s.queues
      ∧ ∀ r i, (r ≠ .partMark ∨ i ≠ markIdx a.part a.mark) → r ≠ .hfBoard → t.reg r i = s.reg r i)
  ∧ (∀ (k : Nat) (s : State) (a : MarkAdd), s.adds[k]? = some a → s.sentBefore a.src a.num = true ∨ s.transitHold.contains a.part = true →
    exec (.markAddArrive k) s = .next (settle s))
  ∧ (∀ (f : Func) (p : PartId) (m : MarkId) (v : Word64) (s t : State) (a : MarkAdd), s.gate f .partMark (markIdx p m) true = .ok →
    s.adds[0]? = some a → a.part = p → a.mark = m → s.sentBefore a.src a.num = false → s.transitHold.contains a.part = false →
    exec (.markWrite f p m v) s = .next t →
    ∃ u, exec (.markAddArrive 0) t = .next u ∧ u.mark p m = (v.toNat + a.add) % 2 ^ 64)
  ∧ (∀ s : State, s.board.pgood = true → s.firstBoot = false → s.thermNow = false →
    ∃ t, exec .perstAssert s = .next t ∧ ∀ (p : PartId) (m : MarkId), t.mark p m = 0)
  ∧ (∀ (k : Nat) (s : State), ∃ t, exec (.resetComplete k) s = .next t ∧ ∀ (p : PartId) (m : MarkId), t.mark p m = s.mark p m)

/-- Tallies: a record is written and then wr advances; a record for a ring that is not configured, is full or lies in a dark partition, or
of a dark partition, is lost and counted; a record waits for what its unit sent before it and for a host that holds its line; a write of rd
may raise the ring's source again (R231, R233, R236, R407, R415). -/
def Obligations.TalliesComplete : Prop :=
  (∀ (k : Nat) (s : State) (t : Tally) (base n d : Nat), s.tallies[k]? = some t → s.sentBefore t.unit t.num = false →
    s.transitHold.contains t.part = false → s.partDark t.part = false → s.tallyRing t.part t.ring = some (base, n) →
    s.tallyHeld (t.part * 8 + t.ring) < n →
    s.resolve (base + 32 * (s.rd F.partTallyWr_wr (t.part * 8 + t.ring) % n)) = some d → s.homeDark (d / 512 * 512) = false →
    s.sliceLost (d / 512 * 512) = false → s.snoopLost (d / 512 * 512) = false → s.heldByHost (d / 512 * 512) true = [] →
    ∃ u, exec (.tallyWrite k) s = .next u ∧ u.mem = s.mem.wrN d (s.tallyBytes t)
      ∧ (∀ a, a < d ∨ d + 32 ≤ a → u.mem.rd a = s.mem.rd a) ∧ u.tallies = dropNth s.tallies k
      ∧ u.rd F.partTallyWr_wr (t.part * 8 + t.ring) = (s.rd F.partTallyWr_wr (t.part * 8 + t.ring) + 1) % 2 ^ 32
      ∧ ∀ r i, (r ≠ .partTallyWr ∨ i ≠ t.part * 8 + t.ring) → r ≠ .hfBoard → u.reg r i = s.reg r i)
  ∧ (∀ (k : Nat) (s : State) (t : Tally), s.tallies[k]? = some t → s.sentBefore t.unit t.num = false →
    s.transitHold.contains t.part = false →
    (s.partDark t.part = true ∨ s.tallyRing t.part t.ring = none
      ∨ ∃ base n, s.tallyRing t.part t.ring = some (base, n) ∧ (n ≤ s.tallyHeld (t.part * 8 + t.ring)
        ∨ ∃ d, s.resolve (base + 32 * (s.rd F.partTallyWr_wr (t.part * 8 + t.ring) % n)) = some d
          ∧ (s.homeDark (d / 512 * 512) = true ∨ s.sliceLost (d / 512 * 512) = true ∨ s.snoopLost (d / 512 * 512) = true))) →
    ∃ u, exec (.tallyWrite k) s = .next u ∧ u.mem = s.mem ∧ u.tallies = dropNth s.tallies k
      ∧ u.rd F.partTallyWr_wr (t.part * 8 + t.ring) = s.rd F.partTallyWr_wr (t.part * 8 + t.ring)
      ∧ u.rd F.partTallyWr_lost (t.part * 8 + t.ring)
        = satAdd F.partTallyWr_lost.len (s.rd F.partTallyWr_lost (t.part * 8 + t.ring)) 1)
  ∧ (∀ (k : Nat) (s : State) (t : Tally), s.tallies[k]? = some t → s.sentBefore t.unit t.num = true ∨ s.transitHold.contains t.part = true →
    exec (.tallyWrite k) s = .next (settle s))
  ∧ (∀ (k : Nat) (s : State) (t : Tally) (base n d : Nat), s.tallies[k]? = some t → s.sentBefore t.unit t.num = false →
    s.transitHold.contains t.part = false → s.partDark t.part = false → s.tallyRing t.part t.ring = some (base, n) →
    s.tallyHeld (t.part * 8 + t.ring) < n →
    s.resolve (base + 32 * (s.rd F.partTallyWr_wr (t.part * 8 + t.ring) % n)) = some d → s.homeDark (d / 512 * 512) = false →
    s.sliceLost (d / 512 * 512) = false → s.snoopLost (d / 512 * 512) = false → s.heldByHost (d / 512 * 512) true ≠ [] →
    exec (.tallyWrite k) s = .next (settle (s.snoop (d / 512 * 512) true)))
  ∧ (∀ (f : Func) (p : PartId) (r : Fin 8) (v : Word64) (s : State),
    s.gate f .partTallyRd (p.val * 8 + r.val) true = .ok →
    exec (.tallyRdWrite f p r v) s = .next (settle
      (let t := s.setReg .partTallyRd (p.val * 8 + r.val) (softWrite .partTallyRd (s.reg .partTallyRd (p.val * 8 + r.val)) v.toNat)
       if t.atLevel (p.val * 8 + r.val) then t.raise (8 * p.val + r.val) else t)))

/-- Control instructions: each goes on where its rule says and changes nothing but its own gang (R103, R104, R134). -/
def Obligations.VectorControlCompletes : Prop :=
  (∀ (g : CoreId) (n : GangId) (s : State) (w : Nat) (q : Gang) (la : Launch) (l : ILine), Issues s g n .nop w q la l →
    ∃ t, exec (.vNop g n) s = .next t ∧ GoesTo s t g n q (q.pc + 1))
  ∧ (∀ (g : CoreId) (n : GangId) (s : State) (w : Nat) (q : Gang) (la : Launch) (l : ILine), Issues s g n .jmp w q la l →
    ∃ t, exec (.vJmp g n) s = .next t ∧ GoesTo s t g n q (bits w 32 17))
  ∧ (∀ (g : CoreId) (n : GangId) (s : State) (w : Nat) (q : Gang) (la : Launch) (l : ILine), Issues s g n .brAny w q la l →
    ∃ t, exec (.vBrAny g n) s = .next t ∧ GoesTo s t g n q (if q.emask &&& q.predMask w ≠ 0 then bits w 32 17 else q.pc + 1))
  ∧ (∀ (g : CoreId) (n : GangId) (s : State) (w : Nat) (q : Gang) (la : Launch) (l : ILine), Issues s g n .brAll w q la l →
    ∃ t, exec (.vBrAll g n) s = .next t
      ∧ GoesTo s t g n q (if q.emask &&& q.predMask w = q.emask then bits w 32 17 else q.pc + 1))
  ∧ (∀ (g : CoreId) (n : GangId) (s : State) (w : Nat) (q : Gang) (la : Launch) (l : ILine), Issues s g n .bz w q la l →
    ∃ t, exec (.vBz g n) s = .next t ∧ GoesTo s t g n q (if q.sreg (bits w 49 5) = 0 then bits w 32 17 else q.pc + 1))
  ∧ (∀ (g : CoreId) (n : GangId) (s : State) (w : Nat) (q : Gang) (la : Launch) (l : ILine), Issues s g n .bnz w q la l →
    ∃ t, exec (.vBnz g n) s = .next t ∧ GoesTo s t g n q (if q.sreg (bits w 49 5) = 0 then q.pc + 1 else bits w 32 17))
  ∧ (∀ (g : CoreId) (n : GangId) (s : State) (w : Nat) (q : Gang) (la : Launch) (l : ILine) (p m : Nat) (st : List (Nat × Nat)),
    Issues s g n .join w q la l → q.stack = (p, m) :: st →
    ∃ t, exec (.vJoin g n) s = .next t ∧ VecFrame s t g n
      ∧ t.gang g n = some { q with stack := st, emask := m, pc := p, wait := .run })
  ∧ (∀ (g : CoreId) (n : GangId) (s : State) (w yes no : Nat) (q : Gang) (la : Launch) (l : ILine) (st : List (Nat × Nat)),
    Issues s g n .brDiv w q la l →
    yes = q.emask &&& q.predMask w → no = q.emask &&& (0xFFFF - q.predMask w) →
    st = (if q.stack.head?.map (fun e => e.1) = some (bits w 12 17 + 1) then q.stack else (bits w 12 17 + 1, q.emask) :: q.stack) →
    st.length + (if yes = 0 ∨ no = 0 then 0 else 1) ≤ 32 →
    ∃ t, exec (.vBrDiv g n) s = .next t ∧ VecFrame s t g n
      ∧ t.gang g n = some
          (if yes = 0 then { q with stack := st, pc := q.pc + 1, wait := .run }
           else if no = 0 then { q with stack := st, pc := bits w 32 17, wait := .run }
           else { q with stack := (bits w 32 17, yes) :: st, emask := no, pc := q.pc + 1, wait := .run }))
  ∧ (∀ (g : CoreId) (n : GangId) (s : State) (w : Nat) (q : Gang) (la : Launch) (l : ILine), Issues s g n .fin w q la l →
    exec (.vEnd g n) s = .next (settle
      (let t := { s.issued g la l (q.errsRead .fin w).length with gangs := mdel (s.issued g la l (q.errsRead .fin w).length).gangs (gangKey g n) }
       if (t.liveGangs g q.launch).isEmpty then t.endLaunch g la.id else t)))

/-- Integer instructions: the result of each active lane, modulo the width of its type, and the frame (R92, R130, R133, R135). -/
def Obligations.VectorIntegerResults : Prop :=
  (∀ (g : CoreId) (n : GangId) (s : State) (w : Nat) (q : Gang) (la : Launch) (l : ILine), Issues s g n .iadd w q la l →
    ∃ t, exec (.vIadd g n) s = .next t ∧ LaneResult s t g n w q (vWide (vType w)) (fun k =>
      q.srcA w k + q.srcB w k))
  ∧ (∀ (g : CoreId) (n : GangId) (s : State) (w : Nat) (q : Gang) (la : Launch) (l : ILine), Issues s g n .isub w q la l →
    ∃ t, exec (.vIsub g n) s = .next t ∧ LaneResult s t g n w q (vWide (vType w)) (fun k =>
      (((q.srcA w k : Int) - q.srcB w k) % (2 ^ intW (vType w) : Nat)).toNat))
  ∧ (∀ (g : CoreId) (n : GangId) (s : State) (w : Nat) (q : Gang) (la : Launch) (l : ILine), Issues s g n .imul w q la l →
    ∃ t, exec (.vImul g n) s = .next t ∧ LaneResult s t g n w q (vWide (vType w)) (fun k =>
      q.srcA w k * q.srcB w k))
  ∧ (∀ (g : CoreId) (n : GangId) (s : State) (w : Nat) (q : Gang) (la : Launch) (l : ILine), Issues s g n .imulhi w q la l →
    ∃ t, exec (.vImulhi g n) s = .next t ∧ LaneResult s t g n w q (vWide (vType w)) (fun k =>
      ofSigned 32 (intVal (vType w) (q.srcA w k) * intVal (vType w) (q.srcB w k) / (2 ^ 32 : Nat))))
  ∧ (∀ (g : CoreId) (n : GangId) (s : State) (w : Nat) (q : Gang) (la : Launch) (l : ILine), Issues s g n .imin w q la l →
    ∃ t, exec (.vImin g n) s = .next t ∧ LaneResult s t g n w q (vWide (vType w)) (fun k =>
      if intVal (vType w) (q.srcA w k) ≤ intVal (vType w) (q.srcB w k) then q.srcA w k else q.srcB w k))
  ∧ (∀ (g : CoreId) (n : GangId) (s : State) (w : Nat) (q : Gang) (la : Launch) (l : ILine), Issues s g n .imax w q la l →
    ∃ t, exec (.vImax g n) s = .next t ∧ LaneResult s t g n w q (vWide (vType w)) (fun k =>
      if intVal (vType w) (q.srcA w k) ≤ intVal (vType w) (q.srcB w k) then q.srcB w k else q.srcA w k))
  ∧ (∀ (g : CoreId) (n : GangId) (s : State) (w : Nat) (q : Gang) (la : Launch) (l : ILine), Issues s g n .band w q la l →
    ∃ t, exec (.vAnd g n) s = .next t ∧ LaneResult s t g n w q (vWide (vType w)) (fun k =>
      q.srcA w k &&& q.srcB w k))
  ∧ (∀ (g : CoreId) (n : GangId) (s : State) (w : Nat) (q : Gang) (la : Launch) (l : ILine), Issues s g n .bor w q la l →
    ∃ t, exec (.vOr g n) s = .next t ∧ LaneResult s t g n w q (vWide (vType w)) (fun k =>
      q.srcA w k ||| q.srcB w k))
  ∧ (∀ (g : CoreId) (n : GangId) (s : State) (w : Nat) (q : Gang) (la : Launch) (l : ILine), Issues s g n .bxor w q la l →
    ∃ t, exec (.vXor g n) s = .next t ∧ LaneResult s t g n w q (vWide (vType w)) (fun k =>
      q.srcA w k ^^^ q.srcB w k))
  ∧ (∀ (g : CoreId) (n : GangId) (s : State) (w : Nat) (q : Gang) (la : Launch) (l : ILine), Issues s g n .shl w q la l →
    ∃ t, exec (.vShl g n) s = .next t ∧ LaneResult s t g n w q (vWide (vType w)) (fun k =>
      q.srcA w k * 2 ^ (q.srcB w k % intW (vType w))))
  ∧ (∀ (g : CoreId) (n : GangId) (s : State) (w : Nat) (q : Gang) (la : Launch) (l : ILine), Issues s g n .shr w q la l →
    ∃ t, exec (.vShr g n) s = .next t ∧ LaneResult s t g n w q (vWide (vType w)) (fun k =>
      q.srcA w k / 2 ^ (q.srcB w k % intW (vType w))))
  ∧ (∀ (g : CoreId) (n : GangId) (s : State) (w : Nat) (q : Gang) (la : Launch) (l : ILine), Issues s g n .sar w q la l →
    ∃ t, exec (.vSar g n) s = .next t ∧ LaneResult s t g n w q (vWide (vType w)) (fun k =>
      ofSigned (intW (vType w)) (signedOf (intW (vType w)) (q.srcA w k) / (2 ^ (q.srcB w k % intW (vType w)) : Nat))))
  ∧ (∀ (g : CoreId) (n : GangId) (s : State) (w : Nat) (q : Gang) (la : Launch) (l : ILine), Issues s g n .clz w q la l →
    ∃ t, exec (.vClz g n) s = .next t ∧ LaneResult s t g n w q (vWide (vType w)) (fun k =>
      if q.srcA w k = 0 then 32 else 31 - Nat.log2 (q.srcA w k)))
  ∧ (∀ (g : CoreId) (n : GangId) (s : State) (w : Nat) (q : Gang) (la : Launch) (l : ILine), Issues s g n .popc w q la l →
    ∃ t, exec (.vPopc g n) s = .next t ∧ LaneResult s t g n w q (vWide (vType w)) (fun k =>
      countBelow 32 (fun i => bitAt (q.srcA w k) i)))
  ∧ (∀ (g : CoreId) (n : GangId) (s : State) (w : Nat) (q : Gang) (la : Launch) (l : ILine), Issues s g n .sel w q la l →
    ∃ t, exec (.vSel g n) s = .next t ∧ LaneResult s t g n w q (vWide (vType w)) (fun k =>
      if bitAt (q.mask (vC w)) k then q.srcA w k else q.srcB w k))
  ∧ (∀ (g : CoreId) (n : GangId) (s : State) (w : Nat) (q : Gang) (la : Launch) (l : ILine), Issues s g n .icmp w q la l →
    ∃ t, exec (.vIcmp g n) s = .next t ∧ MaskResult s t g n w q (fun k =>
      intCond (bits w 56 3) (vType w) (q.srcA w k) (q.srcB w k)))

/-- Floating-point instructions: the exact result rounded once, of each active lane, and the frame (R45, R130, R132, R136). -/
def Obligations.VectorFloatResults : Prop :=
  (∀ (g : CoreId) (n : GangId) (s : State) (w : Nat) (q : Gang) (la : Launch) (l : ILine), Issues s g n .fadd w q la l →
    ∃ t, exec (.vFadd g n) s = .next t ∧ LaneResult s t g n w q (vWide (vType w)) (fun k =>
      fp3 (vType w) (fun a b _ => FVal.add a b) (q.fA w k) (q.fB w k) (0)))
  ∧ (∀ (g : CoreId) (n : GangId) (s : State) (w : Nat) (q : Gang) (la : Launch) (l : ILine), Issues s g n .fsub w q la l →
    ∃ t, exec (.vFsub g n) s = .next t ∧ LaneResult s t g n w q (vWide (vType w)) (fun k =>
      fp3 (vType w) (fun a b _ => FVal.add a (FVal.negate b)) (q.fA w k) (q.fB w k) (0)))
  ∧ (∀ (g : CoreId) (n : GangId) (s : State) (w : Nat) (q : Gang) (la : Launch) (l : ILine), Issues s g n .fmul w q la l →
    ∃ t, exec (.vFmul g n) s = .next t ∧ LaneResult s t g n w q (vWide (vType w)) (fun k =>
      fp3 (vType w) (fun a b _ => FVal.mul a b) (q.fA w k) (q.fB w k) (0)))
  ∧ (∀ (g : CoreId) (n : GangId) (s : State) (w : Nat) (q : Gang) (la : Launch) (l : ILine), Issues s g n .ffma w q la l →
    ∃ t, exec (.vFfma g n) s = .next t ∧ LaneResult s t g n w q (vWide (vType w)) (fun k =>
      fp3 (vType w) (fun a b c => FVal.add (FVal.mul a b) c) (q.fA w k) (q.fB w k) (q.fC w k)))
  ∧ (∀ (g : CoreId) (n : GangId) (s : State) (w : Nat) (q : Gang) (la : Launch) (l : ILine), Issues s g n .fmin w q la l →
    ∃ t, exec (.vFmin g n) s = .next t ∧ LaneResult s t g n w q (vWide (vType w)) (fun k =>
      fp3 (vType w) (fun a b _ => if a.isNan then b else if b.isNan then a else if FVal.below b a then b else a) (q.fA w k) (q.fB w k) (0)))
  ∧ (∀ (g : CoreId) (n : GangId) (s : State) (w : Nat) (q : Gang) (la : Launch) (l : ILine), Issues s g n .fmax w q la l →
    ∃ t, exec (.vFmax g n) s = .next t ∧ LaneResult s t g n w q (vWide (vType w)) (fun k =>
      fp3 (vType w) (fun a b _ => if a.isNan then b else if b.isNan then a else if FVal.below a b then b else a) (q.fA w k) (q.fB w k) (0)))
  ∧ (∀ (g : CoreId) (n : GangId) (s : State) (w : Nat) (q : Gang) (la : Launch) (l : ILine), Issues s g n .frnd w q la l →
    ∃ t, exec (.vFrnd g n) s = .next t ∧ LaneResult s t g n w q (vWide (vType w)) (fun k =>
      fp3 (vType w) (fun a _ _ => FVal.toIntegral ([RDir.near, .down, .up, .zero].getD (bits w 56 2) .near) a) (q.fA w k) 0 0))
  ∧ (∀ (g : CoreId) (n : GangId) (s : State) (w : Nat) (q : Gang) (la : Launch) (l : ILine), Issues s g n .fcmp w q la l →
    ∃ t, exec (.vFcmp g n) s = .next t ∧ MaskResult s t g n w q (fun k =>
      fpCond (bits w 56 3) ((fpFmt (vType w)).decode (q.fA w k)) ((fpFmt (vType w)).decode (q.fB w k))))

/-- Data movement: lane exchange, copies, immediates and one lane to a scalar (R142). -/
def Obligations.VectorMoveResults : Prop :=
  (∀ (g : CoreId) (n : GangId) (s : State) (w : Nat) (q : Gang) (la : Launch) (l : ILine), Issues s g n .shfl w q la l →
    ∃ t, exec (.vShfl g n) s = .next t ∧ LaneResult s t g n w q (vWide (vType w)) (fun k =>
      match shflLane (bits w 56 2) k (q.laneB w k) with
      | some j => if bitAt (q.active w) j then q.srcA w j else q.srcA w k
      | none => q.srcA w k))
  ∧ (∀ (g : CoreId) (n : GangId) (s : State) (w : Nat) (q : Gang) (la : Launch) (l : ILine), Issues s g n .mov w q la l →
    ∃ t, exec (.vMov g n) s = .next t ∧ LaneResult s t g n w q (vWide (vType w)) (fun k =>
      if bits w 56 8 = 0 then q.srcA w k else k))
  ∧ (∀ (g : CoreId) (n : GangId) (s : State) (w : Nat) (q : Gang) (la : Launch) (l : ILine), Issues s g n .movi w q la l →
    vSa w = false → ∃ t, exec (.vMovi g n) s = .next t ∧ LaneResult s t g n w q false (fun _ => bits w 32 32))
  ∧ (∀ (g : CoreId) (n : GangId) (s : State) (w : Nat) (q : Gang) (la : Launch) (l : ILine), Issues s g n .movi w q la l →
    vSa w = true → ∃ t, exec (.vMovi g n) s = .next t ∧ ScalarResult s t g n (vD w) q false (bits w 32 32))
  ∧ (∀ (g : CoreId) (n : GangId) (s : State) (w : Nat) (q : Gang) (la : Launch) (l : ILine), Issues s g n .vtos w q la l →
    q.laneB w 0 < 16 →
    ∃ t, exec (.vVtos g n) s = .next t ∧ ScalarResult s t g n (vD w) q (vWide (vType w)) (q.srcA w (q.laneB w 0)))

/-- Special functions: every active lane gets the function of its source, whose special results are those of Table 2-4 and whose
other values are free within their bound (R46, R143; the free values are the model's, log entry 24). -/
def Obligations.SpecialFunctionResults : Prop :=
  (∀ (g : CoreId) (n : GangId) (s : State) (w : Nat) (q : Gang) (la : Launch) (l : ILine), Issues s g n .exp2 w q la l →
    ∃ t, exec (.vExp2 g n) s = .next t ∧ LaneResult s t g n w q (vWide (vType w)) (fun k =>
      exp2Of (q.fA w k)))
  ∧ (∀ (g : CoreId) (n : GangId) (s : State) (w : Nat) (q : Gang) (la : Launch) (l : ILine), Issues s g n .log2 w q la l →
    ∃ t, exec (.vLog2 g n) s = .next t ∧ LaneResult s t g n w q (vWide (vType w)) (fun k =>
      log2Of (q.fA w k)))
  ∧ (∀ (g : CoreId) (n : GangId) (s : State) (w : Nat) (q : Gang) (la : Launch) (l : ILine), Issues s g n .rcp w q la l →
    ∃ t, exec (.vRcp g n) s = .next t ∧ LaneResult s t g n w q (vWide (vType w)) (fun k =>
      rcpOf (q.fA w k)))
  ∧ (∀ (g : CoreId) (n : GangId) (s : State) (w : Nat) (q : Gang) (la : Launch) (l : ILine), Issues s g n .rsq w q la l →
    ∃ t, exec (.vRsq g n) s = .next t ∧ LaneResult s t g n w q (vWide (vType w)) (fun k =>
      rsqOf (q.fA w k)))
  ∧ (∀ (g : CoreId) (n : GangId) (s : State) (w : Nat) (q : Gang) (la : Launch) (l : ILine), Issues s g n .sin w q la l →
    ∃ t, exec (.vSin g n) s = .next t ∧ LaneResult s t g n w q (vWide (vType w)) (fun k =>
      trigOf 0x44 (q.fA w k)))
  ∧ (∀ (g : CoreId) (n : GangId) (s : State) (w : Nat) (q : Gang) (la : Launch) (l : ILine), Issues s g n .cos w q la l →
    ∃ t, exec (.vCos g n) s = .next t ∧ LaneResult s t g n w q (vWide (vType w)) (fun k =>
      trigOf 0x45 (q.fA w k)))

/-- Conversions: cvt, mxpack and mxunpack write the converted elements of the active lanes and count what the conversions
clamped and lost (R44, R137 to R141). -/
def Obligations.VectorConvertCompletes : Prop :=
  (∀ (g : CoreId) (n : GangId) (s : State) (w : Nat) (q : Gang) (la : Launch) (l : ILine), Issues s g n .cvt w q la l →
    exec (.vCvt g n) s = .next (settle
      (((s.issued g la l (q.errsRead .cvt w).length).counts g (Counts.sum ((q.lanes w).map (fun k => (q.cvtLane w k).counts)))).advance g n
        (laneMap q w (cvtWidth (bits w 60 4) == 64) (fun k =>
          putBits (if bitAt w 55 then q.vread (cvtWidth (bits w 60 4) == 64) (vD w) k else 0)
            (bits w 56 3 * cvtWidth (bits w 60 4)) (cvtWidth (bits w 60 4)) (q.cvtLane w k).w)))))
  ∧ (∀ (g : CoreId) (n : GangId) (s : State) (w : Nat) (q : Gang) (la : Launch) (l : ILine), Issues s g n .mxpack w q la l →
    bitAt w 58 = true → bitAt w 59 = false →
    ∃ t q', exec (.vMxpack g n) s = .next t ∧ VecFrame s t g n ∧ t.gang g n = some q' ∧ Passed q q'
      ∧ q'.sreg (vC w) = ((mxOf (bits w 60 4)).quantise (q.mxInputs w)).scale % 2 ^ 32
      ∧ (∀ k, k < 16 → bitAt (q.active w) k = true → q'.vr (vD w) k
          = (((mxOf (bits w 60 4)).quantise (q.mxInputs w)).q.getD (2 * k) 0
              + ((mxOf (bits w 60 4)).quantise (q.mxInputs w)).q.getD (2 * k + 1) 0
                * 2 ^ (if mxOf (bits w 60 4) == .e2m1 then 4 else 8)) % 2 ^ 32))
  ∧ (∀ (g : CoreId) (n : GangId) (s : State) (w : Nat) (q : Gang) (la : Launch) (l : ILine) (b : MxBlock), Issues s g n .mxpack w q la l →
    b = (mxOf (bits w 60 4)).quantise (q.mxInputs w) →
    ∃ t q', exec (.vMxpack g n) s = .next t ∧ t.gang g n = some q' ∧ Passed q q' ∧ q'.sreg (vC w) = b.scale % 2 ^ 32
      ∧ t.mem = s.mem ∧ t.bufs = s.bufs ∧ t.queues = s.queues
      ∧ (∀ r k, k < 16 → (bitAt (q.active w) k = false ∨ (r ≠ vD w ∧ (bitAt w 59 = true → r ≠ vB w ∧ r ≠ vB w + 1))) → q'.vr r k = q.vr r k)
      ∧ ∀ k, k < 16 → bitAt (q.active w) k = true →
          ((bitAt w 59 = false ∨ (vD w ≠ vB w ∧ vD w ≠ vB w + 1)) →
            q'.vr (vD w) k = (b.q.getD (2 * k) 0 + b.q.getD (2 * k + 1) 0 * 2 ^ (if mxOf (bits w 60 4) == .e2m1 then 4 else 8)) % 2 ^ 32)
          ∧ (bitAt w 59 = true → ∀ e, e < 2 → q'.vr (vB w + e) k
              = (if b.scale == 255 then Fmt.fp32.nanBits
                 else Fmt.fp32.ieee (FVal.sub ((q.mxInputs w).getD (2 * k + e) .zero)
                   ((mxOf (bits w 60 4)).value b.scale (b.q.getD (2 * k + e) 0)))) % 2 ^ 32))
  ∧ (∀ (g : CoreId) (n : GangId) (s : State) (w : Nat) (q : Gang) (la : Launch) (l : ILine), Issues s g n .mxunpack w q la l →
    exec (.vMxunpack g n) s = .next (settle
      (((s.issued g la l (q.errsRead .mxunpack w).length).counts g (Counts.sum ((q.lanes w).map (fun k => (q.mxOutputs w k).1.counts.add (q.mxOutputs w k).2.counts)))).advance
        g n (laneMap q w true (fun k => (q.mxOutputs w k).1.w + (q.mxOutputs w k).2.w * 2 ^ 32)))))

/-- Row-stage elements: ld and st move the elements of the active lanes when every address is good, atom and atomcas apply in rising
order of lanes; a bad address, or an uncorrectable error in what is read, faults without any of it, and a store into a locked result
waits (R105 to R107, R120, R133, R144, R147, R459). -/
def Obligations.ElementAccessCompletes : Prop :=
  (∀ (g : CoreId) (n : GangId) (s : State) (w : Nat) (q : Gang) (la : Launch) (l : ILine), Issues s g n .ld w q la l →
    q.badLanes w = [] → (∀ k ∈ q.lanes w, s.bufs.hurt (stageBuf g + q.elemAddr w k) (vBytes w) = false) →
    ∃ t, exec (.vLd g n) s = .next t ∧ LaneResult s t g n w q (vWidth w == 3) (fun k =>
      if bitAt w 26 && decide (vBytes w < 4)
      then ofSigned 32 (signedOf (8 * vBytes w) (s.bufs.rdLE (stageBuf g + q.elemAddr w k) (vBytes w)))
      else s.bufs.rdLE (stageBuf g + q.elemAddr w k) (vBytes w)))
  ∧ (∀ (g : CoreId) (n : GangId) (s : State) (w : Nat) (q : Gang) (la : Launch) (l : ILine), Issues s g n .st w q la l →
    q.badLanes w = [] → (∀ k ∈ q.lanes w, s.lockedBuf (stageBuf g + q.elemAddr w k) (vBytes w) = false) →
    ∃ t, exec (.vSt g n) s = .next t ∧ t.gang g n = some { q with pc := q.pc + 1, wait := .run } ∧ t.mem = s.mem ∧ t.queues = s.queues
      ∧ t.bufs = (q.lanes w).foldl (fun b k => b.wrLE (stageBuf g + q.elemAddr w k) (vBytes w)
          (q.src (vSb w) (vWidth w == 3) (vB w) k)) s.bufs
      ∧ ∀ a, (∀ k ∈ q.lanes w, a < stageBuf g + q.elemAddr w k ∨ stageBuf g + q.elemAddr w k + vBytes w ≤ a) →
          t.bufs.rd a = s.bufs.rd a)
  ∧ (∀ (g : CoreId) (n : GangId) (s : State) (w : Nat) (q : Gang) (la : Launch) (l : ILine), Issues s g n .atom w q la l →
    q.badLanes w = [] → (∀ k ∈ q.lanes w, s.lockedBuf (stageBuf g + q.elemAddr w k) (vBytes w) = false
      ∧ s.bufs.hurt (stageBuf g + q.elemAddr w k) (vBytes w) = false) →
    ∃ t, exec (.vAtom g n) s = .next t ∧ t.mem = s.mem ∧ t.queues = s.queues
      ∧ (let r := s.atomLanes g w q (fun k old => atomOf (vType w) (vWidth w) old (q.src (vSb w) (vWidth w == 3) (vB w) k))
         t.bufs = r.2.bufs
         ∧ t.gang g n = some { r.1.foldl (fun x e => x.vwrite (vWidth w == 3) (vD w) e.1 e.2) q with pc := q.pc + 1, wait := .run })
      ∧ ∀ a, (∀ k ∈ q.lanes w, a < stageBuf g + q.elemAddr w k ∨ stageBuf g + q.elemAddr w k + vBytes w ≤ a) →
          t.bufs.rd a = s.bufs.rd a)
  ∧ (∀ (g : CoreId) (n : GangId) (s : State) (w : Nat) (q : Gang) (la : Launch) (l : ILine), Issues s g n .atomcas w q la l →
    q.badLanes w = [] → (∀ k ∈ q.lanes w, s.lockedBuf (stageBuf g + q.elemAddr w k) (vBytes w) = false
      ∧ s.bufs.hurt (stageBuf g + q.elemAddr w k) (vBytes w) = false) →
    ∃ t, exec (.vAtomcas g n) s = .next t ∧ t.mem = s.mem ∧ t.queues = s.queues
      ∧ (let r := s.atomLanes g w q (fun k old =>
          if old == q.vread (vWidth w == 3) (vC w) k then q.src (vSb w) (vWidth w == 3) (vB w) k else old)
         t.bufs = r.2.bufs
         ∧ t.gang g n = some { r.1.foldl (fun x e => x.vwrite (vWidth w == 3) (vD w) e.1 e.2) q with pc := q.pc + 1, wait := .run })
      ∧ ∀ a, (∀ k ∈ q.lanes w, a < stageBuf g + q.elemAddr w k ∨ stageBuf g + q.elemAddr w k + vBytes w ≤ a) →
          t.bufs.rd a = s.bufs.rd a)
  ∧ (∀ (g : CoreId) (n : GangId) (s : State) (w k : Nat) (q : Gang) (la : Launch) (l : ILine) (r : List Nat) (op : VOp) (c : Instr),
    (op, c) ∈ [(VOp.ld, Instr.vLd g n), (.st, .vSt g n), (.atom, .vAtom g n), (.atomcas, .vAtomcas g n)] →
    Issues s g n op w q la l → q.badLanes w = k :: r →
    exec c s = .next (settle ((s.issued g la l (q.errsRead op w).length).vecFault g n 0x49
      (if 131072 ≤ q.elemAddr w k then 1 else 2) ((k :: r).foldl (fun m j => putBits m j 1 1) 0) (q.elemAddr w k))))
  ∧ (∀ (g : CoreId) (n : GangId) (s : State) (w k : Nat) (q : Gang) (la : Launch) (l : ILine) (r : List Nat) (op : VOp) (c : Instr),
    (op, c) ∈ [(VOp.ld, Instr.vLd g n), (.atom, .vAtom g n), (.atomcas, .vAtomcas g n)] →
    Issues s g n op w q la l → q.badLanes w = [] →
    (∀ j ∈ q.lanes w, s.lockedBuf (stageBuf g + q.elemAddr w j) (vBytes w) = false) →
    (q.lanes w).filter (fun j => s.bufs.hurt (stageBuf g + q.elemAddr w j) (vBytes w)) = k :: r →
    exec c s = .next (settle (((s.issued g la l (q.errsRead op w).length).bufUnc g 1 (vOpcode w) (stageBuf g + q.elemAddr w k)).vecFault
      g n 0x4C 0 ((k :: r).foldl (fun m j => putBits m j 1 1) 0) 0)))
  ∧ (∀ (g : CoreId) (n : GangId) (s : State) (w k : Nat) (q : Gang) (la : Launch) (l : ILine) (op : VOp) (c : Instr),
    (op, c) ∈ [(VOp.st, Instr.vSt g n), (.atom, .vAtom g n), (.atomcas, .vAtomcas g n)] →
    Issues s g n op w q la l → q.badLanes w = [] → k ∈ q.lanes w →
    s.lockedBuf (stageBuf g + q.elemAddr w k) (vBytes w) = true →
    ∃ t, exec c s = .next t ∧ VecFrame s t g n ∧ t.gang g n = some { q with wait := .lock })

/-- Row and ring transfers: k rows move between core memory, or the claimed slot of a core-memory ring, and the row stage, and no other
byte changes; a ring slot read is EMPTY and a slot written is FULL afterwards. With no active lane nothing moves, rows out of range
fault, and a transfer waits for its slot in a blocking ring and faults in a strict one (R133, R145, R146, R178, R179). -/
def Obligations.RowTransfersComplete : Prop :=
  (∀ (g : CoreId) (n : GangId) (s : State) (w : Nat) (q : Gang) (la : Launch) (l : ILine), Issues s g n .rowld w q la l →
    q.active w ≠ 0 → q.stageRow w + vCount w ≤ 256 → q.memRow w + vCount w ≤ 3072 →
    s.lockedBuf (stageBuf g + 512 * q.stageRow w) (512 * vCount w) = false →
    s.mem.hurt (cmRow g (q.memRow w)) (512 * vCount w) = false →
    ∃ t, exec (.vRowld g n) s = .next t ∧ t.gang g n = some { q with pc := q.pc + 1, wait := .run } ∧ t.mem = s.mem
      ∧ t.bufs = s.bufs.wrN (stageBuf g + 512 * q.stageRow w) (s.mem.rdN (cmRow g (q.memRow w)) (512 * vCount w))
      ∧ ∀ a, (a < stageBuf g + 512 * q.stageRow w ∨ stageBuf g + 512 * q.stageRow w + 512 * vCount w ≤ a) →
          t.bufs.rd a = s.bufs.rd a)
  ∧ (∀ (g : CoreId) (n : GangId) (s : State) (w : Nat) (q : Gang) (la : Launch) (l : ILine), Issues s g n .rowst w q la l →
    q.active w ≠ 0 → q.stageRow w + vCount w ≤ 256 → q.memRow w + vCount w ≤ 3072 →
    s.lockedMem (cmRow g (q.memRow w)) (512 * vCount w) = false →
    s.bufs.hurt (stageBuf g + 512 * q.stageRow w) (512 * vCount w) = false →
    ∃ t, exec (.vRowst g n) s = .next t ∧ t.gang g n = some { q with pc := q.pc + 1, wait := .run } ∧ t.bufs = s.bufs
      ∧ t.mem = s.mem.wrN (cmRow g (q.memRow w)) (s.bufs.rdN (stageBuf g + 512 * q.stageRow w) (512 * vCount w))
      ∧ ∀ a, (a < cmRow g (q.memRow w) ∨ cmRow g (q.memRow w) + 512 * vCount w ≤ a) → t.mem.rd a = s.mem.rd a)
  ∧ (∀ (g : CoreId) (n : GangId) (s : State) (w i d : Nat) (q : Gang) (la : Launch) (l : ILine) (r : Ring),
    Issues s g n .ringrd w q la l → q.active w ≠ 0 → q.stageRow w + vCount w ≤ 256 →
    s.ringDef (partOf g) (q.memRow w) = some r → r.place ≠ 2 → vCount w ≤ r.slotRows → (s.fenced g = false ∨ s.ringCore r = some g.val) →
    (s.ringAsk r false (.gang g n) (s.ftCore g)).1 = .slot i → s.ringRow r i 0 = some d → s.nack g d = none → s.rowHeld g d true = false →
    s.lockedBuf (stageBuf g + 512 * q.stageRow w) (512 * vCount w) = false → s.mem.hurt d (512 * vCount w) = false →
    ∃ t, exec (.vRingrd g n) s = .next t ∧ t.gang g n = some { q with pc := q.pc + 1, wait := .run } ∧ t.mem = s.mem
      ∧ t.bufs = s.bufs.wrN (stageBuf g + 512 * q.stageRow w) (s.mem.rdN d (512 * vCount w))
      ∧ (t.ringSt r.part r.number).slot i = {})
  ∧ (∀ (g : CoreId) (n : GangId) (s : State) (w i d : Nat) (q : Gang) (la : Launch) (l : ILine) (r : Ring),
    Issues s g n .ringwr w q la l → q.active w ≠ 0 → q.stageRow w + vCount w ≤ 256 →
    s.ringDef (partOf g) (q.memRow w) = some r → r.place ≠ 2 → vCount w ≤ r.slotRows → (s.fenced g = false ∨ s.ringCore r = some g.val) →
    (s.ringAsk r true (.gang g n) (s.ftCore g)).1 = .slot i → s.ringRow r i 0 = some d → s.nack g d = none → s.rowHeld g d false = false →
    s.lockedMem d (512 * vCount w) = false → s.bufs.hurt (stageBuf g + 512 * q.stageRow w) (512 * vCount w) = false →
    ∃ t, exec (.vRingwr g n) s = .next t ∧ t.gang g n = some { q with pc := q.pc + 1, wait := .run } ∧ t.bufs = s.bufs
      ∧ t.mem = s.mem.wrN d (s.bufs.rdN (stageBuf g + 512 * q.stageRow w) (512 * vCount w))
      ∧ (t.ringSt r.part r.number).slot i = { full := true })
  ∧ (∀ (g : CoreId) (n : GangId) (s : State) (w : Nat) (q : Gang) (la : Launch) (l : ILine) (op : VOp) (c : Instr),
    (op, c) ∈ [(VOp.rowld, Instr.vRowld g n), (.rowst, .vRowst g n)] → Issues s g n op w q la l → q.active w = 0 →
    ∃ t, exec c s = .next t ∧ GoesTo s t g n q (q.pc + 1))
  ∧ (∀ (g : CoreId) (n : GangId) (s : State) (w : Nat) (q : Gang) (la : Launch) (l : ILine) (op : VOp) (c : Instr),
    (op, c) ∈ [(VOp.ringrd, Instr.vRingrd g n), (.ringwr, .vRingwr g n)] → Issues s g n op w q la l → q.active w = 0 →
    ∃ t, exec c s = .next t ∧ t.gang g n = some { q with pc := q.pc + 1, wait := .run } ∧ t.mem = s.mem ∧ t.bufs = s.bufs ∧ t.rings = s.rings)
  ∧ (∀ (g : CoreId) (n : GangId) (s : State) (w : Nat) (q : Gang) (la : Launch) (l : ILine) (op : VOp) (c : Instr),
    (op, c) ∈ [(VOp.rowld, Instr.vRowld g n), (.rowst, .vRowst g n)] → Issues s g n op w q la l → q.active w ≠ 0 →
    (256 < q.stageRow w + vCount w ∨ 3072 < q.memRow w + vCount w) →
    exec c s = .next (settle ((s.issued g la l (q.errsRead op w).length).vecFault g n 0x49
      (if 256 < q.stageRow w + vCount w then 4 else 3) (q.active w)
      (if 256 < q.stageRow w + vCount w then q.stageRow w else q.memRow w))))
  ∧ (∀ (g : CoreId) (n : GangId) (s : State) (w : Nat) (q : Gang) (la : Launch) (l : ILine) (r : Ring) (op : VOp) (c : Instr) (wr : Bool),
    (op, c, wr) ∈ [(VOp.ringrd, Instr.vRingrd g n, false), (.ringwr, .vRingwr g n, true)] → Issues s g n op w q la l → q.active w ≠ 0 →
    q.stageRow w + vCount w ≤ 256 → s.ringDef (partOf g) (q.memRow w) = some r → r.place ≠ 2 → vCount w ≤ r.slotRows →
    (s.fenced g = false ∨ s.ringCore r = some g.val) → (s.ringAsk r wr (.gang g n) (s.ftCore g)).1 = .wait →
    ∃ t, exec c s = .next t ∧ t.gang g n = some { q with wait := .ring } ∧ t.mem = s.mem ∧ t.bufs = s.bufs ∧ t.rings = s.rings
      ∧ t.ringWaits = (s.ringAsk r wr (.gang g n) (s.ftCore g)).2.ringWaits)
  ∧ (∀ (g : CoreId) (n : GangId) (s : State) (w : Nat) (q : Gang) (la : Launch) (l : ILine) (r : Ring) (op : VOp) (c : Instr) (wr : Bool),
    (op, c, wr) ∈ [(VOp.ringrd, Instr.vRingrd g n, false), (.ringwr, .vRingwr g n, true)] → Issues s g n op w q la l → q.active w ≠ 0 →
    q.stageRow w + vCount w ≤ 256 → s.ringDef (partOf g) (q.memRow w) = some r → r.place ≠ 2 → vCount w ≤ r.slotRows →
    (s.fenced g = false ∨ s.ringCore r = some g.val) → (s.ringAsk r wr (.gang g n) (s.ftCore g)).1 = .fault →
    exec c s = .next (settle (((s.issued g la l (q.errsRead op w).length).sampleKernel g la.id).vecFault g n 0x4E
      (if wr then 2 else 1) (q.active w) (q.stageRow w))))

/-- Scalar and mask instructions (R93, R94, R148). -/
def Obligations.ScalarMaskResults : Prop :=
  (∀ (g : CoreId) (n : GangId) (s : State) (w : Nat) (q : Gang) (la : Launch) (l : ILine), Issues s g n .salu w q la l →
    ∃ t, exec (.vSalu g n) s = .next t
      ∧ ScalarResult s t g n (vD w) q (vWide (vType w)) (saluOf (bits w 56 4) (vType w) (q.srcA w 0) (q.srcB w 0)))
  ∧ (∀ (g : CoreId) (n : GangId) (s : State) (w : Nat) (q : Gang) (la : Launch) (l : ILine), Issues s g n .scmp w q la l →
    ∃ t, exec (.vScmp g n) s = .next t
      ∧ ScalarResult s t g n (vD w) q false (if intCond (bits w 56 3) (vType w) (q.srcA w 0) (q.srcB w 0) then 1 else 0))
  ∧ (∀ (g : CoreId) (n : GangId) (s : State) (w : Nat) (q : Gang) (la : Launch) (l : ILine), Issues s g n .malu w q la l →
    ∃ t, exec (.vMalu g n) s = .next t ∧ VecFrame s t g n
      ∧ t.gang g n = some { q.setMask (vD w) (maluOf (bits w 56 3) (q.mask (vA w)) (q.mask (vB w))) with pc := q.pc + 1, wait := .run })
  ∧ (∀ (g : CoreId) (n : GangId) (s : State) (w : Nat) (q : Gang) (la : Launch) (l : ILine), Issues s g n .mtos w q la l →
    ∃ t, exec (.vMtos g n) s = .next t
      ∧ ScalarResult s t g n (vD w) q false (if bits w 56 2 = 0 then q.mask (vA w) else if bits w 56 2 = 1 then popCount 16 (q.mask (vA w))
          else if bits w 56 2 = 2 then (lowest 16 (fun i => bitAt (q.mask (vA w)) i)).getD 16 else q.emask))
  ∧ (∀ (g : CoreId) (n : GangId) (s : State) (w : Nat) (q : Gang) (la : Launch) (l : ILine), Issues s g n .stom w q la l →
    ∃ t, exec (.vStom g n) s = .next t ∧ VecFrame s t g n
      ∧ t.gang g n = some { q.setMask (vD w) (bits (q.sreg (vA w)) 0 16) with pc := q.pc + 1, wait := .run })

/-- Synchronisation: barriers, marks, fences, posted commands and the time (R101, R124, R149, R150, R191, R228). -/
def Obligations.VectorSyncCompletes : Prop :=
  (∀ (g : CoreId) (n : GangId) (s : State) (w : Nat) (q : Gang) (la : Launch) (l : ILine), Issues s g n .bar w q la l →
    ∃ t, exec (.vBar g n) s = .next t ∧ VecFrame s t g n ∧ t.gang g n = some { q with wait := .bar })
  ∧ (∀ (g : CoreId) (id : Nat) (s : State), (∀ e ∈ s.liveGangs g id, e.2.wait = .bar) →
    exec (.barrierRelease g id) s = .next (settle ((s.liveGangs g id).foldl (fun (s : State) e =>
      s.setGang g e.1 { e.2 with pc := e.2.pc + 1, wait := .run }) s)))
  ∧ (∀ (g : CoreId) (id : Nat) (s : State), (∃ e ∈ s.liveGangs g id, e.2.wait ≠ .bar) → exec (.barrierRelease g id) s = .next (settle s))
  ∧ (∀ (g : CoreId) (n : GangId) (s : State) (w : Nat) (q : Gang) (la : Launch) (l : ILine), Issues s g n .mwait w q la l →
    ∃ t, exec (.vMwait g n) s = .next t ∧ t.mem = s.mem ∧ t.bufs = s.bufs ∧ (∀ p m, t.mark p m = s.mark p m)
      ∧ t.gang g n = some (if q.sread true (bits w 12 5) ≤ s.mark (partOf g) (bits w 32 12) then { q with pc := q.pc + 1, wait := .run }
          else { q with wait := .mark (bits w 32 12) (q.sread true (bits w 12 5)) })
      ∧ (s.samples = [] → VecFrame s t g n))
  ∧ (∀ (g : CoreId) (n : GangId) (s : State) (q : Gang) (m v : Nat), s.gang g n = some q → q.wait = .mark m v →
    v ≤ s.mark (partOf g) m →
    ∃ t, exec (.mwaitSatisfied g n) s = .next t ∧ GoesTo s t g n q (q.pc + 1))
  ∧ (∀ (g : CoreId) (n : GangId) (s : State) (w : Nat) (q : Gang) (la : Launch) (l : ILine), Issues s g n .msig w q la l →
    exec (.vMsig g n) s = .next (settle
      (let s1 := (s.issued g la l (q.errsRead .msig w).length).sampleKernel g la.id
       (s1.setGang g n { q with pc := q.pc + 1, wait := .run }).signalNow (unitEng g 1) la.id
         { part := partOf g, mark := bits w 32 12, add := q.sread true (bits w 12 5), stamp := s1.ftCore g, src := unitEng g 1 })))
  ∧ (∀ (g : CoreId) (n : GangId) (s : State) (w : Nat) (q : Gang) (la : Launch) (l : ILine), Issues s g n .fence w q la l →
    bits w 44 3 < 4 → ∃ t, exec (.vFence g n) s = .next t ∧ GoesTo s t g n q (q.pc + 1) ∧ t.rdc = s.rdc)
  ∧ (∀ (g : CoreId) (n : GangId) (s : State) (w : Nat) (q : Gang) (la : Launch) (l : ILine), Issues s g n .fence w q la l →
    4 ≤ bits w 44 3 → ∃ t, exec (.vFence g n) s = .next t ∧ t.gang g n = some { q with pc := q.pc + 1, wait := .run } ∧ t.mem = s.mem
      ∧ t.rdc = (s.rdcInvalidate (partOf g)).rdc)
  ∧ (∀ (g : CoreId) (n : GangId) (s : State) (w a : Nat) (q : Gang) (la : Launch) (l : ILine), Issues s g n .post w q la l →
    q.emask ≠ 0 → a = bits w 47 17 + (if bitAt w 17 then q.sreg (bits w 12 5) else 0) → a ≤ 131008 → a % 64 = 0 →
    s.bufs.hurt (stageBuf g + a) 64 = false → s.benchMode (unitEng g 3) = false → (s.q (unitEng g 3)).waiting.length < 16 →
    ∃ t, exec (.vPost g n) s = .next t ∧ t.gang g n = some { q with pc := q.pc + 1, wait := .run } ∧ t.mem = s.mem ∧ t.bufs = s.bufs
      ∧ t.q (unitEng g 3) = { s.q (unitEng g 3) with waiting := (s.q (unitEng g 3)).waiting
          ++ [{ cmd := Cmd.ofBytes (s.bufs.rdN (stageBuf g + a) 64), index := s.rd F.qHead_head (unitEng g 3),
                tag := s.rd F.qCtrl_tag (unitEng g 3), gen := (s.q (unitEng g 3)).gen }] })
  ∧ (∀ (g : CoreId) (n : GangId) (s : State) (w a : Nat) (q : Gang) (la : Launch) (l : ILine), Issues s g n .post w q la l →
    q.emask ≠ 0 → a = bits w 47 17 + (if bitAt w 17 then q.sreg (bits w 12 5) else 0) → a ≤ 131008 → a % 64 = 0 →
    s.bufs.hurt (stageBuf g + a) 64 = false → (s.benchMode (unitEng g 3) = true ∨ 16 ≤ (s.q (unitEng g 3)).waiting.length) →
    ∃ t, exec (.vPost g n) s = .next t ∧ VecFrame s t g n ∧ t.gang g n = some { q with wait := .post (s.bufs.rdN (stageBuf g + a) 64) })
  ∧ (∀ (g : CoreId) (n : GangId) (s : State) (w : Nat) (q : Gang) (la : Launch) (l : ILine), Issues s g n .post w q la l →
    q.emask = 0 → ∃ t, exec (.vPost g n) s = .next t ∧ GoesTo s t g n q (q.pc + 1))
  ∧ (∀ (g : CoreId) (n : GangId) (s : State) (w a : Nat) (q : Gang) (la : Launch) (l : ILine), Issues s g n .post w q la l →
    q.emask ≠ 0 → a = bits w 47 17 + (if bitAt w 17 then q.sreg (bits w 12 5) else 0) → (131008 < a ∨ a % 64 ≠ 0) →
    exec (.vPost g n) s = .next (settle ((s.issued g la l (q.errsRead .post w).length).vecFault g n 0x49 (if 131008 < a then 1 else 2) q.emask a)))
  ∧ (∀ (g : CoreId) (n : GangId) (s : State) (q : Gang) (b : List Byte), s.gang g n = some q → q.wait = .post b →
    s.benchMode (unitEng g 3) = false → (s.q (unitEng g 3)).waiting.length < 16 →
    ∃ t, exec (.postAccepted g n) s = .next t ∧ t.gang g n = some { q with pc := q.pc + 1, wait := .run } ∧ t.mem = s.mem
      ∧ t.q (unitEng g 3) = { s.q (unitEng g 3) with waiting := (s.q (unitEng g 3)).waiting
          ++ [{ cmd := Cmd.ofBytes b, index := s.rd F.qHead_head (unitEng g 3),
                tag := s.rd F.qCtrl_tag (unitEng g 3), gen := (s.q (unitEng g 3)).gen }] })
  ∧ (∀ (g : CoreId) (n : GangId) (s : State) (w : Nat) (q : Gang) (la : Launch) (l : ILine), Issues s g n .rdft w q la l →
    ∃ t, exec (.vRdft g n) s = .next t ∧ ScalarResult s t g n (bits w 12 5) q true (s.ftCore g))

/-- Launches: VLAUNCH starts its gangs on the lowest free ones in the state of Table 4-1, with the argument row and the invalidation of
the cache where the command asks for them, VPREFETCH and ICACHE_FILL bring code lines, and a launch past its watchdog faults
(R109 to R117, R120). -/
def Obligations.LaunchesComplete : Prop :=
  (∀ (g : CoreId) (s : State) (x : Started) (free : List Nat) (args : List Nat) (va : Nat),
    (s.q (unitEng g 1)).started.find? (fun x => x.e.cmd.opcode == 0x40 && x.done.isNone && x.prog.ready && x.prog.src == 0) = some x →
    s.runs g = true → free = (List.range 32).filter (fun n => s.gangFree g n) → bits x.e.cmd.w4 17 6 ≤ free.length →
    (bitAt x.e.cmd.w4 26 = true → s.mem.hurt (cmRow g (bits x.e.cmd.w4 28 12)) 512 = false) →
    args = (if bitAt x.e.cmd.w4 26
        then (List.range 16).map (fun k => s.mem.rdLE (cmRow g (bits x.e.cmd.w4 28 12) + 4 * k) 4) else []) →
    va = (bits x.e.cmd.w5 0 57 + 8 * bits x.e.cmd.w4 0 17) / 512 * 512 →
    ∃ t, exec (.vlaunch g) s = .next t ∧ t.mem = s.mem ∧ t.bufs = s.bufs
      ∧ t.launches = s.launches ++ [{ core := g, id := x.id, code := bits x.e.cmd.w5 0 57,
                                      ctxPart := (s.cmdCtx (unitEng g 1) x.e).1, ctx := (s.cmdCtx (unitEng g 1) x.e).2,
                                      watchdog := bits x.e.cmd.w4 48 16 }]
      ∧ t.icache = (if bitAt x.e.cmd.w4 25 then s.icache.filter (fun l => l.core != g.val) else s.icache)
      ∧ (∀ i, i < bits x.e.cmd.w4 17 6 → t.gang g (free.getD i 0) = some
          { startGang g x.id x.e args i with
            wait := if bitAt x.e.cmd.w4 25 = false ∧ (s.iline g (s.cmdCtx (unitEng g 1) x.e).1 (s.cmdCtx (unitEng g 1) x.e).2 va).isSome
                    then .run else .line va })
      ∧ ∀ k, (∀ i, i < bits x.e.cmd.w4 17 6 → k ≠ gangKey g (free.getD i 0)) → mget t.gangs k = mget s.gangs k)
  ∧ (∀ (g : CoreId) (s : State) (x : Started),
    (s.q (unitEng g 1)).started.find? (fun x => x.e.cmd.opcode == 0x40 && x.done.isNone && x.prog.ready && x.prog.src == 0) = some x →
    s.runs g = true → bits x.e.cmd.w4 17 6 ≤ ((List.range 32).filter (fun n => s.gangFree g n)).length →
    bitAt x.e.cmd.w4 26 = true → s.mem.hurt (cmRow g (bits x.e.cmd.w4 28 12)) 512 = true →
    exec (.vlaunch g) s = .next (settle
      ((((s.inc F.coreVecAct_launches g).engUnc g 1 0x40 (cmRow g (bits x.e.cmd.w4 28 12))).vecCaptureOpen g).opFail
        (unitEng g 1) x 0x4C 0)))
  ∧ (∀ (g : CoreId) (s : State) (x : Started), s.oldest (unitEng g 1) 0x41 = some x → s.runs g = true →
    (s.prefetchLines g (s.cmdCtx (unitEng g 1) x.e).1 (s.cmdCtx (unitEng g 1) x.e).2 (bits x.e.cmd.w5 0 57)
      (bits x.e.cmd.w4 0 8) 0).1 = .all →
    exec (.vprefetch g) s = .next (settle ((s.prefetchLines g (s.cmdCtx (unitEng g 1) x.e).1 (s.cmdCtx (unitEng g 1) x.e).2
      (bits x.e.cmd.w5 0 57) (bits x.e.cmd.w4 0 8) 0).2.opDone (unitEng g 1) x.id)))
  ∧ (∀ (g : CoreId) (s : State) (x : Started), s.oldest (unitEng g 1) 0x41 = some x → s.runs g = true →
    (∀ i, i < bits x.e.cmd.w4 0 8 → (s.iline g (s.cmdCtx (unitEng g 1) x.e).1 (s.cmdCtx (unitEng g 1) x.e).2
      (bits x.e.cmd.w5 0 57 + 512 * i)).isSome) →
    exec (.vprefetch g) s = .next (settle (s.opDone (unitEng g 1) x.id)))
  ∧ (∀ (g : CoreId) (s : State) (x : Started), s.oldest (unitEng g 1) 0x41 = some x → s.runs g = true →
    (s.prefetchLines g (s.cmdCtx (unitEng g 1) x.e).1 (s.cmdCtx (unitEng g 1) x.e).2 (bits x.e.cmd.w5 0 57)
      (bits x.e.cmd.w4 0 8) 0).1 = .unc →
    exec (.vprefetch g) s = .next (settle (((s.prefetchLines g (s.cmdCtx (unitEng g 1) x.e).1 (s.cmdCtx (unitEng g 1) x.e).2
      (bits x.e.cmd.w5 0 57) (bits x.e.cmd.w4 0 8) 0).2.vecCaptureOpen g).opFail (unitEng g 1) x 0x4C 0)))
  ∧ (∀ (g : CoreId) (k : Nat) (s : State) (f : IFill) (l : ILine), (s.ifills.filter (fun f => f.core == g.val))[k]? = some f →
    (s.fetchLine g f.ctxPart f.ctx f.va).1 = .line l →
    exec (.icacheFill g k) s = .next (settle
      (let s1 := (s.fetchLine g f.ctxPart f.ctx f.va).2
       let t := ({ s1 with ifills := s1.ifills.filter (fun x => x != f) }).installLine l
       (t.gangs.filter (fun e => e.1 / 32 == g.val && e.2.wait == .line f.va
          && (match t.launch g e.2.launch with
              | some la => la.ctxPart == f.ctxPart && la.ctx == f.ctx
              | none => false))).foldl (fun (u : State) e => u.setGang g (e.1 % 32) { e.2 with wait := .run }) t)))
  ∧ (∀ (g : CoreId) (k : Nat) (s : State) (f : IFill), (s.ifills.filter (fun f => f.core == g.val))[k]? = some f →
    (s.fetchLine g f.ctxPart f.ctx f.va).1 = .bad →
    exec (.icacheFill g k) s = .next (settle
      (let s1 := (s.fetchLine g f.ctxPart f.ctx f.va).2
       let t := { s1 with ifills := s1.ifills.filter (fun x => x != f) }
       (t.gangs.filter (fun e => e.1 / 32 == g.val && e.2.wait == .line f.va
          && (match t.launch g e.2.launch with
              | some la => la.ctxPart == f.ctxPart && la.ctx == f.ctx
              | none => false))).foldl (fun (u : State) e => u.vecFault g (e.1 % 32) 0x4B 0 e.2.emask f.va) t)))
  ∧ (∀ (g : CoreId) (id t : Nat) (s : State) (la : Launch) (n : Nat) (q : Gang) (rest : List (Nat × Gang)),
    s.launch g id = some la → la.since = some t → s.liveGangs g la.id = (n, q) :: rest → la.watchdog ≠ 0 →
    t + 1024 * la.watchdog ≤ s.ftCore g → s.runs g = true →
    exec (.vecWatchdog g id) s = .next (settle (s.vecFault g n 0x4D 0 0 0 (s.expired g (t + 1024 * la.watchdog)))))
  ∧ (∀ (g : CoreId) (id : Nat) (s : State), (s.launch g id).any (s.overdue g) = false → exec (.vecWatchdog g id) s = .next (settle s))

/-- Matrix commands: MM runs its rounds on the positions that no earlier command holds back, and no memory changes; MM_LOAD fills
tiles from rows; MM_STORE writes its rows, or the ring slot it claims, which is FULL afterwards, and clears its tiles where asked
(R73 to R77, R83). -/
def Obligations.MatrixCommandsComplete : Prop :=
  (∀ (g : CoreId) (s : State) (x : Started) (m : MmCmd) (ks : List Nat),
    (s.q (unitEng g 0)).started.find? (fun x => x.e.cmd.opcode == 0x20 && x.done.isNone && x.prog.ready && !(s.mmOpen g x).isEmpty) = some x →
    m = MmCmd.of x.e.cmd → ks = s.mmOpen g x → s.runs g = true → (∀ k ∈ ks, s.lockedBuf (accWord g (m.tile k) 0) (1024 * m.w) = false) →
    s.mmHurt g m ks = none →
    ∃ t, exec (.mm g) s = .next t ∧ t.mem = s.mem
      ∧ t.bufs = (State.mmRounds (if m.accInit
          then ks.foldl (fun (s : State) k => { s with bufs := s.bufs.wrN (accWord g (m.tile k) 0) (List.replicate (1024 * m.w) 0) }) s
          else s) g m ks).bufs
      ∧ t.queues = (if ks = m.todo x.prog.did then s.opDone (unitEng g 0) x.id
          else s.modStarted (unitEng g 0) x.id (fun y => { y with prog := { y.prog with did := y.prog.did ++ ks } })).queues)
  ∧ (∀ (g : CoreId) (s : State) (x : Started) (acc fmt count row rows : Nat), s.oldest (unitEng g 0) 0x21 = some x →
    acc = bits x.e.cmd.w4 0 6 → fmt = bits x.e.cmd.w4 6 2 → count = bits x.e.cmd.w4 8 7 → row = bits x.e.cmd.w4 16 12 →
    rows = (if fmt == 0 then 2 * count else if fmt == 1 then count else ceilDiv count 8) → s.runs g = true →
    s.portWait g x.id = false → s.tileWait g x.id acc (acc + count) = false → s.lockedBuf (accWord g acc 0) (1024 * count) = false →
    s.mem.hurt (cmRow g row) (512 * rows) = false →
    ∃ t, exec (.mmLoad g) s = .next t ∧ t.mem = s.mem ∧ t.queues = (s.opDone (unitEng g 0) x.id).queues
      ∧ t.bufs = loop count (fun i b => b.wrN (accWord g (acc + i) 0) ((s.mmLoadTile g fmt row i).flatMap (leBytes 4))) s.bufs)
  ∧ (∀ (g : CoreId) (s : State) (x : Started) (acc fmt count dst : Nat), s.oldest (unitEng g 0) 0x22 = some x →
    acc = bits x.e.cmd.w4 0 6 → fmt = bits x.e.cmd.w4 8 4 → count = bits x.e.cmd.w4 12 7 → dst = bits x.e.cmd.w4 20 12 →
    s.runs g = true → s.portWait g x.id = false → s.tileWait g x.id acc (acc + count) = false →
    bitAt x.e.cmd.w4 19 = false → s.lockedMem (cmRow g dst) (512 * mmFoot fmt count) = false → s.badTile g acc count = none →
    ∃ t, exec (.mmStore g) s = .next t ∧ t.queues = (s.opDone (unitEng g 0) x.id).queues
      ∧ t.mem = (s.mmStoreGroups g fmt acc dst (count / mmGroup fmt) (bitAt x.e.cmd.w4 7) (bitAt x.e.cmd.w4 6)).mem
      ∧ t.bufs = (s.mmStoreGroups g fmt acc dst (count / mmGroup fmt) (bitAt x.e.cmd.w4 7) (bitAt x.e.cmd.w4 6)).bufs
      ∧ ∀ a, (a < cmRow g dst ∨ cmRow g (dst + mmGroupRows fmt * (count / mmGroup fmt)) ≤ a) → t.mem.rd a = s.mem.rd a)
  ∧ (∀ (g : CoreId) (s : State) (x : Started) (acc fmt count dst i : Nat) (r : Ring), s.oldest (unitEng g 0) 0x22 = some x →
    acc = bits x.e.cmd.w4 0 6 → fmt = bits x.e.cmd.w4 8 4 → count = bits x.e.cmd.w4 12 7 → dst = bits x.e.cmd.w4 20 12 →
    s.runs g = true → s.portWait g x.id = false → s.tileWait g x.id acc (acc + count) = false →
    bitAt x.e.cmd.w4 19 = true → s.ringDef (partOf g) dst = some r →
    (s.ringAsk r true (.cmd (unitEng g 0) x.id) (s.ftCore g)).1 = .slot i →
    s.lockedMem (cmRow g (r.first + i * r.slotRows)) (512 * mmFoot fmt count) = false → s.badTile g acc count = none →
    ∃ t, exec (.mmStore g) s = .next t ∧ t.queues = (s.opDone (unitEng g 0) x.id).queues
      ∧ t.mem = (s.mmStoreGroups g fmt acc (r.first + i * r.slotRows) (count / mmGroup fmt) (bitAt x.e.cmd.w4 7) (bitAt x.e.cmd.w4 6)).mem
      ∧ t.bufs = (s.mmStoreGroups g fmt acc (r.first + i * r.slotRows) (count / mmGroup fmt) (bitAt x.e.cmd.w4 7) (bitAt x.e.cmd.w4 6)).bufs
      ∧ (t.ringSt r.part r.number).slot i = { full := true })

/-- The update engine: UPD applies its recurrence group by group and writes only the rows it names; a commit is validated, takes
effect at its time, is adopted by every core and ends with its mark (R151, R156, R157, R161, R165). -/
def Obligations.UpdateEngineCompletes : Prop :=
  (∀ (g : CoreId) (s : State) (x : Started) (u : UpdCmd), s.oldest (unitEng g 2) 0x60 = some x → u = UpdCmd.of x.e.cmd →
    s.runs g = true → (∀ r ∈ u.writes, s.lockedMem (cmRow g r.1) (512 * r.2) = false) → updCheck x.e.cmd = 0 →
    (∀ j, j < u.count → ∀ k ∈ u.groupRows j, s.cmHurt g k = false) →
    ∃ t, exec (.upd g) s = .next t
      ∧ t.mem = (loop u.count (fun i (s' : State) => s'.updGroup g u (UpdRow.ofWords x.prog.words) i) s).mem ∧ t.bufs = s.bufs
      ∧ t.queues = (s.opDone (unitEng g 2) x.id).queues
      ∧ ∀ a, (∀ r ∈ u.writes, a < cmRow g r.1 ∨ cmRow g (r.1 + r.2) ≤ a) → t.mem.rd a = s.mem.rd a)
  ∧ (∀ (f : Func) (p : PartId) (v : Word64) (s s1 : State), s.gate f .partUpdCommit p true = .ok → bitAt v.toNat 16 = true →
    s.flag F.partUpdCommit_pending p = false →
    s1 = (s.softWr .partUpdCommit p v.toNat).wr F.partUpdCommit_go p (s.rd F.partUpdCommit_go p) →
    s1.rd F.partUpdCommit_rows p ≠ 0 →
    (∀ r ∈ rowsOf (s1.rd F.partUpdCommit_rows p), rowFault ((s1.wr F.partUpdCommit_go p 1).stagedRow p r) = 0) →
    ∃ t c, exec (.updCommitGo f p v) s = .next t ∧ t.rd F.partUpdCommit_go p = 1 ∧ t.rd F.partUpdCommit_pending p = 1
      ∧ t.rd F.partUpdCommit_status p = 0 ∧ mget t.updPend p = some c ∧ c.rows = s1.rd F.partUpdCommit_rows p ∧ t.mem = s.mem)
  ∧ (∀ (f : Func) (p : PartId) (v : Word64) (s s1 : State) (r : Nat), s.gate f .partUpdCommit p true = .ok →
    bitAt v.toNat 16 = true → s.flag F.partUpdCommit_pending p = false →
    s1 = (s.softWr .partUpdCommit p v.toNat).wr F.partUpdCommit_go p (s.rd F.partUpdCommit_go p) →
    (rowsOf (s1.rd F.partUpdCommit_rows p)).find? (fun k => rowFault ((s1.wr F.partUpdCommit_go p 1).stagedRow p k) != 0) = some r →
    ∃ t, exec (.updCommitGo f p v) s = .next t ∧ t.rd F.partUpdCommit_go p = 0 ∧ t.rd F.partUpdCommit_badRow p = r
      ∧ t.rd F.partUpdCommit_status p = rowFault ((s1.wr F.partUpdCommit_go p 1).stagedRow p r) ∧ t.updPend = s.updPend)
  ∧ (∀ (f : Func) (p : PartId) (v : Word64) (s s1 : State), s.gate f .partUpdCommit p true = .ok → bitAt v.toNat 16 = true →
    s.flag F.partUpdCommit_pending p = false →
    s1 = (s.softWr .partUpdCommit p v.toNat).wr F.partUpdCommit_go p (s.rd F.partUpdCommit_go p) → s1.rd F.partUpdCommit_rows p = 0 →
    ∃ t, exec (.updCommitGo f p v) s = .next t ∧ t.rd F.partUpdCommit_go p = 0 ∧ t.rd F.partUpdCommit_status p = 4 ∧ t.updPend = s.updPend)
  ∧ (∀ (p : PartId) (s : State) (c : UpdPend), mget s.updPend p = some c →
    (s.rd F.partUpdCommitFt_commitFt p = 0 ∨ s.rd F.partUpdCommitFt_commitFt p ≤ s.ftPart p) →
    ∃ t b, exec (.updCommitFt p) s = .next t ∧ mget t.updPend p = none ∧ mget t.upd p = some b ∧ b.rows = c.rows
      ∧ b.waiting = s.awaited p ∧ t.mem = s.mem
      ∧ ∀ r i, r ≠ .hfBoard → t.reg r i = (c.words.foldl (fun (s : State) e =>
          s.setReg (liveRegs.getD (e.1 % 8) .partUpdL0) (p * 16 + e.1 / 8) e.2) s).reg r i)
  ∧ (∀ (g : CoreId) (s : State) (b : UpdBcast), mget s.upd (partOf g) = some b → s.updIdle g = true →
    exec (.rowAdopt g) s = .next (settle
      { s with upd := mput s.upd (partOf g) { b with waiting := b.waiting.filter (fun h => h != g) } }))
  ∧ (∀ (p : PartId) (s : State) (b : UpdBcast), mget s.upd p = some b → (∀ g ∈ b.waiting, s.alive g = false) →
    ∃ t, exec (.updCommitComplete p) s = .next t ∧ t.rd F.partUpdCommit_pending p = 0 ∧ t.rd F.partUpdCommit_go p = 0
      ∧ mget t.upd p = none
      ∧ t.adds = s.adds ++ (if b.markEn then [{ part := p, mark := b.mark, add := 1, stamp := s.ftPart p, src := unitPart p, num := s.msgNext }] else []))
  ∧ (∀ (p : PartId) (s : State) (b : UpdBcast) (g : Nat), mget s.upd p = some b → g ∈ b.waiting → s.alive g = true →
    exec (.updCommitComplete p) s = .next (settle s))

/-- The mover and rings: a MOVE goes on row by row until it is over, waits or faults, a plain one-row MOVE within core memory writes the
row it read, a waiting access claims the slot of its turn or faults at its timeout, and a reset returns a ring to its start (R178 to
R186). -/
def Obligations.MoverAndRingsComplete : Prop :=
  (∀ (g : CoreId) (s : State) (x : Started) (m : MoveCmd) (r : MoveStep × Prog × State), s.oldest (unitEng g 3) 0x70 = some x →
    m = MoveCmd.of x.e → s.runs g = true →
    r = State.moveLoop (unitEng g 3) g (s.cmdCtx (unitEng g 3) x.e).1 (s.cmdCtx (unitEng g 3) x.e).2 x.id m
      (m.rows + 2 * m.dstRows + m.sclRows + 8) x.prog s →
    exec (.move g) s = .next (settle (match r.1 with
      | .over =>
        if r.2.2.unacked (unitEng g 3) x.id then r.2.2.modStarted (unitEng g 3) x.id (fun y => { y with prog := r.2.1 })
        else ((r.2.2.appendDone (partOf g) m r.2.1).modStarted (unitEng g 3) x.id
          (fun y => { y with prog := r.2.1 })).opDone (unitEng g 3) x.id
      | .fault st sub a => ((r.2.2.wr F.coreMovFaultAddr_addr g a).opFail (unitEng g 3) x st sub).repeated g
      | _ => r.2.2.modStarted (unitEng g 3) x.id (fun y => { y with prog := r.2.1 }))))
  ∧ (∀ (g : CoreId) (s : State) (x : Started) (m : MoveCmd) (l : List Byte), s.oldest (unitEng g 3) 0x70 = some x →
    m = MoveCmd.of x.e → s.runs g = true → m.srcKind = 0 → m.dstKind = 0 → m.cvt = false → m.mx = 0 → m.rows = 1 → m.append = false →
    x.prog = { ready := true } → l = s.mem.rdN (cmRow g m.src) 512 →
    (s.rowRead g (cmRow g m.src)).1 = .data l → (s.rowWrite g (cmRow g m.dst) l).1 = .done →
    s.classS g (cmRow g m.dst) = false → s.unsent (unitEng g 3) (cmRow g m.src) = false →
    s.unsent (unitEng g 3) (cmRow g m.dst) = false → s.unacked (unitEng g 3) x.id = false →
    ∃ t y, exec (.move g) s = .next t ∧ t.mem = s.mem.wrN (cmRow g m.dst) l ∧ t.bufs = s.bufs
      ∧ t.startedOf (unitEng g 3) x.id = some y ∧ y.done = some (0, 0))
  ∧ (∀ (k : Nat) (s : State) (w : RingWait) (r : Ring), s.ringWaits[k]? = some w → s.ringDef w.part w.ring = some r →
    w.slot = none → (∀ x ∈ s.ringWaits.take k, ¬ (x.part = w.part ∧ x.ring = w.ring ∧ x.write = w.write ∧ x.slot = none)) →
    (r.timeout = 0 ∨ s.whoFt w.who < w.since + r.timeout) →
    (∀ x ∈ s.ringResets, x ≠ (w.part, w.ring)) → (s.ringSt w.part w.ring).ok w.write = true →
    ∃ t, exec (.ringSlotClaim k) s = .next t
      ∧ t.ringWaits = setNth s.ringWaits k { w with slot := some ((s.ringSt w.part w.ring).claim r.slots w.write).1 }
      ∧ t.ringSt w.part w.ring = ((s.ringSt w.part w.ring).claim r.slots w.write).2 ∧ t.mem = s.mem ∧ t.bufs = s.bufs)
  ∧ (∀ (k u id : Nat) (s : State) (w : RingWait) (r : Ring) (x : Started), s.ringWaits[k]? = some w →
    s.ringDef w.part w.ring = some r → w.who = .cmd u id → w.slot = none → r.timeout ≠ 0 → w.since + r.timeout ≤ s.ftUnit u →
    s.clockStopped (cluIdx (u / 4)) = false → s.startedOf u id = some x →
    exec (.ringTimeout k) s = .next (settle
      (let s1 := { s with ringWaits := dropNth s.ringWaits k }
       if u % 4 = 0 then s1.opFail u x 0x38 (if w.write then 2 else 1) 0 (s.expired (u / 4) (w.since + r.timeout))
       else (s1.ringAddr.2.wr F.coreMovFaultAddr_addr (u / 4) s1.ringAddr.1).opFail u x 0x7A (if w.write then 2 else 1) 0
         (s.expired (u / 4) (w.since + r.timeout)))))
  ∧ (∀ (k g n : Nat) (s : State) (w : RingWait) (r : Ring) (q : Gang) (la : Launch) (l : ILine), s.ringWaits[k]? = some w →
    s.ringDef w.part w.ring = some r → w.who = .gang g n → w.slot = none → r.timeout ≠ 0 → w.since + r.timeout ≤ s.ftCore g →
    s.clockStopped (cluIdx g) = false → s.gang g n = some q → s.launch g q.launch = some la →
    s.iline g la.ctxPart la.ctx ((la.code + 8 * q.pc) / 512 * 512) = some l →
    exec (.ringTimeout k) s = .next (settle (State.vecFault { s with ringWaits := dropNth s.ringWaits k } g n 0x4E (if w.write then 2 else 1)
      (q.active (l.words.getD ((la.code + 8 * q.pc) % 512 / 8) 0)) (q.stageRow (l.words.getD ((la.code + 8 * q.pc) % 512 / 8) 0))
      (s.expired g (w.since + r.timeout)))))
  ∧ (∀ (f : Func) (p : PartId) (v : Word64) (s s1 : State), s.gate f .partRingReset p true = .ok → bitAt v.toNat 31 = true →
    s1 = s.softWr .partRingReset p v.toNat →
    ∃ t, exec (.ringReset f p v) s = .next t ∧ t.rd F.partRingReset_go p = 0
      ∧ t = settle ((s1.ringClear p (s1.rd F.partRingReset_ring p)).wr F.partRingReset_go p 0))

/-- Translation requests: a context or sequence slot is allocated at the lowest free number, freed, or given a length; no instruction line
of a context allocated or freed stays. Each request answers with its status and clears go, and one that fails changes neither table (R116,
R204, R206, R207). -/
def Obligations.TranslationRequestsComplete : Prop :=
  (∀ (f : Func) (p : PartId) (v : Word64) (s : State) (i k root : Nat), i = xltCopy f p →
    s.gate f .partXltReq i true = .ok → bitAt v.toNat 3 = true → bits v.toNat 0 3 = 1 → s.flag F.partXltReq_go i = false →
    root = s.rd F.partXltArg0_root i → root % 4096 = 0 → (s.softWr .partXltReq i v.toNat).xltReach p i root = true →
    firstFree s.ctxs p 64 = some k →
    ∃ t, exec (.ctxAlloc f p v) s = .next t ∧ t.ctxs = mput s.ctxs (p * 64 + k) root ∧ t.rd F.partXltReq_number i = k
      ∧ t.rd F.partXltReq_status i = 0 ∧ t.rd F.partXltReq_go i = 0 ∧ t.mem = s.mem ∧ t.seqSlots = s.seqSlots
      ∧ ∀ l ∈ t.icache, l ∈ s.icache ∧ ¬ (l.ctxPart = p ∧ l.ctx = k))
  ∧ (∀ (f : Func) (p : PartId) (v : Word64) (s : State) (i : Nat), i = xltCopy f p →
    s.gate f .partXltReq i true = .ok → bitAt v.toNat 3 = true → bits v.toNat 0 3 = 2 → s.flag F.partXltReq_go i = false →
    (mget s.ctxs (p * 64 + (s.softWr .partXltReq i v.toNat).rd F.partXltReq_number i)).isSome = true →
    (s.softWr .partXltReq i v.toNat).ctxUsed p ((s.softWr .partXltReq i v.toNat).rd F.partXltReq_number i) = false →
    ∃ t, exec (.ctxFree f p v) s = .next t
      ∧ t.ctxs = mdel s.ctxs (p * 64 + (s.softWr .partXltReq i v.toNat).rd F.partXltReq_number i)
      ∧ t.rd F.partXltReq_status i = 0 ∧ t.rd F.partXltReq_go i = 0 ∧ t.mem = s.mem ∧ t.seqSlots = s.seqSlots
      ∧ ∀ l ∈ t.icache, l ∈ s.icache ∧ ¬ (l.ctxPart = p ∧ l.ctx = (s.softWr .partXltReq i v.toNat).rd F.partXltReq_number i))
  ∧ (∀ (f : Func) (p : PartId) (v : Word64) (s : State) (i k root cap sh tb : Nat), i = xltCopy f p →
    s.gate f .partXltReq i true = .ok → bitAt v.toNat 3 = true → bits v.toNat 0 3 = 3 → s.flag F.partXltReq_go i = false →
    root = s.rd F.partXltArg0_root i → cap = s.rd F.partXltArg1_capacity i → sh = s.rd F.partXltArg1_pageShift i →
    tb = (s.rd F.partXltArg1_tokenRowsM1 i + 1) * 512 → root % 8 = 0 →
    (s.softWr .partXltReq i v.toNat).xltReach p i root = true → cap ≠ 0 → cap ≤ 2 ^ 20 → 12 ≤ sh → sh ≤ 21 →
    firstFree s.seqSlots p 32 = some k →
    ∃ t, exec (.seqAlloc f p v) s = .next t
      ∧ t.seqSlots = mput s.seqSlots (p * 32 + k) { root := root, capacity := cap, pageShift := sh, tokenBytes := tb, append := 0 }
      ∧ t.rd F.partSeqLen_length (p * 32 + k) = 0 ∧ t.rd F.partSeqLen_allocated (p * 32 + k) = 1
      ∧ t.rd F.partXltReq_number i = k ∧ t.rd F.partXltReq_status i = 0 ∧ t.rd F.partXltReq_go i = 0 ∧ t.ctxs = s.ctxs)
  ∧ (∀ (f : Func) (p : PartId) (v : Word64) (s : State) (i num : Nat), i = xltCopy f p →
    s.gate f .partXltReq i true = .ok → bitAt v.toNat 3 = true → bits v.toNat 0 3 = 4 → s.flag F.partXltReq_go i = false →
    num = (s.softWr .partXltReq i v.toNat).rd F.partXltReq_number i → num < 32 → (s.seqSlot p num).isSome = true →
    ∃ t, exec (.seqFree f p v) s = .next t ∧ t.seqSlots = mdel s.seqSlots (p * 32 + num)
      ∧ t.rd F.partSeqLen_length (p * 32 + num) = 0 ∧ t.rd F.partSeqLen_allocated (p * 32 + num) = 0
      ∧ t.rd F.partXltReq_status i = 0 ∧ t.rd F.partXltReq_go i = 0 ∧ t.ctxs = s.ctxs)
  ∧ (∀ (f : Func) (p : PartId) (v : Word64) (s : State) (i num : Nat) (q : SeqSlot), i = xltCopy f p →
    s.gate f .partXltReq i true = .ok → bitAt v.toNat 3 = true → bits v.toNat 0 3 = 5 → s.flag F.partXltReq_go i = false →
    num = (s.softWr .partXltReq i v.toNat).rd F.partXltReq_number i → num < 32 → s.seqSlot p num = some q →
    ∃ t, exec (.seqSetLen f p v) s = .next t
      ∧ t.seqSlots = mput s.seqSlots (p * 32 + num) { q with append := s.rd F.partXltArg1_length i, ranges := [] }
      ∧ t.rd F.partSeqLen_length (p * 32 + num) = s.rd F.partXltArg1_length i
      ∧ t.rd F.partXltReq_status i = 0 ∧ t.rd F.partXltReq_go i = 0 ∧ t.ctxs = s.ctxs)
  ∧ (∀ (f : Func) (p : PartId) (v : Word64) (s : State) (i : Nat), i = xltCopy f p →
    s.gate f .partXltReq i true = .ok → bitAt v.toNat 3 = true → (bits v.toNat 0 3 = 0 ∨ 6 ≤ bits v.toNat 0 3) →
    s.flag F.partXltReq_go i = false →
    ∃ t, exec (.xltReqBadOp f p v) s = .next t ∧ t.rd F.partXltReq_status i = 4 ∧ t.rd F.partXltReq_go i = 0
      ∧ t.ctxs = s.ctxs ∧ t.seqSlots = s.seqSlots)
  ∧ (∀ (f : Func) (p : PartId) (v : Word64) (s s1 : State) (c : Instr) (i num root cap sh st : Nat), i = xltCopy f p →
    s.gate f .partXltReq i true = .ok → bitAt v.toNat 3 = true → s.flag F.partXltReq_go i = false → s1 = s.softWr .partXltReq i v.toNat →
    num = s1.rd F.partXltReq_number i → root = s.rd F.partXltArg0_root i → cap = s.rd F.partXltArg1_capacity i →
    sh = s.rd F.partXltArg1_pageShift i →
    (c = .ctxAlloc f p v ∧ bits v.toNat 0 3 = 1 ∧
        ((root % 4096 ≠ 0 ∨ s1.xltReach p i root = false) ∧ st = 4
          ∨ root % 4096 = 0 ∧ s1.xltReach p i root = true ∧ firstFree s.ctxs p 64 = none ∧ st = 1)
      ∨ c = .ctxFree f p v ∧ bits v.toNat 0 3 = 2 ∧
        (mget s.ctxs (p * 64 + num) = none ∧ st = 5 ∨ (mget s.ctxs (p * 64 + num)).isSome = true ∧ s1.ctxUsed p num = true ∧ st = 3)
      ∨ c = .seqAlloc f p v ∧ bits v.toNat 0 3 = 3 ∧
        ((root % 8 ≠ 0 ∨ s1.xltReach p i root = false ∨ cap = 0 ∨ 2 ^ 20 < cap ∨ sh < 12 ∨ 21 < sh) ∧ st = 4
          ∨ root % 8 = 0 ∧ s1.xltReach p i root = true ∧ cap ≠ 0 ∧ cap ≤ 2 ^ 20 ∧ 12 ≤ sh ∧ sh ≤ 21 ∧ firstFree s.seqSlots p 32 = none ∧ st = 2)
      ∨ (c = .seqFree f p v ∧ bits v.toNat 0 3 = 4 ∨ c = .seqSetLen f p v ∧ bits v.toNat 0 3 = 5)
        ∧ (32 ≤ num ∨ s.seqSlot p num = none) ∧ st = 5) →
    ∃ t, exec c s = .next t ∧ t.rd F.partXltReq_status i = st ∧ t.rd F.partXltReq_go i = 0 ∧ t.ctxs = s.ctxs ∧ t.seqSlots = s.seqSlots
      ∧ t.mem = s.mem)

/-- Invalidations, sequence lengths, fills of the remote-data cache and the patrol scrub (R190, R191, R196, R199, R202, R206). -/
def Obligations.TranslationEventsComplete : Prop :=
  (∀ (f : Func) (p : PartId) (v : Word64) (s : State), s.gate f .partXltInv p true = .ok → bitAt v.toNat 7 = true →
    s.flag F.partXltInv_go p = false →
    ∃ t, exec (.xltInv f p v) s = .next t ∧ t.rd F.partXltInv_go p = 1
      ∧ t.xltInv = s.xltInv ++ [{ part := p, all := bitAt v.toNat 6, ctx := bits v.toNat 0 6 }] ∧ t.tlb = s.tlb)
  ∧ (∀ (p : PartId) (s : State) (x : XltInv), s.xltInv.find? (fun x => x.part == p.val) = some x →
    ∃ t, exec (.xltInvComplete p) s = .next t ∧ t.rd F.partXltInv_go p = 0
      ∧ (∀ e ∈ t.tlb, e ∈ s.tlb ∧ ¬ (e.ctxPart = p ∧ (x.all = true ∨ e.ctx = x.ctx) ∧ (4608 ≤ e.core ∨ partOf e.core = p)))
      ∧ (∀ y ∈ t.xltInv, y.part ≠ p) ∧ t.mem = s.mem)
  ∧ (∀ (p : PartId) (k lo hi : Nat) (s : State) (q : SeqSlot) (r : List (Nat × Nat × Bool)), k < 32 → s.seqSlot p k = some q →
    q.ranges = (lo, hi, true) :: r →
    ∃ t, exec (.seqLengthAdvance p k) s = .next t ∧ t.seqSlots = mput s.seqSlots (p * 32 + k) { q with ranges := r }
      ∧ t.rd F.partSeqLen_length (p * 32 + k) = hi % 2 ^ F.partSeqLen_length.len)
  ∧ (∀ (k : Nat) (s : State) (f : RdcFill) (keep : List RdcLine), s.rdcFills[k]? = some f → f.stale = false → 0 < s.rdcLines f.part →
    keep = s.rdc.filter (fun l => !(l.part == f.part && l.row == f.row)) →
    (keep.filter (fun l => l.part == f.part)).length < s.rdcLines f.part →
    ∃ t, exec (.rdcFillReturn k) s = .next t ∧ t.rdcFills = dropNth s.rdcFills k
      ∧ t.rdc = keep ++ [{ part := f.part, row := f.row, data := f.data }] ∧ t.mem = s.mem)
  ∧ (∀ (k : Nat) (s : State) (f : RdcFill) (keep : List RdcLine) (o : RdcLine), s.rdcFills[k]? = some f → f.stale = false →
    0 < s.rdcLines f.part → keep = s.rdc.filter (fun l => !(l.part == f.part && l.row == f.row)) →
    s.rdcLines f.part ≤ (keep.filter (fun l => l.part == f.part)).length → keep.find? (fun l => l.part == f.part) = some o →
    ∃ t, exec (.rdcFillReturn k) s = .next t ∧ t.rdcFills = dropNth s.rdcFills k
      ∧ t.rdc = keep.filter (fun l => l != o) ++ [{ part := f.part, row := f.row, data := f.data }] ∧ t.mem = s.mem)
  ∧ (∀ (k : Nat) (s : State) (f : RdcFill), s.rdcFills[k]? = some f → (f.stale = true ∨ s.rdcLines f.part = 0) →
    ∃ t, exec (.rdcFillReturn k) s = .next t ∧ t.rdcFills = dropNth s.rdcFills k ∧ t.rdc = s.rdc ∧ t.mem = s.mem)
  ∧ (∀ (row n d m : Nat) (hits : List Nat) (s : State), scrubRow row = some d → m = n + s.mem.corrections d 512 → 0 < m →
    s.mem.hurt d 512 = false →
    hits = (mgetD s.scrubHits (d / 512) []).filter (fun t => decide (s.onNs < t + day)) ++ [s.onNs] →
    ∃ t, exec (.patrolScrub row n) s = .next t
      ∧ (d < hbmEnd → t.rd F.hbmEcc_corr (s.stackOf d) = satAdd F.hbmEcc_corr.len (s.rd F.hbmEcc_corr (s.stackOf d)) m)
      ∧ (hbmEnd ≤ d → d < cmBase →
          t.rd F.partMemCorr_smCorr (s.ownerOf d) = satAdd F.partMemCorr_smCorr.len (s.rd F.partMemCorr_smCorr (s.ownerOf d)) m)
      ∧ (cmBase ≤ d → t.rd F.partMemCorr_cmCorr (s.ownerOf d) = satAdd F.partMemCorr_cmCorr.len (s.rd F.partMemCorr_cmCorr (s.ownerOf d)) m)
      ∧ mget t.scrubHits (d / 512) = some hits ∧ t.mem = s.mem.heal d 512
      ∧ (hits.length < 3 → t.softRepair = s.softRepair)
      ∧ (3 ≤ hits.length → t.softRepair.any (fun e => e.1 == d / 512) = true))
  ∧ (∀ (row d : Nat) (s : State), scrubRow row = some d → s.mem.corrections d 512 = 0 → s.mem.hurt d 512 = false →
    exec (.patrolScrub row 0) s = .next (settle s))
  ∧ (∀ (row d : Nat) (s : State), scrubRow row = some d → s.mem.corrections d 512 = 0 → s.mem.hurt d 512 = true →
    ∃ t, exec (.patrolScrub row 0) s = .next t ∧ t.mem = s.mem ∧ t.softRepair.any (fun e => e.1 == d / 512) = true)

/-- Layout loads: a load write starts a load, validation ends it with a code or passes it, and the broadcast makes the standby READY
(R256 to R259, R483). The content validated is the image at the load write, and is free where the host has written it since. -/
def Obligations.LayoutLoadsComplete : Prop :=
  (∀ (f : Func) (v : Word64) (s : State), s.gate f .hfLayoutCmd 0 true = .ok → bitAt v.toNat 0 = true →
    s.load = none → s.swap = none → s.heldLoad = false → s.stage = 7 →
    ∃ t l, exec (.layoutLoad f v) s = .next t ∧ t.load = some l ∧ l.src = s.rd F.hfLayoutSrc_dpa 0 * 512
      ∧ l.len = s.rd F.hfLayoutLen_len 0 ∧ l.passed = none ∧ l.retired = s.retiredCores
      ∧ l.dark = s.rd F.hfPwrPart_dark 0 ∧ l.net = s.netWant ∧ t.standby = none ∧ t.sinceLoad = []
      ∧ t.rd F.hfLayoutCmd_load 0 = 1 ∧ t.rd F.hfLayoutStatus_standby 0 = 1 ∧ t.rd F.hfLayoutCmd_fallback 0 = 0 ∧ t.mem = s.mem)
  ∧ (∀ (f : Func) (v : Word64) (s : State), s.gate f .hfLayoutCmd 0 true = .ok → bitAt v.toNat 0 = true → bitAt v.toNat 1 = false →
    bitAt v.toNat 2 = false → (s.load.isSome = true ∨ s.swap.isSome = true ∨ s.heldLoad = true) →
    ∃ t, exec (.layoutLoad f v) s = .next t ∧ t.load = s.load ∧ t.standby = s.standby ∧ t.rd F.hfLayoutStatus_loadCode 0 = 0x50
      ∧ t.rd F.hfLayoutCmd_load 0 = 0)
  ∧ (∀ (f : Func) (v : Word64) (s : State), s.gate f .hfLayoutCmd 0 true = .ok → bitAt v.toNat 0 = true → bitAt v.toNat 1 = false →
    bitAt v.toNat 2 = false → s.load = none → s.swap = none → s.heldLoad = false → s.stage ≠ 7 →
    ∃ t, exec (.layoutLoad f v) s = .next t ∧ t.heldLoad = true ∧ t.load = none ∧ t.standby = s.standby ∧ t.rd F.hfLayoutCmd_load 0 = 1)
  ∧ (∀ (s : State) (l : LoadRun) (b : List Byte), s.load = some l → l.passed = none →
    (l.img = some b ∧ b = s.imageBytes l.src l.len
      ∨ l.img = none ∧ s.imageHeld l.src l.len = [] ∧ b = s.imageBytes l.src l.len
      ∨ ∃ b', l.img = some b' ∧ b' ≠ s.imageBytes l.src l.len ∧ b = (List.range b'.length).map (fun i => Config.residue s.freeCtr i)) →
    ∃ t, exec .layoutValidationDone s = .next t ∧ t.rd F.hfLayoutCmd_load 0 = 0 ∧ t.active = s.active ∧ t.mem = s.mem
      ∧ match (s.wr F.hfLayoutCmd_load 0 0).validateLoad l b with
        | .ok y => t.load = some { l with passed := some y } ∧ t.rd F.hfLayoutStatus_loadCode 0 = 0 ∧ t.tallies = s.tallies
        | .error e => t.load = none ∧ t.rd F.hfLayoutStatus_standby 0 = 0 ∧ t.rd F.hfLayoutStatus_loadCode 0 = e.code % 2 ^ 8
          ∧ t.rd F.hfLayoutStatus_loadSection 0 = e.sect % 2 ^ 8 ∧ t.rd F.hfLayoutStatus_loadRecord 0 = e.rec_ % 2 ^ 16)
  ∧ (∀ (s : State) (l : LoadRun) (y : Layout), s.load = some l → l.passed = some y →
    ∃ t, exec .layoutBroadcastDone s = .next t ∧ t.load = none ∧ t.standby = some y ∧ t.rd F.hfLayoutStatus_standby 0 = 2
      ∧ t.rd F.hfLayoutStatus_loadCode 0 = 0 ∧ t.rd F.hfLayoutIdStandby_standbyId 0 = y.id % 2 ^ F.hfLayoutIdStandby_standbyId.len
      ∧ t.active = s.active ∧ t.mem = s.mem)

/-- Swaps: a request is accepted or refused with a code, withdrawn in time, closes the shift at its instant, stops every queue once
all is quiet, and makes the standby active with its origin 50,000 ticks after the instant; the device's own swap is not made where
it would leave a retirement unabsorbed (R261 to R263, R268). -/
def Obligations.LayoutSwapsComplete : Prop :=
  (∀ (f : Func) (v : Word64) (s : State) (tm : Nat), s.gate f .hfLayoutCmd 0 true = .ok → bitAt v.toNat 0 = false →
    bitAt v.toNat 1 = true → bitAt v.toNat 2 = false → tm = s.rd F.hfLayoutSwapFt_swapFt 0 →
    s.rd F.hfLayoutStatus_standby 0 = 2 → s.ft + 2000 ≤ tm →
    (∀ a, s.active = some a → (((tm : Nat) : Int) - ((s.rd F.hfLayoutOrigin_origin 0 : Nat) : Int)) % (a.shiftLen : Int) = 0) → s.swap = none →
    ∃ t, exec (.swapRequest f v) s = .next t ∧ t.swap = some { ft := tm, cause := 1 } ∧ t.rd F.hfLayoutStatus_swapPending 0 = 1
      ∧ t.rd F.hfLayoutStatus_swapCode 0 = 0 ∧ t.rd F.hfLayoutCmd_swap 0 = 0 ∧ t.standby = s.standby ∧ t.mem = s.mem)
  ∧ (∀ (f : Func) (v : Word64) (s : State) (tm code : Nat), s.gate f .hfLayoutCmd 0 true = .ok → bitAt v.toNat 0 = false →
    bitAt v.toNat 1 = true → bitAt v.toNat 2 = false → tm = s.rd F.hfLayoutSwapFt_swapFt 0 →
    (s.rd F.hfLayoutStatus_standby 0 ≠ 2 ∧ code = 0x60
      ∨ s.rd F.hfLayoutStatus_standby 0 = 2 ∧ tm < s.ft + 2000 ∧ code = 0x61
      ∨ s.rd F.hfLayoutStatus_standby 0 = 2 ∧ s.ft + 2000 ≤ tm ∧ code = 0x62
        ∧ (∃ a, s.active = some a ∧ (((tm : Nat) : Int) - ((s.rd F.hfLayoutOrigin_origin 0 : Nat) : Int)) % (a.shiftLen : Int) ≠ 0)
      ∨ s.rd F.hfLayoutStatus_standby 0 = 2 ∧ s.ft + 2000 ≤ tm ∧ code = 0x63 ∧ s.swap.isSome = true
        ∧ (∀ a, s.active = some a → (((tm : Nat) : Int) - ((s.rd F.hfLayoutOrigin_origin 0 : Nat) : Int)) % (a.shiftLen : Int) = 0)) →
    ∃ t, exec (.swapRequest f v) s = .next t ∧ t.swap = s.swap ∧ t.rd F.hfLayoutStatus_swapCode 0 = code ∧ t.rd F.hfLayoutCmd_swap 0 = 0)
  ∧ (∀ (f : Func) (v : Word64) (s : State) (w : Swap), s.gate f .hfLayoutCmd 0 true = .ok → bitAt v.toNat 0 = false →
    bitAt v.toNat 1 = false → bitAt v.toNat 2 = true → s.swap = some w → s.ft + 1000 ≤ w.ft →
    ∃ t, exec (.swapCancel f v) s = .next t ∧ t.swap = none ∧ t.rd F.hfLayoutStatus_swapPending 0 = 0
      ∧ t.rd F.hfLayoutStatus_swapCode 0 = 0x64 ∧ t.standby = s.standby ∧ t.active = s.active)
  ∧ (∀ (f : Func) (v : Word64) (s : State), s.gate f .hfLayoutCmd 0 true = .ok → bitAt v.toNat 0 = false →
    bitAt v.toNat 1 = false → bitAt v.toNat 2 = true → (∀ w, s.swap = some w → w.ft < s.ft + 1000) →
    ∃ t, exec (.swapCancel f v) s = .next t ∧ t.swap = s.swap ∧ t.rd F.hfLayoutStatus_swapPending 0 = s.rd F.hfLayoutStatus_swapPending 0)
  ∧ (∀ (s : State) (w : Swap), s.swap = some w → w.begun = false → w.ft ≤ s.ft → (w.cause = 2 → s.unabsorbed = none) →
    exec .swapInstant s = .next (settle { s.wr F.hfShift_open 0 0 with
                                          swap := some { w with begun := true },
                                          act := s.act.map (fun (a : Activation) => if a.begun then { a with swapped := true } else a) }))
  ∧ (∀ (s : State) (w : Swap) (a : Absorb), s.swap = some w → w.begun = false → w.ft ≤ s.ft → w.cause = 2 → s.unabsorbed = some a →
    ∃ t, exec .swapInstant s = .next t ∧ t.swap = none ∧ t.rd F.hfLayoutStatus_swapPending 0 = 0 ∧ t.active = s.active
      ∧ t.standby = s.standby)
  ∧ (∀ (s : State) (w : Swap), s.swap = some w → w.begun = true → w.q = none → s.quiesced = true →
    ∃ t, exec .swapQuiesce s = .next t ∧ t.swap = some { w with q := some s.ft } ∧ t.mem = s.mem)
  ∧ (∀ (s : State) (w : Swap) (l : Layout) (q : Nat), s.swap = some w → s.standby = some l → w.q = some q →
    ∃ t l', exec .layoutActive s = .next t ∧ t.active = some l' ∧ l'.id = l.id ∧ l'.phases = l.phases ∧ l'.rings = l.rings
      ∧ l'.benches = l.benches ∧ t.standby = none ∧ t.swap = none ∧ t.sinceLoad = []
      ∧ t.rd F.hfLayoutOrigin_origin 0 = (w.ft + 50000) % 2 ^ 64 ∧ t.rd F.hfLayoutStatus_lastCause 0 = w.cause % 2 ^ F.hfLayoutStatus_lastCause.len
      ∧ (s.sinceLoad = [] → t.roles = l.roles))

/-- Fabric Time: a good frame loads a unit's FT (where it is within a tick of the Headframe's: the model's choice, log entry 16) and a bad
one only counts, an edge inside the window of its second reports its error in err_est and the third in a row locks, an edge outside it
counts as rejected and the third in a row loses the reference, a lost reference and an old sync take their status bits away, and the pulse output is high for
the first 100,000 ticks of a second (R272, R275, R276, R278). -/
def Obligations.FabricTimeEventsComplete : Prop :=
  (∀ (u : Fin 296) (w : Word64) (s : State), bits w.toNat 58 6 = crc6 58 (bits w.toNat 0 58) →
    ∃ t, exec (.ftFrame u w) s = .next t ∧ mgetD t.frameFails u.val 0 = 0 ∧ t.mem = s.mem
      ∧ (64 * bits w.toNat 0 58 ≤ s.ft + 1 → s.ft ≤ 64 * bits w.toNat 0 58 + 1 → t.ftAt u = 64 * bits w.toNat 0 58)
      ∧ (s.ft + 1 < 64 * bits w.toNat 0 58 ∨ 64 * bits w.toNat 0 58 + 1 < s.ft → t.ftAt u = s.ftAt u)
      ∧ (∀ k, k ≠ u.val → t.ftAt k = s.ftAt k) ∧ ∀ r i, r ≠ .hfBoard → t.reg r i = s.reg r i)
  ∧ (∀ (u : Fin 296) (w : Word64) (s : State), bits w.toNat 58 6 ≠ crc6 58 (bits w.toNat 0 58) →
    ∃ t, exec (.ftFrame u w) s = .next t ∧ mgetD t.frameFails u.val 0 = mgetD s.frameFails u.val 0 + 1 ∧ t.skew = s.skew
      ∧ (mgetD s.frameFails u.val 0 = 3 → u.val < 288 → t.rd F.cluClkSticky_ftUnsync u.val = 1)
      ∧ ∀ r i, (r ≠ .cluClkSticky ∨ i ≠ u.val) → r ≠ .hfBoard → t.reg r i = s.reg r i)
  ∧ (∀ (s : State) (a x v : Nat), s.flag F.hfFtCtrl_refEn 0 = true → a = s.pps.missed s.ft * 1000000000 →
    x = (s.pps.expect.map (· + a)).getD s.ft → v = (s.pps.value.map (· + a)).getD s.ft → s.ft ≤ x + 100 → x ≤ s.ft + 100 →
    ∃ t, exec .ppsEdge s = .next t ∧ t.rd F.hfFtStatus_errEst 0 = errEst ((v : Int) - (s.ft : Int)) ∧ t.mem = s.mem
      ∧ t.pps.rej = 0 ∧ t.pps.good = s.pps.good + 1 ∧ t.pps.value = some (v + 1000000000) ∧ t.queues = s.queues
      ∧ (2 ≤ s.pps.good → s.pps.locked = false → t.pps.locked = true ∧ t.pps.lost = false ∧ t.rd F.hfFtStatus_state 0 = 1
          ∧ t.rd F.hfFtStatus_sysScope 0 = 1))
  ∧ (∀ (s : State) (a x : Nat), s.flag F.hfFtCtrl_refEn 0 = true → a = s.pps.missed s.ft * 1000000000 →
    x = (s.pps.expect.map (· + a)).getD s.ft → (s.ft + 100 < x ∨ x + 100 < s.ft) →
    ∃ t, exec .ppsEdge s = .next t ∧ t.rd F.hfFtStatus_ppsReject 0 = satAdd F.hfFtStatus_ppsReject.len (s.rd F.hfFtStatus_ppsReject 0) 1
      ∧ t.ft = s.ft ∧ t.pps.rej = s.pps.rej + 1 ∧ t.pps.good = 0 ∧ (s.pps.rej ≠ 2 → t.pps.locked = s.pps.locked)
      ∧ (s.pps.rej = 2 → s.pps.lost = false → t.pps.lost = true ∧ t.pps.locked = false ∧ t.rd F.hfFtStatus_state 0 = 4
          ∧ t.rd F.hfFtStatus_sysScope 0 = 0))
  ∧ (∀ s : State, s.flag F.hfFtCtrl_refEn 0 = false → exec .ppsEdge s = .next (settle s))
  ∧ (∀ s : State, s.flag F.hfFtCtrl_refEn 0 = true → s.pps.last + 2000000000 ≤ s.ft → s.pps.lost = false →
    ∃ t, exec .ppsTimeout s = .next t ∧ t.rd F.hfFtStatus_state 0 = 4 ∧ t.rd F.hfFtStatus_sysScope 0 = 0
      ∧ t.pps.lost = true ∧ t.pps.locked = false ∧ t.ft = s.ft ∧ t.tallies.length = s.tallies.length + 8)
  ∧ (∀ s : State, (s.flag F.hfFtCtrl_refEn 0 = false ∨ s.ft < s.pps.last + 2000000000 ∨ s.pps.lost = true) →
    exec .ppsTimeout s = .next (settle s))
  ∧ (∀ s : State, s.rd F.hfFtStatus_state 0 ≠ 3 → s.syncAt + 50000000 ≤ s.ft →
    exec .alignedTimeout s = .next (settle (s.wr F.hfFtStatus_aligned 0 0)))
  ∧ (∀ s : State, ∃ t, exec .ppsOut s = .next t ∧ (t.board.ppsOut = true ↔ s.ft % 1000000000 < 100000 ∧ s.pps.skip ≠ some (s.ft - s.ft % 1000000000))
      ∧ t.board.pwrEn = s.board.pwrEn ∧ ∀ r i, r ≠ .hfBoard → t.reg r i = s.reg r i)

/-- Points and clocks of clusters: trim follows the monitors and the lowest point out of reach caps the cluster, droop stretches or holds a clock, of a cluster or of transit, 64 stretched periods demote by one
point, and a frequency change goes through its stages and ends at its target, or at the lower point when it is given up
(R285 to R288, R293 to R295, R299). -/
def Obligations.FrequencyChangesComplete : Prop :=
  (∀ (p : PartId) (c : CluId) (mv : List Nat) (s : State) (x : Clu), s.cluSt (36 * p.val + c.val) = x →
    (∀ i, i < 8 → mv.getD i 0 ≤ 30) →
    exec (.trimRead p c mv) s = .next (settle ((s.setClu (36 * p.val + c.val)
      { x with trim := max x.trim (ceilDiv ((mv.take 8).foldl max 0) 2) }).wr F.cluOp_trim (36 * p.val + c.val)
      (max x.trim (ceilDiv ((mv.take 8).foldl max 0) 2)))))
  ∧ (∀ (p : PartId) (c : CluId) (mv : List Nat) (s : State) (x : Clu) (k : Nat), s.cluSt (36 * p.val + c.val) = x → k < 8 →
    30 < mv.getD k 0 → (∀ i, i < k → mv.getD i 0 ≤ 30) →
    ∃ t, exec (.trimRead p c mv) s = .next t ∧ t.mem = s.mem ∧ t.queues = s.queues
      ∧ (t.cluSt (36 * p.val + c.val)).trim = max x.trim (ceilDiv ((mv.take k).foldl max 0) 2)
      ∧ (t.cluSt (36 * p.val + c.val)).ageing = min x.ageing (k - 1)
      ∧ (k - 1 < x.ageing → t.rd F.cluClkSticky_ageingCap (36 * p.val + c.val) = 1 ∧ t.tallies.length = s.tallies.length + 1))
  ∧ (∀ (p : PartId) (c : CluId) (below need n : Nat) (s : State), s.cluState (36 * p.val + c.val) = 2 → need ≤ 1500 →
    ∃ t, exec (.droopDetect p (some c) below need n) s = .next t
      ∧ (t.cluSt (36 * p.val + c.val)).stretched = (if 1030 ≤ need then (s.cluSt (36 * p.val + c.val)).stretched + n else 0)
      ∧ (t.cluSt (36 * p.val + c.val)).hold = (s.cluSt (36 * p.val + c.val)).hold
      ∧ t.rd F.partPwrClu_droops (36 * p.val + c.val) = (if 25 < below
          then satAdd F.partPwrClu_droops.len (s.rd F.partPwrClu_droops (36 * p.val + c.val)) 1
          else s.rd F.partPwrClu_droops (36 * p.val + c.val)) ∧ t.mem = s.mem ∧ t.queues = s.queues)
  ∧ (∀ (p : PartId) (c : CluId) (below need n : Nat) (s : State), s.cluState (36 * p.val + c.val) = 2 → 1500 < need →
    (s.cluSt (36 * p.val + c.val)).hold = false →
    ∃ t, exec (.droopDetect p (some c) below need n) s = .next t ∧ t.clockStopped (36 * p.val + c.val) = true
      ∧ t.rd F.cluClkSticky_droopHold (36 * p.val + c.val) = 1
      ∧ t.rd F.cluClkStat_droopHolds (36 * p.val + c.val)
        = satAdd F.cluClkStat_droopHolds.len (s.rd F.cluClkStat_droopHolds (36 * p.val + c.val)) 1
      ∧ t.rd F.cluClkStat_demotions (36 * p.val + c.val)
        = satAdd F.cluClkStat_demotions.len (s.rd F.cluClkStat_demotions (36 * p.val + c.val)) 1 ∧ t.mem = s.mem ∧ t.queues = s.queues)
  ∧ (∀ (p : PartId) (c : CluId) (below need n : Nat) (s : State), s.cluState (36 * p.val + c.val) ≠ 2 →
    exec (.droopDetect p (some c) below need n) s = .next (settle s))
  ∧ (∀ (p : PartId) (below need n : Nat) (s : State), s.partDark p = false → 1500 < need → s.transitHold.contains p.val = false →
    ∃ t, exec (.droopDetect p none below need n) s = .next t ∧ t.transitHold = s.transitHold ++ [p.val]
      ∧ t.rd F.partNetSticky_transitHold p = 1 ∧ t.mem = s.mem)
  ∧ (∀ (p : PartId) (s : State), exec (.droopHoldEnd p none) s = .next (settle { s with transitHold := s.transitHold.filter (· != p.val) }))
  ∧ (∀ (p : PartId) (c : CluId) (s : State) (x : Clu), s.cluSt (36 * p.val + c.val) = x →
    exec (.droopHoldEnd p (some c)) s = .next (settle (s.setClu (36 * p.val + c.val) { x with
      hold := false, droop := false, stretched := 0,
      restartAt := if x.hold then s.ftAt (36 * p.val + c.val) else x.restartAt })))
  ∧ (∀ (p : PartId) (c : CluId) (s : State) (x : Clu) (o : Nat), s.cluSt (36 * p.val + c.val) = x → 64 ≤ x.stretched →
    s.cluState (36 * p.val + c.val) = 2 → min (s.rd F.cluOp_curOp (36 * p.val + c.val)) x.demote = o + 1 →
    ∃ t, exec (.demote p c) s = .next t ∧ (t.cluSt (36 * p.val + c.val)).demote = o
      ∧ (t.cluSt (36 * p.val + c.val)).stretched = 0
      ∧ t.rd F.cluClkStat_demotions (36 * p.val + c.val)
        = satAdd F.cluClkStat_demotions.len (s.rd F.cluClkStat_demotions (36 * p.val + c.val)) 1
      ∧ t.tallies.length = s.tallies.length + 1)
  ∧ (∀ (p : PartId) (c : CluId) (s : State) (x : Clu), s.cluSt (36 * p.val + c.val) = x → 64 ≤ x.stretched →
    s.cluState (36 * p.val + c.val) = 2 → min (s.rd F.cluOp_curOp (36 * p.val + c.val)) x.demote = 0 →
    ∃ t, exec (.demote p c) s = .next t ∧ (t.cluSt (36 * p.val + c.val)).demote = x.demote
      ∧ (t.cluSt (36 * p.val + c.val)).stretched = 0 ∧ t.tallies = s.tallies
      ∧ t.rd F.cluClkStat_demotions (36 * p.val + c.val)
        = satAdd F.cluClkStat_demotions.len (s.rd F.cluClkStat_demotions (36 * p.val + c.val)) 1)
  ∧ (∀ (p : PartId) (c : CluId) (s : State) (x : Clu) (f : Fchg) (r : Nat), s.cluSt (36 * p.val + c.val) = x → x.fchg = some f →
    f.rampEnd = some r → r ≤ s.ft → exec (.voltageRampDone p c) s
      = .next (settle (s.setClu (36 * p.val + c.val) { x with fchg := some { f with rampEnd := none } })))
  ∧ (∀ (p : PartId) (row i : Fin 6) (s : State) (x : Clu) (f : Fchg), s.cluSt (36 * p.val + 6 * row.val + i.val) = x →
    x.fchg = some f → f.stage = 0 → f.rampEnd = none → f.zero + 1250 * row.val ≤ s.ftAt (36 * p.val + 6 * row.val + i.val) →
    ∃ t, exec (.fchgStop p row) s = .next t ∧ t.clockStopped (36 * p.val + 6 * row.val + i.val) = true
      ∧ (t.cluSt (36 * p.val + 6 * row.val + i.val)).stopAt = (if x.hold then x.stopAt else s.ftAt (36 * p.val + 6 * row.val + i.val))
      ∧ ∀ r j, r ≠ .hfBoard → t.reg r j = s.reg r j)
  ∧ (∀ (p : PartId) (c : CluId) (s : State) (x : Clu) (f : Fchg), s.cluSt (36 * p.val + c.val) = x → x.fchg = some f →
    (f.stage = 1 → exec (.fchgDrainDone p c) s
      = .next (settle (s.setClu (36 * p.val + c.val) { x with fchg := some { f with stage := 2 } })))
    ∧ (f.stage = 2 → exec (.fchgRelockDone p c) s
      = .next (settle (s.setClu (36 * p.val + c.val) { x with fchg := some { f with stage := 3 } }))))
  ∧ (∀ (p : PartId) (c : CluId) (s : State) (x : Clu) (f : Fchg), s.cluSt (36 * p.val + c.val) = x → x.fchg = some f →
    f.stage = 3 → x.droop = false → x.hold = false →
    ∃ t, exec (.fchgRestart p c) s = .next t ∧ t.rd F.cluOp_curOp (36 * p.val + c.val) = f.target % 8
      ∧ t.rd F.cluFchg_changes (36 * p.val + c.val)
        = satAdd F.cluFchg_changes.len (s.rd F.cluFchg_changes (36 * p.val + c.val)) 1
      ∧ t.clockStopped (36 * p.val + c.val) = false
      ∧ (t.cluSt (36 * p.val + c.val)).restartAt = s.ftAt (36 * p.val + c.val))
  ∧ (∀ (p : PartId) (c : CluId) (s : State) (x : Clu) (f : Fchg), s.cluSt (36 * p.val + c.val) = x → x.fchg = some f →
    1 ≤ f.stage → x.droop = true → f.stopped + 20000 ≤ s.ftAt (36 * p.val + c.val) →
    ∃ t, exec (.fchgAbort p c) s = .next t
      ∧ t.rd F.cluOp_curOp (36 * p.val + c.val) = min (s.rd F.cluOp_curOp (36 * p.val + c.val)) f.target
      ∧ t.rd F.cluFchg_aborts (36 * p.val + c.val) = satAdd F.cluFchg_aborts.len (s.rd F.cluFchg_aborts (36 * p.val + c.val)) 1
      ∧ t.rd F.cluClkSticky_fchgAbort (36 * p.val + c.val) = 1
      ∧ (t.cluSt (36 * p.val + c.val)).restartAt = s.ftAt (36 * p.val + c.val))

/-- The shift schedule: a shift opens at its start, its phases begin in order at their offsets, at the sequencer and at each Deputy that
has reached its start, where they end every demotion, and the Deputies start the move to the next phase's points when its lead is reached
(R279 to R282, R288). -/
def Obligations.ShiftScheduleCompletes : Prop :=
  (∀ (s : State) (l : Layout), s.active = some l → s.noPhaseAt (s.shiftStart l s.nextShift) = false →
    s.shiftStart l s.nextShift ≤ s.ft →
    ∃ t, exec .shiftOpen s = .next t ∧ t.nextShift = s.nextShift + 1 ∧ t.phaseOn = false ∧ t.rd F.hfShift_open 0 = 1
      ∧ t.rd F.hfShift_phase 0 = 0 ∧ t.rd F.hfShift_shift 0 = s.nextShift % 2 ^ F.hfShift_shift.len ∧ t.mem = s.mem
      ∧ (s.repairs = [] → bitAt (s.schedTally (s.shiftStart l s.nextShift)) 0 = false → t.tallies = s.tallies)
      ∧ (s.repairs = [] → bitAt (s.schedTally (s.shiftStart l s.nextShift)) 0 = true → t.tallies.length = s.tallies.length + 8))
  ∧ (∀ (s : State) (l : Layout), s.active = some l → (s.noPhaseAt (s.shiftStart l s.nextShift) = true ∨ s.ft < s.shiftStart l s.nextShift) →
    exec .shiftOpen s = .next (settle s))
  ∧ (∀ (s : State) (l : Layout) (ph : Phase) (i : Nat), s.active = some l →
    i = (if s.phaseOn then s.rd F.hfShift_phase 0 + 1 else 0) → l.phases[i]? = some ph → s.flag F.hfShift_open 0 = true →
    s.shiftStart l (s.rd F.hfShift_shift 0) + ph.offset ≤ s.ft →
    ∃ t, exec .phaseStart s = .next t ∧ t.phaseOn = true ∧ t.rd F.hfShift_phase 0 = i % 2 ^ F.hfShift_phase.len
      ∧ t.rd F.hfShift_shift 0 = s.rd F.hfShift_shift 0 ∧ t.mem = s.mem
      ∧ t.tallies.length = s.tallies.length
          + (if bitAt (s.schedTally (s.shiftStart l (s.rd F.hfShift_shift 0) + ph.offset)) 1 then 8 else 0))
  ∧ (∀ (p : PartId) (s : State) (l : Layout) (ph : Phase) (k i : Nat), s.active = some l → s.nextPhase l p = (k, i) →
    l.phases[i]? = some ph → s.noPhaseAt (s.shiftStart l k + ph.offset) = false → s.shiftStart l k + ph.offset ≤ s.ftPart p →
    ∃ t, exec .phaseStart s = .next t ∧ mget t.deputies p.val = some (k, i) ∧ mget t.plan p.val = none
      ∧ (∀ c, c < 36 → (t.cluSt (36 * p.val + c)).demote = 7) ∧ t.mem = s.mem ∧ t.queues = s.queues
      ∧ t.slackRuns.filter (fun r => r.part == p.val) = s.slackRuns.filter (fun r => r.part == p.val) ++ (if ph.slackRef = 0 then [] else
          [{ part := p, phase := i, start := s.shiftStart l k + ph.offset, ref := s.shiftStart l k + ph.slackRef,
             done := s.shiftStart l k + ph.offset }]))
  ∧ (∀ (p : PartId) (s : State) (l : Layout) (ph : Phase) (k i : Nat), s.active = some l → s.nextPhase l p = (k, i) →
    l.phases[i]? = some ph → s.noPhaseAt (s.shiftStart l k + ph.offset) = false → mget s.plan p.val = none →
    s.shiftStart l k + ph.offset ≤ s.ftPart p + ph.lead →
    ∃ t, exec (.opMoveStart p) s = .next t ∧ mget t.plan p.val = some i ∧ t.rd F.hfShift_shift 0 = s.rd F.hfShift_shift 0
      ∧ t.mem = s.mem ∧ t.queues = s.queues)

/-- Duplicates: a capture that has reached its witness lets the original start, equal results pass and end the sample, results that differ bring
the repeats, a verdict is
recorded, reported and counted, PERMANENT retires the original, WITNESS_FAULT starts a canary run on the witness, and a witness's own error, or
no answer in time, abandons, or leaves the verdict UNRESOLVED from the mismatch on (R457 to R463). -/
def Obligations.DuplicatesComplete : Prop :=
  (∀ (g : CoreId) (e : Fin 4) (id : Nat) (s : State) (x : Sample), s.sampleOf g.val e.val id = some x → x.phase = .copying →
    ∃ t, exec (.captureCopyDone g e id false) s = .next t ∧ t.sampleOf g.val e.val id = some { x with phase := .running }
      ∧ t.mem = s.mem ∧ t.bufs = s.bufs)
  ∧ (∀ (g : CoreId) (e : Fin 4) (id : Nat) (s : State) (x : Sample) (c : Instr), s.sampleOf g.val e.val id = some x →
    (c = .captureCopyDone g e id true ∧ x.phase = .copying
      ∨ c = .assayCompareDone g e id .witnessError ∧ x.phase ≠ .repeating) →
    ∃ t, exec c s = .next t ∧ t.sampleOf g.val e.val id = none ∧ t.mem = s.mem ∧ t.bufs = s.bufs ∧ t.rd F.coreAssayLast_verdict x.core = 6
      ∧ t.rd F.coreAssayLast_abandon x.core = 8
      ∧ t.rd F.coreAssayCnt2_abandoned x.core = satAdd F.coreAssayCnt2_abandoned.len (s.rd F.coreAssayCnt2_abandoned x.core) 1)
  ∧ (∀ (g : CoreId) (e : Fin 4) (id first n : Nat) (s : State) (x : Sample), s.sampleOf g.val e.val id = some x → x.phase = .comparing →
    ∃ t y, exec (.assayCompareDone g e id (.differs first n)) s = .next t ∧ t.sampleOf g.val e.val id = some y
      ∧ y.phase = .repeating ∧ y.firstDiff = first ∧ y.diffs = n ∧ y.since = s.ftCore x.core
      ∧ t.rd F.coreErrCount_mismatches x.core = satAdd F.coreErrCount_mismatches.len (s.rd F.coreErrCount_mismatches x.core) 1)
  ∧ (∀ (g : CoreId) (e : Fin 4) (id : Nat) (s : State) (x : Sample), s.sampleOf g.val e.val id = some x → x.phase = .comparing →
    ∃ t, exec (.assayCompareDone g e id .same) s = .next t ∧ t.sampleOf g.val e.val id = none ∧ t.mem = s.mem ∧ t.bufs = s.bufs
      ∧ t.rd F.coreAssayCnt_passed g.val = satAdd F.coreAssayCnt_passed.len (s.rd F.coreAssayCnt_passed g.val) 1
      ∧ t.rd F.coreAssayLast_verdict x.core = 1 ∧ t.tallies = s.tallies)
  ∧ (∀ (g : CoreId) (e : Fin 4) (id : Nat) (o2 t' : Fin 3) (s : State) (x : Sample), s.sampleOf g.val e.val id = some x →
    x.phase = .repeating → (x.third = none ∨ verdictOf o2.val t'.val = 5) →
    ∃ t, exec (.assayVerdict g e id o2 t') s = .next t ∧ t.sampleOf g.val e.val id = none ∧ t.rd F.coreAssayLast_verdict x.core = 5
      ∧ t.rd F.partAssayStat_unresolved (partOf x.core)
        = satAdd F.partAssayStat_unresolved.len (s.rd F.partAssayStat_unresolved (partOf x.core)) 1
      ∧ t.reports.length = s.reports.length + 1 ∧ t.tallies.length = s.tallies.length + 1)
  ∧ (∀ (g : CoreId) (e : Fin 4) (id : Nat) (s : State) (x : Sample) (y : Nat), s.sampleOf g.val e.val id = some x →
    x.phase = .repeating → x.third = some y →
    (∃ t, exec (.assayVerdict g e id 0 1) s = .next t ∧ t.retired x.core = true)
    ∧ (∃ t, exec (.assayVerdict g e id 1 1) s = .next t ∧ t.sampleOf g.val e.val id = none ∧ t.rd F.coreAssayLast_verdict x.core = 2
        ∧ t.rd F.partAssayStat_transient (partOf x.core)
          = satAdd F.partAssayStat_transient.len (s.rd F.partAssayStat_transient (partOf x.core)) 1)
    ∧ ∃ t, exec (.assayVerdict g e id 0 0) s = .next t ∧ t.rd F.coreId_canary x.witness = 1
      ∧ t.canaries = s.canaries ++ [{ core := x.witness, byHost := true }])
  ∧ (∀ (g : CoreId) (e : Fin 4) (id : Nat) (s : State) (x : Sample), s.sampleOf g.val e.val id = some x → x.phase = .comparing →
    x.since + s.assayWait (partOf g.val) ≤ s.ftCore g.val →
    ∃ t, exec (.assayTimeout g e id) s = .next t ∧ t.sampleOf g.val e.val id = none ∧ t.rd F.coreAssayLast_verdict x.core = 6
      ∧ t.rd F.coreAssayLast_abandon x.core = 3
      ∧ t.rd F.coreAssayCnt2_abandoned x.core = satAdd F.coreAssayCnt2_abandoned.len (s.rd F.coreAssayCnt2_abandoned x.core) 1)
  ∧ (∀ (g : CoreId) (e : Fin 4) (id : Nat) (s : State) (x : Sample), s.sampleOf g.val e.val id = some x → x.phase = .repeating →
    x.since + s.assayWait (partOf g.val) ≤ s.ftCore g.val →
    ∃ t, exec (.assayTimeout g e id) s = .next t ∧ t.sampleOf g.val e.val id = none ∧ t.rd F.coreAssayLast_verdict x.core = 5)
  ∧ (∀ (g : CoreId) (e : Fin 4) (id : Nat) (s : State) (x : Sample), s.sampleOf g.val e.val id = some x →
    s.ftCore g.val < x.since + s.assayWait (partOf g.val) → exec (.assayTimeout g e id) s = .next (settle s))

/-- Canaries and flash records: the next available core of the cycle starts a run, a correct run ends, a first wrong answer asks for a
second run, which counts a failure and with another wrong answer retires the core, a retirement enters the record in flash, and a
report enters the fault log, in place of an older one where it is full; a write that fails sets flash_err
(R466 to R469, R475). -/
def Obligations.CanariesAndLogsComplete : Prop :=
  (∀ (s : State) (n k : Nat), s.policy.canary = true → s.ready = true →
    n = (if 4608 ≤ s.canaryNext ∧ s.canaryCycle + hourTicks ≤ s.up then 0 else s.canaryNext) → n ≤ k → k < 4608 →
    s.available k = true → (∀ j, n ≤ j → j < k → s.available j = false) →
    ∃ t, exec .canarySchedule s = .next t ∧ t.rd F.coreId_canary k = 1 ∧ t.canaryNext = k + 1
      ∧ t.canaries = s.canaries ++ [{ core := k, byHost := false }] ∧ t.queues = s.queues)
  ∧ (∀ (s : State), s.policy.canary = false ∨ s.ready = false →
    ∃ t, exec .canarySchedule s = .next t ∧ t.canaries = s.canaries ∧ ∀ r i, r ≠ .hfBoard → t.reg r i = s.reg r i)
  ∧ (∀ (g : CoreId) (s : State) (c : Canary), s.canaries.find? (fun c => c.core == g.val) = some c → c.rerun = false →
    exec (.canaryResult g none) s = .next (settle (s.dropCanary g.val))
    ∧ ∀ k, ∃ t, exec (.canaryResult g (some k)) s = .next t
      ∧ t.canaries.find? (fun c => c.core == g.val) = some { c with rerun := true, firstBad := k }
      ∧ ∀ r i, r ≠ .hfBoard → t.reg r i = s.reg r i)
  ∧ (∀ (g : CoreId) (s : State) (c : Canary), s.canaries.find? (fun c => c.core == g.val) = some c → c.rerun = true →
    (∃ t, exec (.canaryResult g none) s = .next t ∧ t.canaries.find? (fun c => c.core == g.val) = none
      ∧ t.rd F.coreErrCount_canaryFails g.val = satAdd F.coreErrCount_canaryFails.len (s.rd F.coreErrCount_canaryFails g.val) 1)
    ∧ ∀ k, ∃ t, exec (.canaryResult g (some k)) s = .next t ∧ t.retired g.val = true
      ∧ t.canaries.find? (fun c => c.core == g.val) = none)
  ∧ (∀ (k : Nat) (s : State) (r : Nat × Nat × Nat), s.retirePend[k]? = some r →
    exec (.retirementFlashWrite k true) s
      = .next (settle { s with retirePend := dropNth s.retirePend k, retireFlash := s.retireFlash ++ [(r.1, r.2.1)] })
    ∧ ∃ t, exec (.retirementFlashWrite k false) s = .next t ∧ t.retirePend = s.retirePend ∧ t.retireFlash = s.retireFlash
      ∧ bitAt (t.reg .hfErrSticky 0) 2 = true)
  ∧ (∀ (k : Nat) (s : State) (r : Report), s.reports[k]? = some r →
    (s.log.length < 8192 → ∃ t, exec (.faultLogFlashWrite k true) s = .next t ∧ t.log = s.log ++ [r]
      ∧ t.reports = dropNth s.reports k ∧ t.rd F.hfFaultLog_held 0 = (s.log.length + 1) % 2 ^ F.hfFaultLog_held.len)
    ∧ (∀ l, 8192 ≤ s.log.length → takeOut (fun (x : Report) => x.severity == 2 || x.severity == 3) s.log = some l →
        ∃ t, exec (.faultLogFlashWrite k true) s = .next t ∧ t.log = l ++ [r] ∧ t.reports = dropNth s.reports k)
    ∧ (∀ l, 8192 ≤ s.log.length → takeOut (fun (x : Report) => x.severity == 2 || x.severity == 3) s.log = none →
        takeOut (fun (x : Report) => x.severity == 0) s.log = some l →
        ∃ t, exec (.faultLogFlashWrite k true) s = .next t ∧ t.log = l ++ [r] ∧ t.reports = dropNth s.reports k)
    ∧ (8192 ≤ s.log.length → takeOut (fun (x : Report) => x.severity == 2 || x.severity == 3) s.log = none →
        takeOut (fun (x : Report) => x.severity == 0) s.log = none →
        ∃ t, exec (.faultLogFlashWrite k true) s = .next t ∧ t.log = s.log ∧ t.reports = dropNth s.reports k
          ∧ t.rd F.hfFaultLog_dropped 0 = satAdd F.hfFaultLog_dropped.len (s.rd F.hfFaultLog_dropped 0) 1)
    ∧ ∃ t, exec (.faultLogFlashWrite k false) s = .next t ∧ t.log = s.log ∧ t.reports = s.reports
      ∧ bitAt (t.reg .hfErrSticky 0) 2 = true)

/-- On-device networks: a lane error puts a link into training, training ends in the state its failed lanes leave
it, a Class S row
reaches its receiver once and leaves its source at the acknowledgement, a failed router's position is recorded in flash and
register and its cores are retired,
a reroute puts the new paths in force, and a corrected or retried Bell beat is counted, a
lost one costs the nodes below its link (R309 to R319). -/
def Obligations.NetworkEventsComplete : Prop :=
  (∀ (p : PartId) (d : Fin 18) (n : Nat) (s : State), 2 ≤ s.linkSt p.val d.val → s.partDark p.val = false →
    ∃ t, exec (.d2dLaneError p d n) s = .next t ∧ t.linkSt p.val d.val = 1 ∧ t.mem = s.mem ∧ t.netWant = s.netWant
      ∧ t.rd F.partD2dLink_crcErr (linkIdx p.val d.val)
        = satAdd F.partD2dLink_crcErr.len (s.rd F.partD2dLink_crcErr (linkIdx p.val d.val)) n
      ∧ t.rd F.partD2dLink_retrains (linkIdx p.val d.val)
        = satAdd F.partD2dLink_retrains.len (s.rd F.partD2dLink_retrains (linkIdx p.val d.val)) 1)
  ∧ (∀ (p : PartId) (d : Fin 18) (n : Nat) (s : State), (s.linkSt p.val d.val < 2 ∨ s.partDark p.val = true) →
    exec (.d2dLaneError p d n) s = .next (settle s))
  ∧ (∀ (p : PartId) (d : Fin 18) (bad groups : List Nat) (s : State), s.linkSt p.val d.val = 1 → s.partDark p.val = false →
    groups = (List.range (if d.val < 12 then 32 else 16)).map
      (fun k => bad.getD k 0 + (mgetD s.fuses.lanes (linkIdx p.val d.val) []).getD k 0) →
    ∃ t, exec (.d2dTrainDone p d bad) s = .next t ∧ t.linkSt p.val d.val = linkMode groups ∧ t.mem = s.mem
      ∧ t.rd F.partD2dLink_failed (linkIdx p.val d.val) = min (groups.foldl (· + ·) 0) 255
      ∧ t.rd F.partD2dLink_spared (linkIdx p.val d.val)
        = countBelow groups.length (fun k => groups.getD k 0 == 1) % 2 ^ F.partD2dLink_spared.len
      ∧ (linkMode groups = 2 → t.tallies = s.tallies ∧ t.reports = s.reports)
      ∧ (linkMode groups = 3 → t.tallies.length = s.tallies.length + 1 ∧ t.rd F.partNetSticky_d2dHalf p = 1 ∧ t.reports = s.reports)
      ∧ (linkMode groups = 0 → t.reports.length = s.reports.length + 1 ∧ t.rd F.partNetSticky_d2dDown p = 1
          ∧ t.tallies.length = s.tallies.length + (s.tenants p.val).length))
  ∧ (∀ (k : Nat) (s : State) (b : BulkRow), s.bulk[k]? = some b → (∀ x ∈ s.bulk, ¬ (x.seq = b.seq ∧ x.got = true)) →
    (∀ x ∈ s.bulk.take k, ¬ (x.unit = b.unit ∧ x.got = false ∧ s.rowPos x.row = s.rowPos b.row)) →
    ((s.rowPut (b.unit / 4) b.row b.data).1 = .done →
      ∃ t, exec (.bulkRowDeliver k) s = .next t ∧ t.mem = s.mem.wrN b.row b.data ∧ t.bulk = setNth s.bulk k { b with got := true })
    ∧ ((s.rowPut (b.unit / 4) b.row b.data).1 = .wait →
      exec (.bulkRowDeliver k) s = .next (settle (s.rowPut (b.unit / 4) b.row b.data).2))
    ∧ ((s.rowPut (b.unit / 4) b.row b.data).1 = .unc →
      exec (.bulkRowDeliver k) s = .next (settle
        (((s.rowPut (b.unit / 4) b.row b.data).2.engUnc (b.unit / 4) 3 0x70 b.row).bulkFail b 0x79 0)))
    ∧ ∀ n, (s.rowPut (b.unit / 4) b.row b.data).1 = .net n →
      exec (.bulkRowDeliver k) s = .next (settle ((s.rowPut (b.unit / 4) b.row b.data).2.bulkFail b 0x7C n)))
  ∧ (∀ (k : Nat) (s : State) (b x : BulkRow), s.bulk[k]? = some b → x ∈ s.bulk → x.seq = b.seq → x.got = true →
    exec (.bulkRowDeliver k) s = .next (settle s))
  ∧ (∀ (k : Nat) (s : State) (b : BulkRow), s.bulk[k]? = some b →
    exec (.rowAck k) s = .next (settle (if b.got then State.flushHeld { s with bulk := dropNth s.bulk k } b.unit else s)))
  ∧ (∀ (p : PartId) (c : CluId) (silent : Bool) (s : State), bitAt (s.rd F.partNetRouter_failed p.val) c.val = false →
    s.partDark p.val = false → s.board.powered = true →
    ∃ t, exec (.routerFail p c silent) s = .next t ∧ bitAt (t.rd F.partNetRouter_failed p.val) c.val = true
      ∧ (p.val < s.flash.routers.length → bitAt (t.flash.routers.getD p.val 0) c.val = true)
      ∧ ∀ k, k < 16 → t.retired (576 * p.val + 16 * c.val + k) = true)
  ∧ (∀ (p : PartId) (c : CluId) (silent : Bool) (s : State), (bitAt (s.rd F.partNetRouter_failed p.val) c.val = true ∨
    s.partDark p.val = true ∨ s.board.powered = false) → exec (.routerFail p c silent) s = .next (settle s))
  ∧ (∀ (ms : List Nat) (s : State), s.net ≠ s.netWant →
    ∃ t, exec (.rerouteInstall ms) s = .next t ∧ t.net = s.netWant ∧ t.netWant = s.netWant ∧ t.mem = s.mem
      ∧ (ms = [] → t.queues = s.queues ∧ t.bulk = s.bulk ∧ (s.tallies = [] → s.active = none →
          ∀ p, p < 8 → t.rd F.partNetErr_resent p = satAdd F.partNetErr_resent.len (s.rd F.partNetErr_resent p)
            (s.bulk.filter (fun (b : BulkRow) => partOf (b.unit / 4) == p)).length)))
  ∧ (∀ (ms : List Nat) (s : State), s.net = s.netWant → exec (.rerouteInstall ms) s = .next (settle s))
  ∧ (∀ (p : PartId) (level : Fin 3) (node : CluId) (fails : Nat) (s : State), s.partDark p.val = false → s.board.powered = true →
    fails < 3 → exec (.bellBeatError p level node fails) s
      = .next (settle (if fails = 0 then s.inc F.partNetErr_bellCorr p.val else s.inc F.partNetErr_bellRetry p.val fails)))
  ∧ (∀ (p : PartId) (level : Fin 3) (node : CluId) (fails : Nat) (s : State), s.partDark p.val = false → s.board.powered = true →
    3 ≤ fails → ∃ t, exec (.bellBeatError p level node fails) s = .next t
      ∧ (level.val = 0 → t.partDark p = true)
      ∧ (level.val = 1 → ∀ i k, i < 6 → k < 16 → t.retired (576 * p.val + 16 * (6 * (node.val % 6) + i) + k) = true)
      ∧ (level.val = 2 → ∀ k, k < 16 → t.retired (576 * p.val + 16 * (node.val % 36) + k) = true))

/-- Class T and the election: a SYNC is sent each millisecond and answered with what Table 12-6 asks for, a response gives the link's delay
and, on the port toward the master, the correction; within a district a better key, or a shorter way to the same one, is adopted and
another ignored, a newer election starts from the module's own key, and silence starts a new election (R276, R333, R341). -/
def Obligations.TimeMasterEventsComplete : Prop :=
  (∀ (x : PortId) (s : State), s.portUp x.val = true → (∀ a, (s.port x.val).syncAt = some a → a + 1000000 ≤ s.ftPort x.val) →
    ∃ t m, exec (.classTSyncSend x) s = .next t ∧ m.msg = .sync ∧ m.rank = 1
      ∧ t.port x.val = { s.port x.val with syncAt := some (s.ftPort x.val), out := (s.port x.val).out ++ [m] }
      ∧ ∀ r i, r ≠ .hfBoard → t.reg r i = s.reg r i)
  ∧ (∀ (x : PortId) (s : State) (a : Nat), (s.portUp x.val = false ∨ (s.port x.val).syncAt = some a ∧ s.ftPort x.val < a + 1000000) →
    exec (.classTSyncSend x) s = .next (settle s))
  ∧ (∀ (x : PortId) (t1 : Nat) (fr : Fin 16) (s : State), s.portUp x.val = true →
    ∃ t m, exec (.classTSync x t1 fr) s = .next t ∧ t.port x.val = { s.port x.val with out := (s.port x.val).out ++ [m] } ∧ m.rank = 1
      ∧ m.msg = .syncResp t1 (s.ftPort x.val * 16 + fr.val) (s.rd F.hfFtStatus_state 0) ((s.elect.best.map (·.hops)).getD 0)
      ∧ ∀ r i, r ≠ .hfBoard → t.reg r i = s.reg r i)
  ∧ (∀ (x : PortId) (t1 t2 t3 : Nat) (fr : Fin 16) (hops : Nat) (s : State) (t4 : Int), s.portUp x.val = true →
    t4 = ((s.ftPort x.val * 16 + fr.val : Nat) : Int) →
    ((s.elect.port ≠ some x.val ∨ s.pps.locked = true ∨ s.rd F.hfFtStatus_state 0 = 3) → exec (.syncResp x t1 t2 t3 fr hops) s
      = .next (settle (s.wr F.vxPortDelay_delay x.val (min 65535 (((t4 - t1) - ((t3 : Int) - t2)) / 2 / 16).toNat))))
    ∧ (s.elect.port = some x.val → s.pps.locked = false → s.rd F.hfFtStatus_state 0 ≠ 3 →
      ∃ t, exec (.syncResp x t1 t2 t3 fr hops) s = .next t ∧ t.rd F.hfFtStatus_state 0 = 2 ∧ t.elect.heard = s.ft
        ∧ t.rd F.vxPortDelay_delay x.val = min 65535 (((t4 - t1) - ((t3 : Int) - t2)) / 2 / 16).toNat
        ∧ t.rd F.hfFtStatus_errEst 0 = errEst ((((t2 : Int) - t1) - (t4 - t3)) / 2 / 16)))
  ∧ (∀ (x : PortId) (t1 t2 t3 : Nat) (fr : Fin 16) (hops : Nat) (s : State), s.portUp x.val = false →
    exec (.classTSync x t1 fr) s = .next (settle s) ∧ exec (.syncResp x t1 t2 t3 fr hops) s = .next (settle s))
  ∧ (∀ (x : PortId) (dst : Nat) (a b k : Announce) (s : State), s.mySerial dst = true → s.portUp x.val = true → s.apart x.val = false →
    b = { a with hops := a.hops + 1 } → a.r ≠ 255 →
    (s.elect.epoch < a.epoch ∧ s.flag F.hfFtCtrl_masterOk 0 = false
      ∨ s.elect.epoch < a.epoch ∧ s.flag F.hfFtCtrl_masterOk 0 = true ∧ k = { s.ownKey with epoch := a.epoch }
        ∧ (keyBelow b k = true ∨ b.serial = k.serial ∧ b.r = k.r ∧ b.hops < k.hops)
      ∨ a.epoch = s.elect.epoch ∧ s.elect.best = some k ∧ (keyBelow b k = true ∨ b.serial = k.serial ∧ b.r = k.r ∧ b.hops < k.hops)) →
    ∃ t, exec (.announce ⟨x, dst⟩ a) s = .next t ∧ t.elect = { best := some b, port := some x.val, epoch := a.epoch, heard := s.ft }
      ∧ t.rd F.hfFtMaster_masterSerial 0 = a.serial % 2 ^ 64 ∧ t.mem = s.mem ∧ t.queues = s.queues)
  ∧ (∀ (x : PortId) (dst : Nat) (a b k : Announce) (s : State), s.mySerial dst = true → s.portUp x.val = true → s.apart x.val = false →
    b = { a with hops := a.hops + 1 } → s.elect.epoch < a.epoch → s.flag F.hfFtCtrl_masterOk 0 = true →
    k = { s.ownKey with epoch := a.epoch } →
    (a.r = 255 ∨ keyBelow b k = false ∧ (b.serial ≠ k.serial ∨ b.r ≠ k.r ∨ k.hops ≤ b.hops)) →
    ∃ t, exec (.announce ⟨x, dst⟩ a) s = .next t ∧ t.elect = { best := some k, port := none, epoch := a.epoch, heard := s.ft }
      ∧ t.rd F.hfFtMaster_masterSerial 0 = s.rd F.hfVxSerial_serial 0)
  ∧ (∀ (x : PortId) (dst : Nat) (a b k : Announce) (s : State), b = { a with hops := a.hops + 1 } →
    (s.mySerial dst = false ∨ s.portUp x.val = false ∨ s.apart x.val = true ∨ a.epoch < s.elect.epoch
      ∨ a.epoch = s.elect.epoch ∧ s.elect.best = some k
        ∧ (a.r = 255 ∨ keyBelow b k = false ∧ (b.serial ≠ k.serial ∨ b.r ≠ k.r ∨ k.hops ≤ b.hops))) →
    exec (.announce ⟨x, dst⟩ a) s = .next (settle s))
  ∧ (∀ (s : State), s.pps.locked = false → s.rd F.hfFtStatus_state 0 ≠ 3 → s.elect.heard + 4000000 ≤ s.ft →
    ∃ t, exec .masterTimeout s = .next t ∧ t.elect.epoch = s.elect.epoch + 1 ∧ t.elect.port = none ∧ t.mem = s.mem ∧ t.queues = s.queues
      ∧ (s.flag F.hfFtCtrl_masterOk 0 = true → t.rd F.hfFtStatus_state 0 = 3
          ∧ t.rd F.hfFtMaster_masterSerial 0 = s.rd F.hfVxSerial_serial 0)
      ∧ (s.flag F.hfFtCtrl_masterOk 0 = false → t.elect.best = none
          ∧ t.rd F.hfFtStatus_state 0 = (if s.rd F.hfFtStatus_state 0 = 2 then 4 else s.rd F.hfFtStatus_state 0)))
  ∧ (∀ (s : State), (s.pps.locked = true ∨ s.rd F.hfFtStatus_state 0 = 3 ∨ s.ft < s.elect.heard + 4000000) →
    exec .masterTimeout s = .next (settle s))

/-- Links: lost lanes or silence take a port to DOWN_WAIT, the wait ends in TRAINING or, with nothing to light the port, DARK, a trained
port is in HELLO, HELLO and CERT are sent and taken there, a HELLO of another serial takes an UP port down, and a verified peer, or any
where untrusted ones are allowed, brings the port UP, while another is REJECTED (R326, R329, R333, R337, R338). -/
def Obligations.LinkBringUpCompletes : Prop :=
  (∀ (x : PortId) (lanes : Fin 256) (s : State), lanes.val ≠ 255 →
    ((s.pst x.val = 1 ∨ s.pst x.val = 5) → exec (.laneLockLoss x lanes) s = .next (settle (s.wr F.vxPortState_locked x.val lanes.val)))
    ∧ (2 ≤ s.pst x.val → s.pst x.val ≤ 4 → ∃ t, exec (.laneLockLoss x lanes) s = .next t
      ∧ t.pst x.val = 5 ∧ t.rd F.vxPortState_locked x.val = lanes.val ∧ (t.port x.val).downAt = s.ftPort x.val
      ∧ t.rd F.vxPortState_downs x.val = satAdd F.vxPortState_downs.len (s.rd F.vxPortState_downs x.val) 1))
  ∧ (∀ (x : PortId) (lanes : Fin 256) (s : State), (lanes.val = 255 ∨ s.pst x.val = 0) →
    exec (.laneLockLoss x lanes) s = .next (settle s))
  ∧ (∀ (x : PortId) (s : State), 2 ≤ s.pst x.val → s.pst x.val ≤ 4 → (s.port x.val).lastGood + 1000 ≤ s.ftPort x.val →
    ∃ t, exec (.flitSilenceTimeout x) s = .next t ∧ t.pst x.val = 5
      ∧ t.rd F.vxPortState_trusted x.val = 0 ∧ (t.port x.val).out = []
      ∧ t.rd F.vxPortState_downs x.val = satAdd F.vxPortState_downs.len (s.rd F.vxPortState_downs x.val) 1)
  ∧ (∀ (x : PortId) (s : State), (s.pst x.val < 2 ∨ 4 < s.pst x.val ∨ s.ftPort x.val < (s.port x.val).lastGood + 1000) →
    exec (.flitSilenceTimeout x) s = .next (settle s))
  ∧ (∀ (x : PortId) (s : State), s.pst x.val = 5 → (s.port x.val).downAt + 1000000 ≤ s.ftPort x.val →
    ∃ t, exec (.downWaitExpiry x) s = .next t ∧ t.mem = s.mem ∧ t.queues = s.queues
      ∧ t.pst x.val = (if s.lampSt (portPart x.val) = 2 ∧ s.partDark (portPart x.val) = false ∧ s.flag F.vxPortCtrl_enable x.val = true
          then 1 else 0))
  ∧ (∀ (x : PortId) (s : State), (s.pst x.val ≠ 5 ∨ s.ftPort x.val < (s.port x.val).downAt + 1000000) →
    exec (.downWaitExpiry x) s = .next (settle s))
  ∧ (∀ (x : PortId) (s : State), s.pst x.val = 1 → s.portLight x.val = true →
    ∃ t, exec (.portTrained x) s = .next t ∧ t.pst x.val = 2 ∧ t.rd F.vxPortState_locked x.val = 255
      ∧ t.port x.val = { lastGood := s.ftPort x.val } ∧ t.mem = s.mem ∧ t.queues = s.queues)
  ∧ (∀ (x : PortId) (s : State), (s.pst x.val ≠ 1 ∨ s.portLight x.val = false) → exec (.portTrained x) s = .next (settle s))
  ∧ (∀ (x : PortId) (s : State), s.pst x.val = 2 → (s.port x.val).echoed = false →
    (∀ a, (s.port x.val).helloAt = some a → a + 1000000 ≤ s.ftPort x.val) →
    ∃ t m h, exec (.helloSend x) s = .next t ∧ (t.port x.val).nonce = Config.random s.freeCtr % 2 ^ 128
      ∧ (t.port x.val).helloAt = some (s.ftPort x.val) ∧ (t.port x.val).out = (s.port x.val).out ++ [m] ∧ m.msg = .hello h
      ∧ h.serial = s.rd F.hfVxSerial_serial 0 ∧ h.port = x.val ∧ h.nonce = Config.random s.freeCtr % 2 ^ 128
      ∧ h.peerNonce = (s.port x.val).peerNonce)
  ∧ (∀ (x : PortId) (s : State) (a : Nat), (s.pst x.val ≠ 2 ∨ (s.port x.val).echoed = true
      ∨ (s.port x.val).helloAt = some a ∧ s.ftPort x.val < a + 1000000) → exec (.helloSend x) s = .next (settle s))
  ∧ (∀ (x : PortId) (dst : Nat) (h : Hello) (s : State), s.mySerial dst = true → s.pst x.val = 2 →
    ∃ t, exec (.hello ⟨x, dst⟩ h) s = .next t
      ∧ t.rd F.vxPortPeer_peerSerial x.val = h.serial % 2 ^ 64 ∧ t.rd F.vxPortPeerId_peerPort x.val = h.port % 64
      ∧ (t.port x.val).peerNonce = h.nonce ∧ t.pst x.val = 2
      ∧ (h.peerNonce = (s.port x.val).nonce ∧ (s.port x.val).helloAt.isSome = true →
          (t.port x.val).hello = some h ∧ (t.port x.val).echoed = true)
      ∧ (h.peerNonce ≠ (s.port x.val).nonce ∨ (s.port x.val).helloAt = none →
          (t.port x.val).hello = (s.port x.val).hello ∧ (t.port x.val).echoed = (s.port x.val).echoed))
  ∧ (∀ (x : PortId) (dst : Nat) (h : Hello) (s : State), s.mySerial dst = true → s.pst x.val = 4 →
    h.serial ≠ s.rd F.vxPortPeer_peerSerial x.val → ∃ t, exec (.hello ⟨x, dst⟩ h) s = .next t ∧ t.pst x.val = 5)
  ∧ (∀ (x : PortId) (dst : Nat) (h : Hello) (s : State), (s.mySerial dst = false ∨ s.pst x.val ≠ 2 ∧ s.pst x.val ≠ 4
      ∨ s.pst x.val = 4 ∧ h.serial = s.rd F.vxPortPeer_peerSerial x.val) → exec (.hello ⟨x, dst⟩ h) s = .next (settle s))
  ∧ (∀ (x : PortId) (c : List Nat) (s : State),
    exec (.cert x c) s = .next (settle (if s.pst x.val = 2 then s.setPort x.val { s.port x.val with chain := some c } else s)))
  ∧ (∀ (x : PortId) (h : Hello) (c : List Nat) (s : State), s.pst x.val = 2 → (s.port x.val).hello = some h → s.chainOf x.val = some c →
    (s.port x.val).echoed = true → s.lampGo x.val = true →
    ∃ t ok, exec (.peerVerdict x) s = .next t ∧ ok = (Config.verify 0 [] c c && Config.verify 1 c (helloMsg h) h.sig)
      ∧ t.pst x.val = (if ok || s.flag F.hfVxCtrl_allowUntrusted 0 then 4 else 3) ∧ t.rd F.vxPortState_trusted x.val = (if ok then 1 else 0)
      ∧ t.tallies.length = s.tallies.length + 1 ∧ t.mem = s.mem)
  ∧ (∀ (x : PortId) (s : State), (s.pst x.val ≠ 2 ∨ (s.port x.val).hello = none ∨ s.chainOf x.val = none ∨ (s.port x.val).echoed = false
      ∨ s.lampGo x.val = false) → exec (.peerVerdict x) s = .next (settle s))

/-- Routing: a newer advertisement enters the database and a full one counts it, the module's own is refreshed, an old one leaves, a
packet without hops left, or without a usable port, is dropped and counted and another goes to its port with one hop less, and a new
module ID is taken unless a booking stands (R333, R334, R335, R339, R340). -/
def Obligations.RoutingEventsComplete : Prop :=
  (∀ (x : PortId) (dst : Nat) (l : Lsa) (s : State), s.mySerial dst = true → s.portUp x.val = true → s.lsaNewer l = true →
    (s.lsdbRoom l.origin = true → ∃ t, exec (.lsa ⟨x, dst⟩ l) s = .next t ∧ ({ lsa := l, at_ := s.ft } : LsdbEntry) ∈ t.lsdb
      ∧ (∀ e ∈ s.lsdb, e.lsa.origin ≠ l.origin → e ∈ t.lsdb)
      ∧ t.rd F.hfVxStat_lsdbEntries 0 = t.lsdb.length % 2 ^ F.hfVxStat_lsdbEntries.len)
    ∧ (s.lsdbRoom l.origin = false → exec (.lsa ⟨x, dst⟩ l) s = .next (settle (s.inc F.hfVxStat_lsdbFull 0))))
  ∧ (∀ (x : PortId) (dst : Nat) (l : Lsa) (s : State), (s.mySerial dst = false ∨ s.portUp x.val = false ∨ s.lsaNewer l = false) →
    exec (.lsa ⟨x, dst⟩ l) s = .next (settle s))
  ∧ (∀ s : State, s.lsaAt + 30000000000 ≤ s.ft → s.flag F.hfVxCtrl_floodEn 0 = true →
    ∃ t, exec .lsaRefresh s = .next t ∧ t.lsaAt = s.ft ∧ t.lsaSeq = (s.lsaSeq + 1) % 2 ^ 32
      ∧ (s.lsdbRoom (s.rd F.hfVxSerial_serial 0) = true → ({ lsa := s.ownLsa, at_ := s.ft } : LsdbEntry) ∈ t.lsdb)
      ∧ (s.lsdbRoom (s.rd F.hfVxSerial_serial 0) = false → t.lsdb = s.lsdb
          ∧ t.rd F.hfVxStat_lsdbFull 0 = satAdd F.hfVxStat_lsdbFull.len (s.rd F.hfVxStat_lsdbFull 0) 1))
  ∧ (∀ s : State, (s.ft < s.lsaAt + 30000000000 ∨ s.flag F.hfVxCtrl_floodEn 0 = false) → exec .lsaRefresh s = .next (settle s))
  ∧ (∀ (k : Nat) (s : State) (e : LsdbEntry), s.lsdb[k]? = some e →
    exec (.lsaExpiry k) s = .next (settle (if e.at_ + 120000000000 ≤ s.ft then s.setLsdb (dropNth s.lsdb k) else s)))
  ∧ (∀ (x : PortId) (s : State) (cls : Nat) (b : List Byte) (rest : List (Nat × List Byte)), (s.port x.val).fwd = (cls, b) :: rest →
    (bits (packetP0 b) 36 5 = 0 → ∃ t, exec (.packetForward x) s = .next t ∧ (t.port x.val).fwd = rest
      ∧ t.rd F.hfVxStat_ttlDrop 0 = satAdd F.hfVxStat_ttlDrop.len (s.rd F.hfVxStat_ttlDrop 0) 1)
    ∧ (bits (packetP0 b) 36 5 ≠ 0 → s.routeOf cls (packetP0 b) (leNat ((b.drop 8).take 8)) = none →
      ∃ t, exec (.packetForward x) s = .next t ∧ (t.port x.val).fwd = rest
      ∧ t.rd F.hfVxStat_noRoute 0 = satAdd F.hfVxStat_noRoute.len (s.rd F.hfVxStat_noRoute 0) 1)
    ∧ (∀ y, bits (packetP0 b) 36 5 ≠ 0 → s.routeOf cls (packetP0 b) (leNat ((b.drop 8).take 8)) = some y →
      ∃ t m, exec (.packetForward x) s = .next t ∧ (t.port x.val).fwd = rest ∧ (t.port y).out = (s.port y).out ++ [m]
        ∧ m.msg = .packet cls (leBytes 8 (putBits (packetP0 b) 36 5 (bits (packetP0 b) 36 5 - 1)) ++ b.drop 8)
        ∧ ∀ r i, r ≠ .hfBoard → t.reg r i = s.reg r i))
  ∧ (∀ (f : Func) (v : Word64) (s : State), s.gate f .hfVxId 0 true = .ok →
    (s.anyBooked = true → exec (.vxIdWrite f v) s = .next (settle (s.wr F.hfVxId_idRefused 0 1)))
    ∧ (s.anyBooked = false → ∃ t, exec (.vxIdWrite f v) s = .next t ∧ t.rd F.hfVxId_id 0 = bits v.toNat 0 17
      ∧ t.rd F.hfVxId_idValid 0 = bits v.toNat 17 1 ∧ t.rd F.hfVxId_idRefused 0 = 0))

/-- Bookings: word 0 is written while the entry is FREE or REVOKED and a REVOKED entry is FREE then, activation sends CONFIRM or is refused on a
port that is not UP, a confirmation passes or fails at each entry, its answers and its timeout end it, a revocation marks the entry REVOKED
with its cause, drops what is on its way and, for each accepted transfer, leaves the end to its tick, and a slot of a standing booking is
not written; an event that does not concern the entry changes nothing (R343, R344, R349). -/
def Obligations.BookingsComplete : Prop :=
  (∀ (f : Func) (b : BookId) (v : Word64) (s u : State), s.gate f .hfVxBook0 b.val true = .ok →
    u = s.setReg .hfVxBook0 b.val (putBits (putBits (softWrite .hfVxBook0 (s.reg .hfVxBook0 b.val) v.toNat) 4 2 0) 0 2 0) →
    (bits v.toNat 4 2 = 0 → (s.bookSt b.val = 0 ∨ s.bookSt b.val = 3 → exec (.bookEntryWrite f b v) s = .next (settle u))
      ∧ (s.bookSt b.val = 1 ∨ s.bookSt b.val = 2 → exec (.bookEntryWrite f b v) s = .next (settle s)))
    ∧ (bits v.toNat 4 2 = 1 → (s.bookSt b.val = 1 ∨ s.bookSt b.val = 2 → exec (.bookActivate f b v) s = .next (settle s))
      ∧ (s.bookSt b.val = 0 ∨ s.bookSt b.val = 3 → bits v.toNat 2 2 ≠ 0 → exec (.bookActivate f b v) s = .next (settle u)))
    ∧ (bits v.toNat 4 2 = 2 → s.bookSt b.val = 0 ∨ s.bookSt b.val = 3 → exec (.bookRevoke f b v) s = .next (settle u)))
  ∧ (∀ (f : Func) (b : BookId) (v : Word64) (s : State), s.gate f .hfVxBook0 b.val true = .ok → bits v.toNat 4 2 = 1 →
    s.bookSt b.val = 0 ∨ s.bookSt b.val = 3 → bits v.toNat 2 2 = 0 →
    ∃ t, exec (.bookActivate f b v) s = .next t ∧ t.rd F.hfVxBook0_outPort b.val = bits v.toNat 14 6
      ∧ mget t.bookAt b.val = some s.ft
      ∧ (s.portUp (bits v.toNat 14 6) = true → t.bookSt b.val = 1 ∧ t.rd F.hfVxBook0_activate b.val = 1 ∧ t.tallies = s.tallies)
      ∧ (s.portUp (bits v.toNat 14 6) = false → t.bookSt b.val = 0 ∧ t.rd F.hfVxBook0_activate b.val = 0
          ∧ t.rd F.hfVxBook1_cause b.val = 6 ∧ t.tallies.length = s.tallies.length + 1))
  ∧ (∀ (x : PortId) (b : BookId) (prev lat links : Nat) (slots : List Nat) (s : State) (why sh o : Nat),
    s.confirmFault x.val b.val prev lat links slots = why → sh = s.rd F.hfVxBook0_shift b.val → o = s.rd F.hfVxBook0_outPort b.val →
    (why ≠ 0 → exec (.confirm x b prev lat links slots) s = .next (settle (s.portSend x.val 0 (.refused prev links why))))
    ∧ (why = 0 → s.bookRole b.val = 1 → exec (.confirm x b prev lat links slots) s = .next (settle ((s.wr F.hfVxBook0_state b.val 1).portSend o 0
        (.confirm (s.rd F.hfVxBook0_nextIndex b.val) b.val (lat + 32 * sh) (links + 1) (s.slotsOf o b.val)))))
    ∧ (why = 0 → s.bookRole b.val ≠ 1 → exec (.confirm x b prev lat links slots) s = .next (settle ((s.wr F.hfVxBook0_state b.val 2).portSend x.val 0
        (.confirmed prev (lat + s.rd F.vxPortDelay_delay x.val + 200) links))))
    ∧ (why = 0 → ∃ t, exec (.confirm x b prev lat links slots) s = .next t
      ∧ t.bookSt b.val = (if s.bookRole b.val = 1 then 1 else 2) ∧ t.bookRole b.val = s.bookRole b.val
      ∧ ∀ r i, (r ≠ .hfVxBook0 ∨ i ≠ b.val) → r ≠ .hfBoard → t.reg r i = s.reg r i))
  ∧ (∀ (x : PortId) (b : BookId) (lat links : Nat) (s : State), s.bookSt b.val = 1 → s.rd F.hfVxBook0_outPort b.val = x.val →
    s.bookRole b.val ≤ 1 → ∃ t, exec (.confirmed x b lat links) s = .next t ∧ t.bookSt b.val = 2
      ∧ (s.bookRole b.val = 0 → t.rd F.hfVxBook1_pathLat b.val = lat % 2 ^ 16 ∧ t.rd F.hfVxBook1_hops b.val = links % 16
        ∧ t.rd F.hfVxBook0_activate b.val = 0 ∧ t.tallies.length = s.tallies.length + 1)
      ∧ (s.bookRole b.val = 1 → t = settle ((s.wr F.hfVxBook0_state b.val 2).portSend (s.rd F.hfVxBook0_inPort b.val) 0
          (.confirmed (s.rd F.hfVxBook0_prevIndex b.val) lat links))))
  ∧ (∀ (x : PortId) (b : BookId) (hop reason : Nat) (s : State), s.bookSt b.val = 1 → s.rd F.hfVxBook0_outPort b.val = x.val →
    s.bookRole b.val ≤ 1 → ∃ t, exec (.refused x b hop reason) s = .next t ∧ t.bookSt b.val = 0
      ∧ (s.bookRole b.val = 0 → t.rd F.hfVxBook1_cause b.val = reason % 256 ∧ t.rd F.hfVxBook0_activate b.val = 0
          ∧ t.tallies.length = s.tallies.length + 1)
      ∧ (s.bookRole b.val = 1 → t = settle ((s.wr F.hfVxBook0_state b.val 0).portSend (s.rd F.hfVxBook0_inPort b.val) 0
          (.refused (s.rd F.hfVxBook0_prevIndex b.val) hop reason))))
  ∧ (∀ (x : PortId) (b : BookId) (a c : Nat) (s : State), (s.bookSt b.val ≠ 1 ∨ s.rd F.hfVxBook0_outPort b.val ≠ x.val ∨ 2 ≤ s.bookRole b.val) →
    exec (.confirmed x b a c) s = .next (settle s) ∧ exec (.refused x b a c) s = .next (settle s))
  ∧ (∀ (b : BookId) (s : State), s.bookSt b.val = 1 → s.bookRole b.val = 0 → mgetD s.bookAt b.val 0 + 1000000 ≤ s.ft →
    ∃ t, exec (.bookConfirmTimeout b) s = .next t ∧ t.bookSt b.val = 0 ∧ t.rd F.hfVxBook1_cause b.val = 1
      ∧ t.rd F.hfVxBook0_activate b.val = 0 ∧ t.tallies.length = s.tallies.length + 1)
  ∧ (∀ (b : BookId) (s : State), (s.bookSt b.val ≠ 1 ∨ s.bookRole b.val ≠ 0 ∨ s.ft < mgetD s.bookAt b.val 0 + 1000000) →
    exec (.bookConfirmTimeout b) s = .next (settle s))
  ∧ (∀ (i : Instr) (b cause now : Nat) (s : State), s.bookSt b = 1 ∨ s.bookSt b = 2 → now = s.ftPort (s.rd F.hfVxBook0_outPort b) →
    ((∃ f k v, i = .bookRevoke f k v ∧ b = k.val ∧ cause = 2 ∧ bitAt v.toNat 5 = true ∧ s.gate f .hfVxBook0 k.val true = .ok)
      ∨ (∃ x k, i = .revoke x k cause ∧ b = k.val ∧ s.bookRole b ≠ 2 ∧ s.rd F.hfVxBook0_outPort b = x.val)) →
    (s.bookRole b = 0 → ∃ u, exec i s = .next (settle ((s.transfers.filter (fun t => t.book == b)).foldl (fun s t => s.transferHit cause now t) u))
      ∧ u.bookSt b = 3 ∧ u.rd F.hfVxBook1_cause b = cause % 256 ∧ u.transfers = s.transfers)
    ∧ ((∀ t ∈ s.transfers, t.book = b → t.at_ ≠ now) → ∃ t, exec i s = .next t ∧ t.bookSt b = 3 ∧ t.rd F.hfVxBook1_cause b = cause % 256
      ∧ t.rd F.hfVxBook0_activate b = 0 ∧ t.incoming = s.incoming.filter (fun i => i.book != b) ∧ t.tallies.length = s.tallies.length + 1
      ∧ (s.bookRole b = 0 → ∀ tr ∈ s.transfers, tr.book = b → { tr with rev := some (tr.rev.getD cause) } ∈ t.transfers)
      ∧ (s.bookRole b ≠ 0 → t.transfers = s.transfers ∧ ∀ y ∈ (t.port (s.rd F.hfVxBook0_outPort b)).transit, y.book ≠ b)))
  ∧ (∀ (x : PortId) (b : BookId) (cause : Nat) (s : State),
    (s.bookRole b.val = 2 ∨ s.rd F.hfVxBook0_outPort b.val ≠ x.val ∨ s.bookSt b.val = 0 ∨ s.bookSt b.val = 3) →
    exec (.revoke x b cause) s = .next (settle s))
  ∧ (∀ (f : Func) (x : PortId) (k : MarkId) (v : Word64) (s : State) (i : Nat), i = x.val * 4096 + k.val →
    s.gate f .vxPortCal i true = .ok →
    (s.flag F.vxPortCal_valid i = false ∨ s.bookSt (s.rd F.vxPortCal_booking i) = 0 ∨ s.bookSt (s.rd F.vxPortCal_booking i) = 3 →
      exec (.calWrite f x k v) s = .next (settle (s.softWr .vxPortCal i v.toNat)))
    ∧ (s.flag F.vxPortCal_valid i = true → s.bookSt (s.rd F.vxPortCal_booking i) = 1 ∨ s.bookSt (s.rd F.vxPortCal_booking i) = 2 →
      exec (.calWrite f x k v) s = .next (settle s)))

/-- Flits and transfers: a flit that fails its check is asked for again and the fourth failure in a row takes the link down, one in order
advances the receive number and goes on by its kind, one ahead of it is held, a position sends one flit, an offer is accepted into booked
slots with a deadline or refused with a status of Table 12-8, and a transfer ends with its ACK, or at the end of its last tick
(R325, R328, R330, R346, R348, R350). -/
def Obligations.FlitsAndTransfersComplete : Prop :=
  (∀ (x : PortId) (b : List Byte) (errs : List Nat) (was pos due len n : Nat) (s u : State), s.pst x.val ≠ 0 → s.pst x.val ≠ 5 →
    u = (s.codewords x.val errs).2 → ((s.codewords x.val errs).1 = true ∨ flitGood b = false) →
    n = (if was = (s.port x.val).rxNext then (s.port x.val).fails + 1 else (s.port x.val).fails) →
    (n < 4 → ∃ t, exec (.flitReceive x b errs was pos due len) s = .next t
      ∧ (t.port x.val).want = true ∧ (t.port x.val).fails = n ∧ (t.port x.val).rxNext = (s.port x.val).rxNext ∧ t.pst x.val = s.pst x.val
      ∧ ((s.port x.val).fecLeft = 0 → t.rd F.vxPortErr_fecUnc x.val = satAdd F.vxPortErr_fecUnc.len (s.rd F.vxPortErr_fecUnc x.val)
            ((errs.take 8).filter (fun e => decide (15 < e))).length
          ∧ t.rd F.vxPortErr_fecCorr x.val = satAdd F.vxPortErr_fecCorr.len (s.rd F.vxPortErr_fecCorr x.val)
            ((errs.take 8).filter (fun e => e != 0 && decide (e ≤ 15))).length)
      ∧ ((s.port x.val).fecLeft ≠ 0 → ∀ r i, r ≠ .hfBoard → t.reg r i = s.reg r i))
    ∧ (4 ≤ n → exec (.flitReceive x b errs was pos due len) s
      = .next (settle ((u.setPort x.val { u.port x.val with fails := n, want := true }).portDown x.val 3))))
  ∧ (∀ (x : PortId) (b : List Byte) (errs : List Nat) (was pos due len d : Nat) (s u v w : State) (p q : Port) (f : Flit),
    s.pst x.val ≠ 0 → s.pst x.val ≠ 5 → s.codewords x.val errs = (false, u) → flitGood b = true → f = flitOf b pos due len →
    Port.acked { u.port x.val with lastGood := u.ftPort x.val } f = (q, false) → p = { q with want := q.want || (f.nack && !q.held.isEmpty) } →
    d = seqDist p.rxNext f.seq → v = u.setPort x.val { p with rxNext := (p.rxNext + 1) % 4096, asked := none, fails := 0 } →
    w = (v.flitIn x.val f).flitDrain x.val p.held.length →
    ((2048 ≤ d ∨ d = 0 ∧ f.kind = 0) → exec (.flitReceive x b errs was pos due len) s = .next (settle (u.setPort x.val p)))
    ∧ (d ≠ 0 → d < 2048 → ∃ t, exec (.flitReceive x b errs was pos due len) s = .next t
      ∧ (t.port x.val).rxNext = p.rxNext ∧ (p.want = true → (t.port x.val).want = true)
      ∧ (p.asked ≠ some p.rxNext → f.kind = 0 ∨ p.held.any (fun y => y.seq == f.seq) = false → (t.port x.val).want = true)
      ∧ (f.kind ≠ 0 → p.held.any (fun y => y.seq == f.seq) = false → (t.port x.val).held = p.held ++ [f]))
    ∧ (d = 0 → f.kind ≠ 0 → exec (.flitReceive x b errs was pos due len) s
        = .next (settle (w.setPort x.val { w.port x.val with want := (w.port x.val).want || !(w.port x.val).held.isEmpty })))
    ∧ (d = 0 → p.held = [] → f.kind = 2 ∨ f.kind = 3 → ∃ t, exec (.flitReceive x b errs was pos due len) s = .next t
      ∧ (t.port x.val).rxNext = (p.rxNext + 1) % 4096
      ∧ (s.portUp x.val = false → (t.port x.val).owedB + (t.port x.val).owedC = p.owedB + p.owedC + 1)
      ∧ (s.portUp x.val = true → f.eop = false → f.kind = 2 →
          (t.port x.val).asmB = (if f.sop = true then [] else p.asmB) ++ [f.payload.take f.fill])
      ∧ (s.portUp x.val = true → f.eop = false → f.kind = 3 →
          (t.port x.val).asmC = (if f.sop = true then [] else p.asmC) ++ [f.payload.take f.fill])))
  ∧ (∀ (x : PortId) (b : List Byte) (errs : List Nat) (was pos due len : Nat) (s u : State) (q : Port),
    s.pst x.val ≠ 0 → s.pst x.val ≠ 5 → s.codewords x.val errs = (false, u) → flitGood b = true →
    Port.acked { u.port x.val with lastGood := u.ftPort x.val } (flitOf b pos due len) = (q, true) →
    ∃ t, exec (.flitReceive x b errs was pos due len) s = .next t ∧ (2 ≤ s.pst x.val → s.pst x.val ≤ 4 → t.pst x.val = 5))
  ∧ (∀ (x : PortId) (b : List Byte) (errs : List Nat) (was pos due len : Nat) (s : State), (s.pst x.val = 0 ∨ s.pst x.val = 5) →
    exec (.flitReceive x b errs was pos due len) s = .next (settle s))
  ∧ (∀ (x : PortId) (s : State) (q : Nat) (ks : List Nat), posAt (s.ftPort x.val % 32) = some q → s.pst x.val ≠ 0 → s.pst x.val ≠ 5 →
    (s.port x.val).lastPos ≠ some (s.ftPort x.val) →
    ks = posOrder q (s.pst x.val == 4 && s.flag F.vxPortCal_valid (x.val * 4096 + s.ftPort x.val / 32 % 4096)) →
    ∃ t w, exec (.flitPosition x) s = .next t ∧ t.wire = s.wire ++ [w]
      ∧ w.port = x.val ∧ w.ft = s.ftPort x.val ∧ w.nack = (s.port x.val).want ∧ w.ack = ((s.port x.val).rxNext + 4095) % 4096
      ∧ (t.port x.val).want = false ∧ (t.port x.val).lastPos = some (s.ftPort x.val)
      ∧ (s.flitPick x.val (s.ftPort x.val / 32) q ks = none → w.kind = 0 ∧ w.seq = (s.port x.val).txSeq
          ∧ (t.port x.val).txSeq = (s.port x.val).txSeq)
      ∧ (∀ y v, s.flitPick x.val (s.ftPort x.val / 32) q ks = some (y, v) →
          w.kind = y.kind ∧ w.seq = y.seq ∧ w.next = y.next ∧ w.xfer = y.xfer ∧ w.offset = y.offset ∧ t.transfers = v.transfers))
  ∧ (∀ (x : PortId) (s : State), (posAt (s.ftPort x.val % 32) = none ∨ s.pst x.val = 0 ∨ s.pst x.val = 5
      ∨ (s.port x.val).lastPos = some (s.ftPort x.val)) → exec (.flitPosition x) s = .next (settle s))
  ∧ (∀ (p : PartId) (s u : State) (o : Offer) (x : Nat) (slots : List Nat) (start : Option Nat), s.offers.find? (fun o => o.part == p.val) = some o →
    u = { s with offers := s.offers.filter (fun y => y.id != o.id) } → x = s.rd F.hfVxBook0_outPort o.book → slots = s.slotsOf x o.book →
    start = nextBooked slots (max (ceilDiv (s.ftPort x + 64) 32) (mgetD s.taken o.book 0)) →
    ((s.bookSt o.book ≠ 2 ∨ s.bookRole o.book ≠ 0) → exec (.transferOffer p) s = .next (settle (u.offerEnd o.id 0x90)))
    ∧ (s.bookSt o.book = 2 → s.bookRole o.book = 0 → s.rd F.hfVxBook0_part o.book ≠ p.val →
      exec (.transferOffer p) s = .next (settle (u.offerEnd o.id 0x91)))
    ∧ (s.bookSt o.book = 2 → s.bookRole o.book = 0 → s.rd F.hfVxBook0_part o.book = p.val → start = none →
      exec (.transferOffer p) s = .next (settle (u.offerEnd o.id 0x93)))
    ∧ (∀ f k last ack, s.bookSt o.book = 2 → s.bookRole o.book = 0 → s.rd F.hfVxBook0_part o.book = p.val → start = some f →
      k = ceilDiv (ceilDiv o.data.length 240) 24 → last = kthEnd slots f k →
      ack = 32 * last + s.rd F.hfVxBook1_pathLat o.book + 2000 + s.rd F.hfVxBook1_pathLat o.book + 64 * s.rd F.hfVxBook1_hops o.book →
      (o.deadline.getD (ack + 1) ≤ ack → exec (.transferOffer p) s = .next (settle (u.offerEnd o.id 0x93)))
      ∧ (ack < o.deadline.getD (ack + 1) → 128 ≤ (s.transfers.filter (fun t => t.book == o.book)).length →
        exec (.transferOffer p) s = .next (settle (u.offerEnd o.id 0x94)))
      ∧ (ack < o.deadline.getD (ack + 1) → (s.transfers.filter (fun t => t.book == o.book)).length < 128 →
        ∃ t tr, exec (.transferOffer p) s = .next t ∧ t.transfers = s.transfers ++ [tr] ∧ tr.id = o.id ∧ tr.book = o.book ∧ tr.first = f
          ∧ tr.last = last ∧ tr.xfer = mgetD s.xferNext o.book 0 ∧ tr.deadline = o.deadline.getD (ack + 1) ∧ tr.at_ = s.ftPort x
          ∧ mgetD t.xferNext o.book 0 = (tr.xfer + 1) % 256 ∧ mgetD t.taken o.book 0 = last ∧ t.offers = u.offers)))
  ∧ (∀ (p : PartId) (s : State), s.offers.find? (fun o => o.part == p.val) = none → exec (.transferOffer p) s = .next (settle s))
  ∧ (∀ (x : PortId) (b : BookId) (n : Nat) (s : State),
    ((s.bookRole b.val = 2 ∨ s.rd F.hfVxBook0_outPort b.val ≠ x.val) → exec (.transferAck x b n) s = .next (settle s))
    ∧ (s.bookRole b.val = 1 → s.rd F.hfVxBook0_outPort b.val = x.val → exec (.transferAck x b n) s = .next (settle
        (if s.bookSt b.val = 2 then s.portSend (s.rd F.hfVxBook0_inPort b.val) 0 (.ack (s.rd F.hfVxBook0_prevIndex b.val) n) else s)))
    ∧ (∀ tr, s.bookRole b.val = 0 → s.rd F.hfVxBook0_outPort b.val = x.val →
      s.transfers.find? (fun t => t.book == b.val && t.xfer == n) = some tr →
      (tr.deadline ≤ s.ftPort x.val → exec (.transferAck x b n) s = .next (settle s))
      ∧ (s.ftPort x.val < tr.deadline → ∃ t, exec (.transferAck x b n) s = .next t
        ∧ t.transfers = s.transfers.filter (fun y => y.id != tr.id)
        ∧ t.rd F.hfVxBook2_xferOk b.val = satAdd F.hfVxBook2_xferOk.len (s.rd F.hfVxBook2_xferOk b.val) 1)))
  ∧ (∀ (id : Nat) (s : State) (tr : Transfer), s.transfers.find? (fun t => t.id == id) = some tr →
    (tr.deadline ≤ s.ftPort (s.rd F.hfVxBook0_outPort tr.book) + 1 → tr.rev = none → exec (.transferDeadline id) s
      = .next (settle { s with transfers := s.transfers.map (fun y => if y.id == id then { y with rev := some 3 } else y) }))
    ∧ ((s.ftPort (s.rd F.hfVxBook0_outPort tr.book) + 1 < tr.deadline ∨ tr.rev ≠ none) → exec (.transferDeadline id) s = .next (settle s)))
  ∧ (∀ (id : Nat) (s : State), s.transfers.find? (fun t => t.id == id) = none → exec (.transferDeadline id) s = .next (settle s))
  ∧ (∀ (s : State) (tr : Transfer) (c : Nat), s.pending = [] → s.transfers = [tr] → tr.rev = some c →
    s.colls.find? (fun e => e.2.offers.contains tr.id) = none →
    ∃ t, step s = .next t ∧ t.transfers = [] ∧ mget t.xferEnds tr.book = some (0x92, c)
      ∧ t.rd F.hfVxBook2_xferRevoked tr.book = satAdd F.hfVxBook2_xferRevoked.len (s.rd F.hfVxBook2_xferRevoked tr.book) 1)

/-- Collectives: a COLL reads its descriptor and begins, faults with CE_DESC or CE_RANGE, or waits for its rows; its local value is formed and
goes on to the children, up, or, at a root with nobody to await, into the result; the awaited child's message is combined, taken as late, or
faults with CE_MISMATCH; a silent child is dropped from a vote and faults any other command with CE_MISSING; the result from above is written
and passed on; the end completes the command; and a landing entry is written while its booking does not stand (R354 to R377). -/
def Obligations.CollectivesComplete : Prop :=
  (∀ (p : PartId) (s u : State) (x : Started) (cp cx va : Nat), s.oldest (unitColl p.val) 0x80 = some x →
    mget s.colls p.val = none → s.queueUp (unitColl p.val) = true → s.cmdCtx (unitColl p.val) x.e = (cp, cx) →
    va = bits x.e.cmd.w4 0 57 → u = (s.ceRows p.val (cp, cx) false [va, va + 512] []).2 →
    (∀ ds c, (s.ceRows p.val (cp, cx) false [va, va + 512] []).1 = .ok ds →
      c = { id := x.id, desc := (chunks 8 128 (u.rowBytes ds)).map leNat, base := x.prog.base, step := bits x.e.cmd.w5 0 32, ctxPart := cp,
            ctx := cx } →
      (c.descBad = false → u.ceRangeBad p.val c = false → exec (.coll p) s = .next (settle { u with colls := mput u.colls p.val c }))
      ∧ (c.descBad = true → exec (.coll p) s = .next (settle (u.opFail (unitColl p.val) x 0x81 0)))
      ∧ (c.descBad = false → u.ceRangeBad p.val c = true → exec (.coll p) s = .next (settle (u.opFail (unitColl p.val) x 0x82 0))))
    ∧ (∀ st sub, (s.ceRows p.val (cp, cx) false [va, va + 512] []).1 = .stop st sub →
      exec (.coll p) s = .next (settle (u.opFail (unitColl p.val) x st sub)))
    ∧ ((s.ceRows p.val (cp, cx) false [va, va + 512] []).1 = .wait → exec (.coll p) s = .next (settle u)))
  ∧ (∀ (p : PartId) (s : State), (s.oldest (unitColl p.val) 0x80 = none ∨ (mget s.colls p.val).isSome = true ∨ s.queueUp (unitColl p.val) = false) →
    exec (.coll p) s = .next (settle s))
  ∧ (∀ (p : PartId) (s s1 s2 : State) (c d : Coll) (ds sc raw loc acc : List Nat) (srcs : List (List Nat)), mget s.colls p.val = some c →
    s.queueUp (unitColl p.val) = true → c.phase = 0 → s1 = (s.ceRows p.val (c.ctxPart, c.ctx) false c.srcVas []).2 →
    (s.ceRows p.val (c.ctxPart, c.ctx) false c.srcVas []).1 = .ok ds →
    s2 = (s1.ceRows p.val (c.ctxPart, c.ctx) true c.scratchVas []).2 → (s1.ceRows p.val (c.ctxPart, c.ctx) true c.scratchVas []).1 = .ok sc →
    srcs = (chunks c.srcRows c.nsrc ds).map (fun l => ceUnpack (cvtWidth c.inFmt) c.srcElems (s2.rowBytes l)) → raw = srcs.headD [] →
    loc = (if c.reduces = true then ceLocal c.red (srcs.map (fun l => l.map (fun e => bits32 (cvtDecode c.inFmt e)))) else []) →
    acc = (if c.votes = true then loc.map ceVote else if c.reduces = true then loc
      else if c.op = 2 then setRange (List.replicate c.elements 0) c.local_.1 raw else raw) → d = { c with phase := 1, voters := 1, blocks := [] } →
    ∃ t, exec (.localValueFormed p) s = .next t
      ∧ (c.op ≠ 4 → c.nchild ≠ 0 → c.upward = true → mget t.colls p.val = some { d with acc := acc }
          ∧ t.rd F.partCeStat_nanVotes p.val = satAdd F.partCeStat_nanVotes.len (s2.rd F.partCeStat_nanVotes p.val)
            (if c.votes = true then (loc.filter (fun e => (f32 e).isNan)).length else 0))
      ∧ (c.op ≠ 4 → c.op ≠ 3 → c.nchild = 0 → c.root = false → ∃ o, t.offers = s2.offers ++ [o] ∧ o.part = p.val ∧ o.book = bits (c.d 9) 0 12
          ∧ o.deadline = c.sendDl ∧ mget t.colls p.val = some { d with phase := 2, acc := [], offers := c.offers ++ [o.id] })
      ∧ (c.op = 3 → c.root = false → t.offers = s2.offers ∧ mget t.colls p.val = some { d with phase := 2, acc := [] })
      ∧ (c.op = 4 → c.nchild ≠ 0 → ∃ e, mget t.colls p.val = some e ∧ e.phase = 1 ∧ e.acc = []
          ∧ e.blocks = List.replicate c.nchild [] ++ [(raw.drop (c.nchild * c.local_.2)).take c.local_.2]
          ∧ e.offers.length = c.offers.length + c.nchild ∧ t.offers.length = s2.offers.length + c.nchild))
  ∧ (∀ (p : PartId) (s u v : State) (c : Coll) (es : List Nat), mget s.colls p.val = some c → s.queueUp (unitColl p.val) = true → c.phase = 1 →
    (c.nchild = 0 ∨ c.upward = false) → c.root = true → v = (if c.op = 4 then s.fresh.2 else s) →
    u = (v.ceRows p.val (c.ctxPart, c.ctx) true c.copyVas []).2 → (v.ceRows p.val (c.ctxPart, c.ctx) true c.copyVas []).1 = .ok es →
    ∃ t e, exec (.localValueFormed p) s = .next t ∧ mget t.colls p.val = some e ∧ e.phase = 3 ∧ e.acc = []
      ∧ e.offers.length = c.offers.length + (if c.op = 4 then 0 else c.nchild))
  ∧ (∀ (p : PartId) (s s1 : State) (c : Coll), mget s.colls p.val = some c → s.queueUp (unitColl p.val) = true → c.phase = 0 →
    s1 = (s.ceRows p.val (c.ctxPart, c.ctx) false c.srcVas []).2 →
    ((s.ceRows p.val (c.ctxPart, c.ctx) false c.srcVas []).1 = .wait → exec (.localValueFormed p) s = .next (settle s1))
    ∧ (∀ st sub, (s.ceRows p.val (c.ctxPart, c.ctx) false c.srcVas []).1 = .stop st sub →
      exec (.localValueFormed p) s = .next (settle (s1.collFail p.val st sub))))
  ∧ (∀ (p : PartId) (s : State), (mget s.colls p.val = none ∨ s.queueUp (unitColl p.val) = false) →
    exec (.localValueFormed p) s = .next (settle s))
  ∧ (∀ (p : PartId) (s u v w : State) (c : Coll) (x : Started) (k : Nat) (m : LandMsg) (ms : List LandMsg) (r : CeRows × State)
      (n j late : Nat), mget s.colls p.val = some c → s.startedOf (unitColl p.val) c.id = some x → j = c.child →
    s.landOf p.val (c.upIn j) = some k → (s.land k).msgs = m :: ms → c.awaits = true → s.queueUp (unitColl p.val) = true →
    (c.childWait = 0 ∨ m.at_ ≤ c.base + c.childWait) → r = s.landRead p.val k m → u = r.2 → n = (c.childShape j).2.1 →
    late = (if c.arriveRef ≠ 0 ∧ c.base + c.arriveRef < u.ftPart p.val then 1 else 0) →
    (r.1 = .wait → exec (.childMessageConsume p) s = .next (settle u))
    ∧ (∀ st sub, r.1 = .stop st sub → exec (.childMessageConsume p) s = .next (settle ((u.landPop k).ceChildFail p.val j st sub)))
    ∧ (∀ ds l bad, r.1 = .ok ds → l = (u.rowBytes ds).take m.len → bad = c.mismatch l (c.childShape j).1 n →
      (bad ≠ 0 → v = (u.landPop k).ceChildFail p.val j 0x8C bad → w = (v.inc F.partCeStat_late p.val).ceNote p.val x.e 0x0440 (j + c.step * 2 ^ 32)
          (u.ftPart p.val - (c.base + c.arriveRef)) → exec (.childMessageConsume p) s = .next (settle (if late = 1 then w else v)))
      ∧ (bad = 0 → j + 1 < c.nchild → ∃ t, exec (.childMessageConsume p) s = .next t ∧ (t.land k).msgs = ms
          ∧ mget t.colls p.val = some { c.combine j l with child := j + 1 } ∧ t.mem = u.mem
          ∧ t.rd F.partCeStat_late p.val = satAdd F.partCeStat_late.len (u.rd F.partCeStat_late p.val) late
          ∧ t.tallies.length = u.tallies.length + late)
      ∧ (bad = 0 → j + 1 = c.nchild → c.op ≠ 4 → c.root = false → ∃ t o, exec (.childMessageConsume p) s = .next t ∧ (t.land k).msgs = ms
          ∧ t.offers = u.offers ++ [o] ∧ o.book = bits (c.d 9) 0 12 ∧ o.deadline = c.sendDl
          ∧ mget t.colls p.val = some { c.combine j l with child := j + 1, phase := 2, acc := [], blocks := [], offers := c.offers ++ [o.id] })
      ∧ (bad = 0 → j + 1 = c.nchild → (c.op = 4 ∨ c.root = true) → v = (if c.op = 4 then u.fresh.2 else u) →
          ∀ es, (v.ceRows p.val (c.ctxPart, c.ctx) true c.copyVas []).1 = .ok es →
          ∃ t e, exec (.childMessageConsume p) s = .next t ∧ (t.land k).msgs = ms ∧ mget t.colls p.val = some e ∧ e.phase = 3
            ∧ e.offers.length = c.offers.length + (if c.op = 4 then 0 else c.nchild))))
  ∧ (∀ (p : PartId) (s : State) (c : Coll), (mget s.colls p.val = none
      ∨ mget s.colls p.val = some c ∧ (c.awaits = false ∨ s.queueUp (unitColl p.val) = false ∨ s.startedOf (unitColl p.val) c.id = none)) →
    exec (.childMessageConsume p) s = .next (settle s) ∧ exec (.childWaitExpiry p) s = .next (settle s))
  ∧ (∀ (p : PartId) (s : State) (c : Coll) (x : Started) (k : Option Nat) (head : List LandMsg) (j lim : Nat), mget s.colls p.val = some c →
    s.startedOf (unitColl p.val) c.id = some x → j = c.child → k = s.landOf p.val (c.upIn j) →
    head = (match k with | some k => (s.land k).msgs | none => []) → c.awaits = true → s.queueUp (unitColl p.val) = true →
    lim = c.base + c.childWait →
    ((c.childWait = 0 ∨ s.ftPart p.val ≤ lim ∨ head.head?.any (fun m => decide (m.at_ ≤ lim)) = true) →
      exec (.childWaitExpiry p) s = .next (settle s))
    ∧ (c.childWait ≠ 0 → lim < s.ftPart p.val → head.head?.any (fun m => decide (m.at_ ≤ lim)) = false →
      (c.votes = false → exec (.childWaitExpiry p) s = .next (settle (s.ceChildFail p.val j 0x8B 0)))
      ∧ (c.votes = true → j + 1 < c.nchild → ∃ t, exec (.childWaitExpiry p) s = .next t
          ∧ mget t.colls p.val = some { c with dropped := true, child := j + 1 }
          ∧ t.rd F.partCeStat_dropped p.val = satAdd F.partCeStat_dropped.len (s.rd F.partCeStat_dropped p.val) 1
          ∧ (head = [] → t.tallies.length = s.tallies.length + 1
              ∧ ∀ l, k = some l → (t.land l).drops = (s.land l).drops ++ [(c.tag, c.step)])
          ∧ (∀ l m ms, k = some l → head = m :: ms → ((t.land l).msgs = ms ∧ (t.land l).drops = (s.land l).drops)
              ∨ ((t.land l).msgs = head ∧ (t.land l).drops = (s.land l).drops ++ [(c.tag, c.step)])))
      ∧ (c.votes = true → j + 1 = c.nchild → c.root = false → ∃ t o, exec (.childWaitExpiry p) s = .next t ∧ t.offers = s.offers ++ [o]
          ∧ o.book = bits (c.d 9) 0 12 ∧ mget t.colls p.val
            = some { c with dropped := true, child := j + 1, phase := 2, acc := [], blocks := [], offers := c.offers ++ [o.id] }
          ∧ t.rd F.partCeStat_dropped p.val = satAdd F.partCeStat_dropped.len (s.rd F.partCeStat_dropped p.val) 1)))
  ∧ (∀ (p : PartId) (s u : State) (c : Coll) (x : Started) (k first n : Nat) (m : LandMsg) (ms : List LandMsg) (r : CeRows × State),
    mget s.colls p.val = some c → s.startedOf (unitColl p.val) c.id = some x → s.landOf p.val (bits (c.d 9) 12 12) = some k →
    (s.land k).msgs = m :: ms → c.phase = 2 → s.queueUp (unitColl p.val) = true → r = s.landRead p.val k m → u = r.2 →
    c.downRange c.subRange = (first, n) →
    (r.1 = .wait → exec (.downResult p) s = .next (settle u))
    ∧ (∀ st sub, r.1 = .stop st sub → exec (.downResult p) s = .next (settle ((u.landPop k).collFail p.val st sub)))
    ∧ (∀ ds bad, r.1 = .ok ds → bad = c.mismatch ((u.rowBytes ds).take m.len) 0 n →
      (bad ≠ 0 → exec (.downResult p) s = .next (settle ((u.fresh.2.landPop k).ceChildFail p.val (u.fresh.1 % 16) 0x8C bad)))
      ∧ (∀ es, bad = 0 → (u.ceRows p.val (c.ctxPart, c.ctx) true c.copyVas []).1 = .ok es →
        ∃ t e, exec (.downResult p) s = .next t ∧ (t.land k).msgs = ms ∧ mget t.colls p.val = some e ∧ e.phase = 3 ∧ e.acc = []
          ∧ e.offers.length = c.offers.length + (if c.op = 4 then 0 else c.nchild))))
  ∧ (∀ (p : PartId) (s : State), (∀ c, mget s.colls p.val = some c → c.phase ≠ 2) → exec (.downResult p) s = .next (settle s))
  ∧ (∀ (p : PartId) (s : State) (c : Coll), mget s.colls p.val = some c → exec (.collComplete p) s = .next (settle
      (if c.phase = 3 ∧ c.offers = [] then ({ s with colls := mdel s.colls p.val }).opDone (unitColl p.val) c.id else s)))
  ∧ (∀ (p : PartId) (s : State), mget s.colls p.val = none → exec (.collComplete p) s = .next (settle s))
  ∧ (∀ (f : Func) (p : PartId) (j : Fin 64) (w : Fin 2) (v : Word64) (s : State) (r : RegName), r = (if w.val = 0 then .partCeLand0 else
    .partCeLand1) → s.gate f r (landKey p.val j.val) true = .ok →
    (s.bookSt (s.rd F.partCeLand0_booking (landKey p.val j.val)) ∈ [0, 3] →
      exec (.ceLandWrite f p j w v) s = .next (settle (s.softWr r (landKey p.val j.val) v.toNat)))
    ∧ (s.bookSt (s.rd F.partCeLand0_booking (landKey p.val j.val)) ∈ [1, 2] →
      exec (.ceLandWrite f p j w v) s = .next (settle s)))

/-- Lamps: a failed laser is marked and its standby takes over, or its wavelength is dark, hours are written after 10 minutes of lit time, an
ejected Lamp is EJECTED and a lost one EMPTY, a seated one is lit if its element answers, a verdict verifies it, rejects it, or lets it run
unverified, allow_unverified is taken at once, and a laser's bias, output and temperature are shown and its end of life warned of once; an
event out of its place changes nothing (R379 to R389). -/
def Obligations.LampEventsComplete : Prop :=
  (∀ (l : BayId) (n : Fin 16) (s : State),
    (s.lampSt l.val = 2 → s.laser l.val n.val = 2 → ∃ t, exec (.laserFail l n) s = .next t ∧ t.laser l.val n.val = 3 ∧ t.lampSt l.val = 2)
    ∧ (∀ o, s.lampSt l.val = 2 → s.laser l.val n.val = 1 → o = (if n.val % 2 = 0 then n.val + 1 else n.val - 1) →
      ∃ t, exec (.laserFail l n) s = .next t ∧ t.laser l.val n.val = 3 ∧ t.lampSt l.val = 2
        ∧ (s.laser l.val o ≠ 3 → t.laser l.val o = 1 ∧ t.rd F.lampSticky_switch l.val = 1)
        ∧ (s.laser l.val o = 3 → t.laser l.val o = 3 ∧ t.rd F.lampSticky_wlDark l.val = 1))
    ∧ ((s.lampSt l.val ≠ 2 ∨ s.laser l.val n.val = 0 ∨ s.laser l.val n.val = 3) → exec (.laserFail l n) s = .next (settle s)))
  ∧ (∀ (l : BayId) (s : State) (x : Lamp) (u : Nat), mget s.lamps l.val = some x →
    u = x.unsaved + (if s.lampSt l.val = 2 then s.up - x.mark else 0) →
    (600000000000 ≤ u → ∃ t y, exec (.lampHoursWrite l) s = .next t ∧ mget t.lamps l.val = some y
      ∧ y.unsaved = 0 ∧ y.mark = s.up ∧ (∀ d ∈ y.ns, d < hour) ∧ t.lampSt l.val = s.lampSt l.val)
    ∧ (u < 600000000000 → exec (.lampHoursWrite l) s = .next (settle (s.lampSettle l.val))))
  ∧ (∀ (l : BayId) (s : State), mget s.lamps l.val = none → exec (.lampHoursWrite l) s = .next (settle s))
  ∧ (∀ (f : Func) (l : BayId) (v : Word64) (s : State), s.gate f .lampCtrl l.val true = .ok → bitAt v.toNat 1 = true →
    (s.lampSt l.val ≠ 0 → s.lampSt l.val ≠ 4 →
      ∃ t, exec (.lampEject f l v) s = .next t ∧ t.lampSt l.val = 4 ∧ t.rd F.lampState_unverifiedRun l.val = 0
        ∧ t.rd F.lampCtrl_allowUnverified l.val = v.toNat % 2 ∧ ∀ n < 16, t.laser l.val n = 0 ∨ t.laser l.val n = 3)
    ∧ ((s.lampSt l.val = 0 ∨ s.lampSt l.val = 4) → s.rd F.lampState_unverifiedRun l.val = 0 →
      exec (.lampEject f l v) s = .next (settle (s.wr F.lampCtrl_allowUnverified l.val (v.toNat % 2)))))
  ∧ (∀ (l : BayId) (s : State), s.rd F.lampState_present l.val ≠ 0 →
    ∃ t, exec (.lampSurpriseRemoval l) s = .next t ∧ t.lampSt l.val = 0 ∧ t.rd F.lampState_present l.val = 0
      ∧ mget t.lamps l.val = none ∧ t.rd F.lampState_verified l.val = 0
      ∧ t.rd F.lampSticky_surprise l.val = (if s.lampSt l.val = 4 then s.rd F.lampSticky_surprise l.val else 1))
  ∧ (∀ (l : BayId) (s : State), s.rd F.lampState_present l.val = 0 → exec (.lampSurpriseRemoval l) s = .next (settle s))
  ∧ (∀ (l : BayId) (e : Option LampElem) (s : State), s.lampSt l.val = 0 → s.board.powered = true → s.thermNow = false →
    ∃ t y, exec (.lampSeated l e) s = .next t ∧ t.rd F.lampState_present l.val = 1 ∧ mget t.lamps l.val = some y ∧ y.elem = e
      ∧ y.waiting = true ∧ y.nonce = Config.random s.freeCtr ∧ t.lampSt l.val = (if e.isNone then 1 else 2)
      ∧ t.rd F.lampState_inserts l.val = satAdd F.lampState_inserts.len (s.rd F.lampState_inserts l.val) 1)
  ∧ (∀ (l : BayId) (e : Option LampElem) (s : State), (s.lampSt l.val ≠ 0 ∨ s.board.powered = false ∨ s.thermNow = true) →
    exec (.lampSeated l e) s = .next (settle s))
  ∧ (∀ (l : BayId) (sig : List Nat) (s : State) (x : Lamp) (c : Nat), mget s.lamps l.val = some x → c = State.lampCause x sig →
    (x.waiting = false → exec (.lampVerdict l sig) s = .next (settle s))
    ∧ (x.waiting = true → ∃ t, exec (.lampVerdict l sig) s = .next t ∧ t.rd F.lampState_cause l.val = c
      ∧ (c = 0 → t.rd F.lampState_verified l.val = 1 ∧ mget t.lamps l.val = some { x with waiting := false }
          ∧ t.tallies.length = s.tallies.length + 1)
      ∧ (c ≠ 0 → t.rd F.lampState_verified l.val = s.rd F.lampState_verified l.val ∧ t.rd F.lampSticky_verifyFail l.val = 1
          ∧ (s.flag F.lampCtrl_allowUnverified l.val = true → t.lampSt l.val = 2 ∧ t.rd F.lampState_unverifiedRun l.val = 1)
          ∧ (s.flag F.lampCtrl_allowUnverified l.val = false → t.lampSt l.val = 3 ∧ t.rd F.lampState_unverifiedRun l.val = 0))))
  ∧ (∀ (l : BayId) (sig : List Nat) (s : State), mget s.lamps l.val = none → exec (.lampVerdict l sig) s = .next (settle s))
  ∧ (∀ (f : Func) (l : BayId) (v : Word64) (s : State) (run : Nat), s.gate f .lampCtrl l.val true = .ok → bitAt v.toNat 1 = false →
    run = s.rd F.lampState_unverifiedRun l.val →
    ((v.toNat % 2 = 0 → run = 0) → (v.toNat % 2 = 1 → s.lampSt l.val ≠ 3) →
      exec (.allowUnverifiedWrite f l v) s = .next (settle (s.wr F.lampCtrl_allowUnverified l.val (v.toNat % 2))))
    ∧ (v.toNat % 2 = 0 → run = 1 → ∃ t, exec (.allowUnverifiedWrite f l v) s = .next t ∧ t.lampSt l.val = 3
      ∧ t.rd F.lampState_unverifiedRun l.val = 0 ∧ t.rd F.lampCtrl_allowUnverified l.val = 0)
    ∧ (v.toNat % 2 = 1 → s.lampSt l.val = 3 → ∃ t, exec (.allowUnverifiedWrite f l v) s = .next t ∧ t.lampSt l.val = 2
      ∧ t.rd F.lampState_unverifiedRun l.val = 1 ∧ t.rd F.lampCtrl_allowUnverified l.val = 1))
  ∧ (∀ (l : BayId) (n : Fin 16) (bias power set : Nat) (temp : Int) (s : State) (i : Nat), i = l.val * 16 + n.val →
    (s.laser l.val n.val ≠ 1 → exec (.laserBiasLimit l n bias power ⟨set, temp⟩) s = .next (settle s))
    ∧ (s.laser l.val n.val = 1 → ∃ t, exec (.laserBiasLimit l n bias power ⟨set, temp⟩) s = .next t ∧ t.rd F.lampLaser0_bias i = bias % 2 ^ 16
      ∧ t.rd F.lampLaser0_power i = power % 2 ^ 16 ∧ t.laser l.val n.val = 1 ∧ t.rd F.lampState_caseTemp l.val = ofSigned 16 temp
      ∧ ((4 * bias < 5 * s.rd F.lampLaser1_biasInit i ∨ 51 * set < 50 * power ∨ 50 * power < 49 * set ∨ s.rd F.lampLaser0_eolBias i = 1) →
          t.rd F.lampLaser0_eolBias i = s.rd F.lampLaser0_eolBias i ∧ t.tallies = s.tallies)
      ∧ (5 * s.rd F.lampLaser1_biasInit i ≤ 4 * bias → 50 * power ≤ 51 * set → 49 * set ≤ 50 * power → s.rd F.lampLaser0_eolBias i = 0 →
          t.rd F.lampLaser0_eolBias i = 1 ∧ t.rd F.lampSticky_eol l.val = 1 ∧ t.tallies.length = s.tallies.length + 1)))

/-- Host accesses: a misshapen access is counted and reads ones, one outside a function's view is counted and reads zeros, BAR2 reads give
the rows' bytes and writes merge into them, a part that cannot be served is unsupported or aborted, counted and told; CXL.mem reads give a line
and track it, or its poison, wait for a full tracker or reach nothing, and writes merge into it; an AtomicOp is unsupported, and CDAT, DOE
discovery and the I3C address are answered; a module that does not serve its host does none of it (R171, R398 to R413, R513). -/
def Obligations.HostAccessesComplete : Prop :=
  (∀ (f : Func) (off w : Nat) (s s' : State), s.serves = true → breaksR7 off w = true →
    s' = (s.inc F.hfHostErr_badAccess 0).errlog off (funcNum f) 1 0 →
    exec (.bar0BadAccess f off w false) s = .next (settle { s' with reply := some (.data (List.replicate w 0xFF)) })
    ∧ exec (.bar0BadAccess f off w true) s = .next (settle s'))
  ∧ (∀ (f : Func) (off w : Nat) (wr : Bool) (s : State), s.serves = true → s.outside f off wr = true →
    exec (.vfDenied f off w wr) s = .next (settle (if wr then s.deny f off 0 else
      { s.deny f off 0 with reply := some (.data (List.replicate w 0)) })))
  ∧ (∀ (f : Func) (off w : Nat) (wr : Bool) (s : State),
    (breaksR7 off w = false → exec (.bar0BadAccess f off w wr) s = .next (settle s))
    ∧ (s.outside f off wr = false → exec (.vfDenied f off w wr) s = .next (settle s)))
  ∧ (∀ (f : Func) (off len : Nat) (sec : Bool) (s : State) (at_ : Nat → Nat), s.serves = true →
    ((∀ p ∈ rowParts off len, s.bar2Row f sec p.1 = .ok (at_ p.1) ∧ s.mem.hurt (at_ p.1 / 512 * 512) 512 = false) →
      ∃ t, exec (.bar2Read f off len sec) s = .next t
        ∧ t.reply = some (.data ((rowParts off len).flatMap (fun p => s.mem.rdN (at_ p.1) p.2))) ∧ t.mem = s.mem)
    ∧ (rowParts off len = [(off, len)] →
      (s.bar2Row f sec off = .denied → exec (.bar2Read f off len sec) s = .next (settle { s.bar2Fail f off true with reply := some .unsupported }))
      ∧ (s.bar2Row f sec off = .abort → exec (.bar2Read f off len sec) s = .next (settle { s.bar2Fail f off false with reply := some .aborted }))
      ∧ (∀ d, s.bar2Row f sec off = .ok d → s.mem.hurt (d / 512 * 512) 512 = true → exec (.bar2Read f off len sec) s
          = .next (settle { (s.hostUnc d).bar2Fail f off false with reply := some .aborted }))))
  ∧ (∀ (f : Func) (off : Nat) (data : List (Option Byte)) (sec : Bool) (s : State) (at_ : Nat → Nat), s.serves = true →
    s.bar2Locked f sec off data.length = false →
    ((∀ p ∈ rowParts off data.length, s.bar2Row f sec p.1 = .ok (at_ p.1)) → ∃ t, exec (.bar2Write f off data sec) s = .next t
      ∧ t.mem = (rowParts off data.length).foldl (fun m p => m.merge (at_ p.1) ((data.drop (p.1 - off)).take p.2)) s.mem)
    ∧ (rowParts off data.length = [(off, data.length)] →
      (s.bar2Row f sec off = .denied → exec (.bar2Write f off data sec) s = .next (settle (s.bar2Fail f off true)))
      ∧ (s.bar2Row f sec off = .abort → exec (.bar2Write f off data sec) s = .next (settle (s.bar2Fail f off false)))
      ∧ (∀ d, s.bar2Row f sec off = .ok d → s.mem.mergeHurt d data = true → exec (.bar2Write f off data sec) s
          = .next (settle (((s.hostUnc d).bar2Fail f off false).hostMerge d data)))
      ∧ (∀ d, s.bar2Row f sec off = .ok d → s.mem.mergeHurt d data = false → exec (.bar2Write f off data sec) s
          = .next (settle (s.hostMerge d data)))))
  ∧ (∀ (f : Func) (off : Nat) (data : List (Option Byte)) (sec : Bool) (s : State), s.bar2Locked f sec off data.length = true →
    exec (.bar2Write f off data sec) s = .next (settle s))
  ∧ (∀ (hpa l : Nat) (want : Coherence) (sec : Bool) (s : State), s.serves = true → s.hdmLine hpa = some l →
    (s.cmRefused sec = true → exec (.cxlMemRead hpa want sec) s = .next (settle { s.deny .pf0 (64 * l) 1 with reply := some .poisoned }))
    ∧ (s.cmRefused sec = false → (s.mem.hurt (64 * l) 64 = true ∨ s.homeDark (64 * l) = true) →
      ∃ t, exec (.cxlMemRead hpa want sec) s = .next t ∧ t.reply = some .poisoned ∧ t.mem = s.mem
        ∧ t.rd F.hfHostErr_poison 0 = satAdd F.hfHostErr_poison.len (s.rd F.hfHostErr_poison 0) 1 ∧ t.rd F.hfHostErrlog_valid 0 = 1)
    ∧ (s.cmRefused sec = false → s.mem.hurt (64 * l) 64 = false → s.homeDark (64 * l) = false →
      (want = .none → exec (.cxlMemRead hpa want sec) s
        = .next (settle { s.corr (64 * l) 64 with reply := some (.data (s.mem.rdN (64 * l) 64)) }))
      ∧ (want ≠ .none → (s.tracked.any (fun t => t.line == l) = true ∨ s.tracked.length < 2097152) → exec (.cxlMemRead hpa want sec) s
        = .next (settle { (s.corr (64 * l) 64).track l (want == .exclusive) with reply := some (.data (s.mem.rdN (64 * l) 64)) }))
      ∧ (want ≠ .none → s.tracked.any (fun t => t.line == l) = false → 2097152 ≤ s.tracked.length →
        ∃ t, exec (.cxlMemRead hpa want sec) s = .next t ∧ t.reply = some .waits ∧ t.tracked = s.tracked
          ∧ ∀ y, s.tracked.head? = some y → t.snoops.any (fun x => x.line == y.line) = true)))
  ∧ (∀ (hpa l : Nat) (data : List (Option Byte)) (sec : Bool) (s : State), s.serves = true → s.hdmLine hpa = some l →
    exec (.cxlMemWrite hpa data sec) s = .next (settle (if s.cmRefused sec then s.deny .pf0 (64 * l) 1
      else if s.homeDark (64 * l) then s else s.hostMerge (64 * l) (data.take 64))))
  ∧ (∀ (hpa : Nat) (data : List (Option Byte)) (want : Coherence) (sec : Bool) (s : State), s.serves = true → s.hdmLine hpa = none →
    exec (.cxlMemRead hpa want sec) s = .next (settle { s with reply := some .unmapped })
    ∧ exec (.cxlMemWrite hpa data sec) s = .next (settle { s with reply := some .unmapped }))
  ∧ (∀ (f : Func) (off : Nat) (s : State), s.serves = true →
    exec (.atomicopRequest f off) s = .next (settle { s with reply := some .unsupported })
    ∧ exec .cdatRequest s = .next (settle { s with mgmt := s.mgmt ++ [⟨0, .cdat 0 0xFFFFFFFFFF 350 256⟩] })
    ∧ exec .doeDiscovery s = .next (settle { s with mgmt := s.mgmt ++ [⟨0, .discovery [.discovery, .spdm, .securedSpdm, .cdat]⟩] }))
  ∧ (∀ (f : Func) (off n : Nat) (b : Bool) (data : List (Option Byte)) (want : Coherence) (i : Instr) (s : State), s.serves = false →
    i ∈ [.bar0BadAccess f off n b, .vfDenied f off n b, .bar2Read f off n b, .bar2Write f off data b, .cxlMemRead n want b, .cxlMemWrite n data b,
      .atomicopRequest f off, .cdatRequest, .doeDiscovery] → exec i s = .next (settle s))
  ∧ (∀ (a : Nat) (s : State), exec (.i3cDynamicAddress a) s = .next (settle (if s.board.powered then
      { s with board := { s.board with dynAddr := some (a % 128) } } else s)))

/-- Host events: the answer to a back-invalidate gives the line and its data back, or leaves it shared, and silence counts, a committed decoder
takes its base, IDE keys make a stream secure and a failure insecure, the interrupt map takes a valid entry and marks another, NumVFs is shown,
and an unmasked vector sends what waited; an event out of its place changes nothing (R405 to R416). -/
def Obligations.HostEventsComplete : Prop :=
  (∀ (line : Nat) (data : Option (List Byte)) (shared : Bool) (s : State) (x : Snoop), s.snoops.find? (fun x => x.line == line) = some x →
    ∃ t, exec (.bisnpResponse line data shared) s = .next t ∧ t.snoops = s.snoops.filter (fun y => y.line != line)
      ∧ (data = none → t.mem = s.mem) ∧ (∀ b, data = some b → t.mem = s.mem.merge (64 * line) ((b.take 64).map some))
      ∧ ((shared = false ∨ x.inv = true) → t.tracked = s.tracked.filter (fun t => t.line != line))
      ∧ (shared = true → x.inv = false → (∀ y ∈ t.tracked, y.line = line → y.excl = false)
          ∧ t.tracked.map (·.line) = s.tracked.map (·.line) ∧ ∀ y ∈ s.tracked, y.line ≠ line → y ∈ t.tracked)
      ∧ t.rd F.hfHdmSf_tracked 0 = t.tracked.length % 2 ^ F.hfHdmSf_tracked.len)
  ∧ (∀ (line : Nat) (s : State) (x : Snoop), s.snoops.find? (fun x => x.line == line) = some x →
    (x.since + 100000 ≤ s.up → ∃ t, exec (.bisnpTimeout line) s = .next t ∧ t.tracked = s.tracked.filter (fun t => t.line != line) ∧ t.mem = s.mem
      ∧ t.rd F.hfHdmSf_bisnpTimeout 0 = satAdd F.hfHdmSf_bisnpTimeout.len (s.rd F.hfHdmSf_bisnpTimeout 0) 1
      ∧ t.rd F.hfHostErrlog_valid 0 = 1 ∧ t.snoops = s.snoops.filter (fun y => y.line != line)
      ∧ t.snoopDead = (if x.eng then s.snoopDead ++ [line] else s.snoopDead))
    ∧ (s.up < x.since + 100000 → exec (.bisnpTimeout line) s = .next (settle s)))
  ∧ (∀ (line : Nat) (data : Option (List Byte)) (shared : Bool) (s : State), s.snoops.find? (fun x => x.line == line) = none →
    exec (.bisnpResponse line data shared) s = .next (settle s) ∧ exec (.bisnpTimeout line) s = .next (settle s))
  ∧ (∀ (base : Nat) (n : Fin 9) (s : State), s.serves = true →
    exec (.hdmDecoderCommit base) s = .next (settle { s.wr F.hfHostLink_hdmCommitted 0 1 with hdmBase := base })
    ∧ exec (.numvfsWrite n) s = .next (settle (s.wr F.hfHostLink_vfs 0 n.val)))
  ∧ (∀ (base v : Nat) (f : Func) (n : Fin 9) (s : State), s.serves = false → exec (.hdmDecoderCommit base) s = .next (settle s)
    ∧ exec (.numvfsWrite n) s = .next (settle s) ∧ exec (.vectorUnmask f v) s = .next (settle s))
  ∧ (∀ (session : Nat) (stream : Fin 10) (key : List Nat) (s : State),
    (s.sessions.any (fun x => x.id == session && x.ready && x.via == 0) = true →
      ∃ t, exec (.ideKm session stream key) s = .next t ∧ t.isSecure stream.val = true ∧ mget t.ideKeys stream.val = some key
        ∧ t.mgmt = s.mgmt ++ [⟨0, .ideKey stream.val⟩] ∧ ∀ k : Fin 10, k ≠ stream → t.isSecure k.val = s.isSecure k.val)
    ∧ (s.sessions.any (fun x => x.id == session && x.ready && x.via == 0) = false →
      exec (.ideKm session stream key) s = .next (settle { s with mgmt := s.mgmt ++ [⟨0, .spdmError .session⟩] })))
  ∧ (∀ (stream : Fin 10) (s : State), s.isSecure stream.val = true →
    ∃ t, exec (.ideFailure stream) s = .next t ∧ t.isSecure stream.val = false ∧ mget t.ideKeys stream.val = none
      ∧ t.rd F.hfHostErrlog_valid 0 = 1 ∧ (s.rd F.hfHostErrlog_valid 0 = 0 → t.rd F.hfHostErrlog_kind 0 = 5)
      ∧ (∀ k : Fin 10, k ≠ stream → t.isSecure k.val = s.isSecure k.val) ∧ t.mem = s.mem)
  ∧ (∀ (stream : Fin 10) (s : State), s.isSecure stream.val = false → exec (.ideFailure stream) s = .next (settle s))
  ∧ (∀ (f : Func) (src : Fin 96) (v : Word64) (s : State), s.gate f .hfIntMap src.val true = .ok →
    (s.mapBad src.val (bits v.toNat 11 4) (bits v.toNat 0 11) = true →
      exec (.intMapWrite f src v) s = .next (settle (s.wr F.hfIntMap_mapErr src.val 1)))
    ∧ (s.mapBad src.val (bits v.toNat 11 4) (bits v.toNat 0 11) = false →
      exec (.intMapWrite f src v) s = .next (settle ((s.softWr .hfIntMap src.val v.toNat).wr F.hfIntMap_mapErr src.val 0))))
  ∧ (∀ (f : Func) (v k : Nat) (s : State), s.serves = true → k = funcNum f * 1024 + v →
    (s.funcUp f = true → vectorOk (funcNum f) v = true → ∃ t, exec (.vectorUnmask f v) s = .next t ∧ (mgetD t.msix k {}).mask = false
      ∧ (mgetD s.msixPend k false = false → t.sent = s.sent)
      ∧ (mgetD s.msixPend k false = true → t.sent = s.sent ++ [.msix (funcNum f) v (mgetD s.msix k {}).addr (mgetD s.msix k {}).data]
        ∧ mgetD t.msixPend k false = false))
    ∧ ((s.funcUp f = false ∨ vectorOk (funcNum f) v = false) → exec (.vectorUnmask f v) s = .next (settle s)))

/-- Registers by address: a write of the register's width goes to the register, and a read answers with its content and clears its RC
fields; an access to a unit that is down is aborted, one that nothing serves does nothing, the payload window of the mailbox and the MSI-X
tables take their bytes, an offset without a register reads 0, and a misshapen access is counted (R7, R8, R9, R61, R398, R399, R400, R417). -/
def Obligations.RegisterAccessesComplete : Prop :=
  (∀ (f : Func) (off w i : Nat) (r : RegName) (v : Word64) (m : MboxGo) (s : State), breaksR7 off w = false → regAt off = some (r, i) →
    (s.gate f r i true = .ok → exec (.registerWrite f off w ⟨v, m⟩) s = .next (settle (s.regWrite f r i (v.toNat % 2 ^ (8 * w)) m)))
    ∧ (s.gate f r i true = .silent → exec (.registerWrite f off w ⟨v, m⟩) s = .next (settle s))
    ∧ (s.gate f r i true = .abort → exec (.registerWrite f off w ⟨v, m⟩) s = .next (settle (s.abortAccess f (regAddr r i) 0))))
  ∧ (∀ (f : Func) (off w i : Nat) (r : RegName) (s : State), breaksR7 off w = false → regAt off = some (r, i) →
    (s.gate f r i false = .ok → r ≠ .hfBoard → ∃ t, exec (.registerRcRead f off w) s = .next t
      ∧ t.reply = some (.data (leBytes w (s.regRead r i))) ∧ t.reg r i = afterRead r (s.reg r i) % 2 ^ 64 ∧ t.mem = s.mem ∧ t.queues = s.queues
      ∧ ∀ r' i', (r' ≠ r ∨ i' ≠ i) → r' ≠ .hfBoard → t.reg r' i' = s.reg r' i')
    ∧ (s.gate f r i false = .ok → r = .hfBoard → ∃ t, exec (.registerRcRead f off w) s = .next t
      ∧ t.reply = some (.data (leBytes w (s.regRead r i))) ∧ t.mem = s.mem)
    ∧ (s.gate f r i false = .silent → exec (.registerRcRead f off w) s = .next (settle s))
    ∧ (s.gate f r i false = .abort → exec (.registerRcRead f off w) s
        = .next (settle { s.abortAccess f off 0 with reply := some (.data (List.replicate w 0xFF)) })))
  ∧ (∀ (f : Func) (off w : Nat) (v : Word64) (m : MboxGo) (s : State), breaksR7 off w = false → regAt off = none →
    (inPayload off w = true → s.mboxUp f = true →
      exec (.registerWrite f off w ⟨v, m⟩) s = .next (settle { s with mbox := s.mbox.wrN (off - 0x510000) (leBytes (min w 8) v.toNat) })
      ∧ exec (.registerRcRead f off w) s = .next (settle { s with reply := some (.data (s.mbox.rdN (off - 0x510000) w)) }))
    ∧ ((inPayload off w && s.mboxUp f) = false → inMsix f off = true →
      exec (.registerWrite f off w ⟨v, m⟩) s = .next (settle (s.msixWrite f off w v.toNat))
      ∧ (s.serves = true → exec (.registerRcRead f off w) s = .next (settle { s with reply := some (.data (leBytes w
          (s.msixRead f off + (if w == 8 then s.msixRead f (off + 4) * 2 ^ 32 else 0)))) })))
    ∧ ((inPayload off w && s.mboxUp f) = false → inMsix f off = false →
      (∀ wr, s.serves = true → s.outside f off wr = true → exec (if wr = true then .registerWrite f off w ⟨v, m⟩ else .registerRcRead f off w) s
        = .next (settle (if wr = true then s.deny f off 0 else { s.deny f off 0 with reply := some (.data (List.replicate w 0)) })))
      ∧ (s.outside f off true = false → exec (.registerWrite f off w ⟨v, m⟩) s
        = .next (settle (if s.serves && s.offsetDown off then s.abortAccess f off 0 else s)))
      ∧ (s.outside f off false = false → s.serves = true → exec (.registerRcRead f off w) s
        = .next (settle (if s.offsetDown off then { s.abortAccess f off 0 with reply := some (.data (List.replicate w 0xFF)) }
            else { s with reply := some (.data (leBytes w 0)) })))))
  ∧ (∀ (f : Func) (off w : Nat) (v : Word64) (m : MboxGo) (s : State), breaksR7 off w = true →
    exec (.registerWrite f off w ⟨v, m⟩) s = exec (.bar0BadAccess f off w true) s
    ∧ exec (.registerRcRead f off w) s = exec (.bar0BadAccess f off w false) s)

/-- Mailbox commands that read: each completes with OK and its output, an unknown opcode with BAD_OPCODE, an index or a capsule out of bounds with
BAD_ARG; every command is turned away while another runs, outside recovery's three, and with a wrong length, without a buffer or without its
input, with the status of each, and an output that the host's memory refuses ends with HOST_MEM (R417 to R419, R445, R474, R477, R487, R504). -/
def Obligations.MailboxReadsComplete : Prop :=
  (∀ (c : MboxCall) (l : List Byte) (op : Fin 65536) (s : State), mboxOps.contains op.val = false → MboxTakes s c op.val l →
    ∃ t, exec (.mboxBadOpcode c op) s = .next t ∧ MboxDone t 1 0 ∧ t.mem = s.mem ∧ t.mbox = s.mbox ∧ t.queues = s.queues)
  ∧ (∀ (buf : Option Nat) (ok : Bool) (st n : Nat) (out : List Byte) (s : State), st < 256 →
    MboxDone (s.mboxEnd buf ok st out n) (if buf.isSome && !ok && !out.isEmpty then 4 else st) (n % 2 ^ 32)
    ∧ (buf = none → (s.mboxEnd buf ok st out n).mbox = s.mbox.wrN 0 out))
  ∧ (∀ (c : MboxCall) (l out : List Byte) (st n : Nat) (s s' : State), c.inLen = 4 →
    (MboxTakes s c 2 l → s' = s.mboxTake c 2 → recordsOut (s'.lsdbList.map s'.lsdbBytes) (leNat l) (s.mboxSize c) = .done st out n →
      exec (.lsdbRead c) s = .next (settle (s'.mboxEnd (s.mboxBuf c) c.outOk st out n)))
    ∧ (MboxTakes s c 0x0301 l → s' = s.mboxTake c 0x0301 → recordsOut (s'.log.map Report.cper) (leNat l) (s.mboxSize c) = .done st out n →
      exec (.faultRead c) s = .next (settle (s'.mboxEnd (s.mboxBuf c) c.outOk st out n))))
  ∧ (∀ (recs : List (List Byte)) (index size : Nat), (recs.length < index → recordsOut recs index size = .done 3 [] 0)
    ∧ (index ≤ recs.length → ∃ r k, r = (recs.drop index).take k ∧ r.flatten.length ≤ size - 8
        ∧ recordsOut recs index size = .done 0 (leBytes 4 r.length ++ leBytes 4 recs.length ++ r.flatten) (8 + r.flatten.length)))
  ∧ (∀ (c : MboxCall) (l : List Byte) (s s' : State), c.inLen = 0 →
    (MboxTakes s c 0x0201 l → s' = s.mboxTake c 0x0201 → exec (.energyTotals c) s = .next (settle (s.mboxOkEnd c s'.energyOut s')))
    ∧ (MboxTakes s c 0x0402 l → s' = s.mboxTake c 0x0402 → exec (.memTestReport c) s = .next (settle (s.mboxOkEnd c s.flash.test.out s')))
    ∧ (MboxTakes s c 0x0101 l → s' = s.mboxTake c 0x0101 → exec (.fwInfo c) s = .next (settle (s.mboxOkEnd c s'.fwInfoOut s')))
    ∧ (MboxTakes s c 0x0303 l → s' = s.mboxTake c 0x0303 → ∃ t, exec (.capsule c) s = .next t
      ∧ (s'.capsule.1.length ≤ s.mboxSize c → t = settle (s.mboxOkEnd c s'.capsule.1 s'.capsule.2))
      ∧ (s.mboxSize c < s'.capsule.1.length → MboxDone t 3 (s'.capsule.1.length % 2 ^ 32) ∧ t.signatures = s.signatures)))
  ∧ (∀ (c : MboxCall) (a b : Option Nat) (i : Instr) (op : Nat) (lens : List Nat) (s : State),
    (i, op, lens) ∈ [(Instr.lsdbRead c, 0x0002, [4]), (.fwInfo c, 0x0101, [0]), (.fwStage c, 0x0102, (List.range 15).map (fun k => 4104 + 4096 * k)),
      (.fwVerify c, 0x0103, [0]), (.fwActivate c, 0x0104, [8]), (.fwCommitSvn c, 0x0105, [0]), (.mcodeRoll c, 0x0106, [0]),
      (.energyTotals c, 0x0201, [0]), (.faultRead c, 0x0301, [4]), (.canaryRun c a b, 0x0302, [4]), (.capsule c, 0x0303, [0]),
      (.retire c, 0x0304, [4]), (.bootTestSet c, 0x0401, [4]), (.memTestReport c, 0x0402, [0])] → s.gate c.f .hfMboxCmd 0 true = .ok →
    (s.flag F.hfMboxStatus_busy 0 = true → exec i s = .next (settle s))
    ∧ (∀ st, s.flag F.hfMboxStatus_busy 0 = false →
      (s.stage = 9 ∧ recoveryOp op = false ∧ st = 5 ∨ (s.stage ≠ 9 ∨ recoveryOp op = true) ∧
        (s.mboxSize c = 0 ∧ st = 3 ∨ s.mboxSize c ≠ 0 ∧ ((c.inLen ∉ lens ∨ s.mboxSize c < c.inLen) ∧ st = 2
          ∨ c.inLen ∈ lens ∧ c.inLen ≤ s.mboxSize c ∧ s.mboxInput c = none ∧ st = 4))) →
      ∃ t, exec i s = .next t ∧ MboxDone t st 0 ∧ t.mem = s.mem ∧ t.mbox = s.mbox ∧ t.queues = s.queues ∧ t.flash = s.flash))

/-- Mailbox commands that act: a canary run, a retirement, the boot test setting, staging, verification, activation, the fuses and the roll,
each with its result code, and with DENIED or BAD_ARG where the module or the input does not allow it
(R471, R487, R501, R505, R506, R510). -/
def Obligations.MailboxActionsComplete : Prop :=
  (∀ (c : MboxCall) (l : List Byte) (g : Nat) (a b : Option Nat) (s s' : State), c.inLen = 4 → coreArg l = some g →
    (MboxTakes s c 0x0302 l → s' = s.mboxTake c 0x0302 →
      (s'.canaryOk g = false → ∃ t, exec (.canaryRun c a b) s = .next t ∧ MboxDone t 5 0)
      ∧ (s'.canaryOk g = true → s'.canaries.any (fun x => x.core == g) = false → ∃ u, exec (.canaryRun c a b) s
          = .next (settle (s.mboxOkEnd c (leBytes 1 (if a = none then 0 else if b = none then 1 else 2)) u))
        ∧ (a = none → u = (s'.startCanary g true).canaryResult g none)
        ∧ (a ≠ none → u = ((s'.startCanary g true).canaryResult g a).canaryResult g b))
      ∧ (s'.canaryOk g = true → s'.canaries.any (fun x => x.core == g) = true → ∃ u code, exec (.canaryRun c a b) s
          = .next (settle (s.mboxOkEnd c (leBytes 1 code) u)) ∧ code ≤ 2))
    ∧ (MboxTakes s c 0x0304 l → ∃ t, exec (.retire c) s = .next t ∧ t.retired g = true ∧ MboxDone t 0 0))
  ∧ (∀ (c : MboxCall) (l : List Byte) (a b : Option Nat) (s : State), c.inLen = 4 → coreArg l = none →
    (MboxTakes s c 0x0302 l → ∃ t, exec (.canaryRun c a b) s = .next t ∧ MboxDone t 3 0 ∧ t.mem = s.mem)
    ∧ (MboxTakes s c 0x0304 l → ∃ t, exec (.retire c) s = .next t ∧ MboxDone t 3 0 ∧ t.mem = s.mem))
  ∧ (∀ (c : MboxCall) (l : List Byte) (s : State), MboxTakes s c 0x0401 l → c.inLen = 4 →
    (leNat l ≤ 1 → ∃ t, exec (.bootTestSet c) s = .next t ∧ t.flash.quick = (leNat l == 1) ∧ MboxDone t 0 0)
    ∧ (1 < leNat l → ∃ t, exec (.bootTestSet c) s = .next t ∧ t.flash = s.flash ∧ MboxDone t 3 0))
  ∧ (∀ (c : MboxCall) (l : List Byte) (comp off st : Nat) (s : State), MboxTakes s c 0x0102 l → 4104 ≤ c.inLen → c.inLen ≤ 61448 →
    c.inLen % 4096 = 8 → comp = leNat (l.take 1) → off = leNat ((l.drop 4).take 4) → st = (if c.useHost && !c.outOk then 4 else 0) →
    ((s.fwBusy = true ∨ s.pldm.isSome = true) → ∃ t, exec (.fwStage c) s = .next t ∧ MboxDone t 5 0 ∧ t.fw = s.fw)
    ∧ (s.fwBusy = false → s.pldm = none → fwRange comp off (l.drop 8).length = false →
      ∃ t, exec (.fwStage c) s = .next t ∧ MboxDone t 3 0 ∧ t.fw = s.fw)
    ∧ (s.fwBusy = false → s.pldm = none → fwRange comp off (l.drop 8).length = true →
      ∃ t, exec (.fwStage c) s = .next t ∧ t.mboxStage = true ∧ t.rd F.hfFwStatus_stagedOk 0 = 0 ∧ MboxDone t st 1
        ∧ t.fw.rdN (fwBase (1 - s.flash.bootSet) comp + off) (l.drop 8).length = l.drop 8))
  ∧ (∀ (c : MboxCall) (l : List Byte) (s s' : State) (st : Nat), c.inLen = 0 → st = (if c.useHost && !c.outOk then 4 else 0) →
    (MboxTakes s c 0x0103 l → s' = s.mboxTake c 0x0103 →
      (s'.fwBusy = true → ∃ t, exec (.fwVerify c) s = .next t ∧ MboxDone t 5 0 ∧ t.mboxStage = s.mboxStage)
      ∧ (s'.fwBusy = false → ∃ t, exec (.fwVerify c) s = .next t
        ∧ t.rd F.hfFwStatus_stagedOk 0 = (if s'.fwFail s'.fwOther = none then 1 else 0) ∧ t.mboxStage = false ∧ MboxDone t st 2))
    ∧ (MboxTakes s c 0x0105 l → s' = s.mboxTake c 0x0105 → ∃ t, exec (.fwCommitSvn c) s = .next t ∧ MboxDone t st 8
      ∧ (s'.commitOk = true → t.flash.svn = (List.range 7).map (fun k => max (s'.fwFused k) (s'.fwSvn s'.fwSet k)))
      ∧ (s'.commitOk = false → t.flash = s.flash))
    ∧ (MboxTakes s c 0x0106 l → s' = s.mboxTake c 0x0106 → ∃ t, exec (.mcodeRoll c) s = .next t ∧ MboxDone t st 1
      ∧ (s.roll.isSome = true → t.roll = s.roll ∧ (s.flag F.hfFwRoll_rollHalted 0 = true → t.rd F.hfFwRoll_rollHalted 0 = 0))
      ∧ (∀ ok, s.roll = none → ok = (s'.flag F.hfFwStatus_stagedOk 0 && s'.fwOk s'.fwOther && s'.onlyMcode
          && major (s'.fwVersion s'.fwOther 3) == major (s'.fwVersion s'.fwSet 3) + 1 && s.act.isNone) →
        t.roll = (if ok then some { version := s'.fwVersion s'.fwOther 3 } else none) ∧ (ok = true → t.rd F.hfFwRoll_rollBusy 0 = 1))))
  ∧ (∀ (c : MboxCall) (l : List Byte) (s s' : State), MboxTakes s c 0x0104 l → c.inLen = 8 → s' = s.mboxTake c 0x0104 →
    (s'.actRefuse (leNat l) = 0 → ∃ t, exec (.fwActivate c) s = .next t
      ∧ t.act = some { at_ := leNat l, mbox := some (s.mboxBuf c) } ∧ t.rd F.hfFwStatus_actPending 0 = 1
      ∧ t.rd F.hfMboxStatus_busy 0 = 1)
    ∧ (s'.actRefuse (leNat l) ≠ 0 → ∃ r, exec (.fwActivate c) s
        = .next (settle (s.mboxOkEnd c (actOut (s'.actRefuse (leNat l)) (s'.fresh.1 % 256) 0) r)) ∧ r.act = s.act))

/-- Activations and the roll: the instant, the pause, the self-check and the resume follow each other, a failed one, or one during a roll, keeps
the old set, one without a pause in time or with a swap in its way is abandoned, a core takes the rolled microcode in its turn and the last core
ends the roll, and a processor's restart ends its mailbox command and, soon after another, turns the module off; out of their order these
events change nothing (R503, R506, R507, R510, R511). -/
def Obligations.ActivationsComplete : Prop :=
  (∀ s : State, s.act = none → ∀ i ∈ [Instr.activationInstant, .activationPause, .selfCheckDone none, .activationResume, .activationAbandon],
    exec i s = .next (settle s))
  ∧ (∀ (s : State) (a : Activation), s.act = some a →
    (a.begun = false → a.at_ ≤ s.ft →
      exec .activationInstant s = .next (settle { s with act := some { a with begun := true, swapped := s.swap.isSome } }))
    ∧ ((a.begun = true ∨ s.ft < a.at_) → exec .activationInstant s = .next (settle s))
    ∧ (a.begun = true → a.swapped = false → a.c = none → s.quiesced = true →
      exec .activationPause s = .next (settle { s with act := some { a with c := some s.ft } }))
    ∧ ((a.begun = false ∨ a.swapped = true ∨ a.c.isSome = true ∨ s.quiesced = false) → exec .activationPause s = .next (settle s)))
  ∧ (∀ (s : State) (a : Activation) (bad : Option (Fin 7)), s.act = some a →
    (a.c.isSome = true → a.result = none → s.roll = none →
      (bad = none → ∃ t, exec (.selfCheckDone bad) s = .next t ∧ t.act = some { a with result := some (0, 256) } ∧ t.flash.bootSet = s.fwOther
        ∧ t.rd F.hfFwStatus_activeSet 0 = s.fwOther % 2 ^ F.hfFwStatus_activeSet.len ∧ t.rd F.hfFwStatus_lastAct 0 = 1
        ∧ t.rd F.hfFwStatus_stagedOk 0 = 0)
      ∧ ∀ k, bad = some k → ∃ t, exec (.selfCheckDone bad) s = .next t ∧ t.act = some { a with result := some (8, k.val) }
        ∧ t.rd F.hfFwStatus_lastAct 0 = 2 ∧ t.flash = s.flash ∧ t.rd F.hfFwStatus_activeSet 0 = s.rd F.hfFwStatus_activeSet 0)
    ∧ (a.c.isSome = true → a.result = none → s.roll.isSome = true → ∃ t, exec (.selfCheckDone bad) s = .next t ∧ t.roll = none
      ∧ t.act = some { a with result := some (bad.elim (0, 256) (fun k => (8, k.val))) } ∧ t.rd F.hfFwStatus_lastAct 0 = 2
      ∧ t.rd F.hfFwRoll_rollBusy 0 = 0 ∧ t.flash = s.flash)
    ∧ ((a.c = none ∨ a.result.isSome = true) → exec (.selfCheckDone bad) s = .next (settle s)))
  ∧ (∀ (s : State) (a : Activation), s.act = some a →
    ((a.result = none ∨ a.swapped = true) → exec .activationResume s = .next (settle s))
    ∧ (∀ r, a.result = some r → a.swapped = false → ∃ u : State, exec .activationResume s = .next (settle u.actOver) ∧ u.flash = s.flash
      ∧ u.mem = s.mem ∧ u.act = s.act ∧ u.resetWaits = s.resetWaits ∧ (a.mbox.isSome = true → u.rd F.hfMboxStatus_busy 0 = 0))
    ∧ (∀ r, a.result = some r → a.swapped = false → s.resetWaits = false → ∃ t, exec .activationResume s = .next t ∧ t.act = none
      ∧ t.rd F.hfFwStatus_actPending 0 = 0 ∧ t.flash = s.flash ∧ t.mem = s.mem))
  ∧ (∀ (s : State) (a : Activation), s.act = some a →
    (a.begun = true → (a.swapped = true ∨ a.c = none ∧ a.at_ + 100000000 ≤ s.ft) →
      (∃ u : State, exec .activationAbandon s = .next (settle u.actOver) ∧ u.rd F.hfFwStatus_lastAct 0 = 3 ∧ u.resetWaits = s.resetWaits
        ∧ (a.mbox.isSome = true → u.rd F.hfMboxStatus_busy 0 = 0)
        ∧ (a.result = none ∨ s.rd F.hfFwStatus_lastAct 0 ≠ 1 → u.flash = s.flash)
        ∧ (a.result.isSome = true → s.rd F.hfFwStatus_lastAct 0 = 1 → u.flash.bootSet = s.fwOther ∧ u.rd F.hfFwStatus_stagedOk 0 = 1))
      ∧ (s.resetWaits = false → ∃ t, exec .activationAbandon s = .next t ∧ t.act = none ∧ t.rd F.hfFwStatus_lastAct 0 = 3
        ∧ t.rd F.hfFwStatus_actPending 0 = 0))
    ∧ ((a.begun = false ∨ a.swapped = false ∧ (a.c.isSome = true ∨ s.ft < a.at_ + 100000000)) →
      exec .activationAbandon s = .next (settle s)))
  ∧ (∀ (g : CoreId) (s : State) (r : Roll), s.roll = some r →
    (s.flag F.hfFwRoll_rollHalted 0 = false → s.act.any (fun a => a.c.isSome) = false → s.rollTurn r g.val = true →
      (r.changed.length + 1 < 4608 → ∃ t r', exec (.mcodeCoreChange g) s = .next t ∧ t.roll = some r'
        ∧ r'.changed = r.changed ++ [g.val] ∧ r'.version = r.version ∧ t.rd F.coreMcode_version g.val = r.version % 2 ^ 32
        ∧ t.rd F.hfFwRoll_changed 0 = r.changed.length + 1)
      ∧ (4608 ≤ r.changed.length + 1 → ∃ t, exec (.mcodeCoreChange g) s = .next t ∧ t.roll = none ∧ t.flash.bootSet = s.fwOther
        ∧ t.rd F.coreMcode_version g.val = r.version % 2 ^ 32 ∧ t.rd F.hfFwRoll_rollBusy 0 = 0 ∧ t.rd F.hfFwStatus_stagedOk 0 = 0))
    ∧ ((s.flag F.hfFwRoll_rollHalted 0 = true ∨ s.act.any (fun a => a.c.isSome) = true ∨ s.rollTurn r g.val = false) →
      exec (.mcodeCoreChange g) s = .next (settle s)))
  ∧ (∀ (g : CoreId) (s : State), s.roll = none → exec (.mcodeCoreChange g) s = .next (settle s))
  ∧ (∀ (m : Fin 2) (s u : State), u = { s with mpRestart := setNth s.mpRestart m.val (some s.up) } →
    ((s.board.powered = false ∨ s.board.perstN = false ∨ s.stage = 9) → exec (.mpWatchdogExpiry m) s = .next (settle s))
    ∧ (s.board.powered = true → s.board.perstN = true → s.stage ≠ 9 → (m.val = 1 ∨ s.flag F.hfMboxStatus_busy 0 = false) →
      ((∀ t, s.mpRestart.getD m.val none = some t → t + 10000000000 < s.up) → exec (.mpWatchdogExpiry m) s = .next (settle u))
      ∧ (∀ t, s.mpRestart.getD m.val none = some t → s.up ≤ t + 10000000000 →
        exec (.mpWatchdogExpiry m) s = .next (settle (u.b8Fault unitFw))))
    ∧ (s.board.powered = true → s.board.perstN = true → s.stage ≠ 9 → m.val = 0 → s.flag F.hfMboxStatus_busy 0 = true →
      (∀ t, s.mpRestart.getD 0 none = some t → t + 10000000000 < s.up) → ∃ t, exec (.mpWatchdogExpiry m) s = .next t
        ∧ MboxDone t 6 0 ∧ t.mpRestart = u.mpRestart ∧ ∀ a, s.act = some a → t.act = some { a with mbox := none }))

/-- SPDM: a new connection answers GET_VERSION, negotiation goes on in order, and digests, certificates, measurements, signatures and
sessions are answered after it; a request out of order, of another slot or index, or without a signature to be had is answered with its error,
and no request is answered while the transports are down (R517 to R520). -/
def Obligations.SpdmRequestsComplete : Prop :=
  (∀ (via : Fin 2) (s : State), s.mgmtUp = true → s.spdm.length = 2 →
    (∃ t, exec (.getVersion via) s = .next t ∧ t.conn via.val = { stage := 1, transcript := [1] }
      ∧ t.mgmt = s.mgmt ++ [⟨via.val, .version 1 3⟩])
    ∧ (1 ≤ (s.conn via.val).stage → ∃ t, exec (.getCapabilities via) s = .next t ∧ (t.conn via.val).stage = 2
      ∧ t.mgmt = s.mgmt ++ [⟨via.val, .capabilities true true true true true⟩])
    ∧ (2 ≤ (s.conn via.val).stage → ∃ t, exec (.negotiateAlgorithms via true) s = .next t ∧ (t.conn via.val).stage = 3
      ∧ t.mgmt = s.mgmt ++ [⟨via.val, .algorithms [.ecdsaP384, .sha384, .secp384r1, .aes256gcm]⟩])
    ∧ (2 ≤ (s.conn via.val).stage → ∃ t, exec (.negotiateAlgorithms via false) s = .next t
      ∧ (t.conn via.val).stage = (s.conn via.val).stage ∧ t.mgmt = s.mgmt ++ [⟨via.val, .spdmError .invalid⟩]))
  ∧ (∀ (via : Fin 2) (slot off len nonce random n : Nat) (idx : Fin 256) (signed ok : Bool) (i : Instr) (s : State),
    (i, n) ∈ [(Instr.getCapabilities via, 1), (.negotiateAlgorithms via ok, 2), (.getDigests via, 3), (.getCertificate via slot off len, 3),
      (.challenge via slot nonce ok, 3), (.getMeasurements via idx signed nonce ok, 3), (.keyExchange via slot random, 3)] →
    (s.mgmtUp = true → (s.conn via.val).stage < n →
      exec i s = .next (settle { s with mgmt := s.mgmt ++ [⟨via.val, .spdmError .unexpected⟩] }))
    ∧ (s.mgmtUp = false → exec i s = .next (settle s)))
  ∧ (∀ (via : Fin 2) (s : State), s.mgmtUp = true → s.spdm.length = 2 → 3 ≤ (s.conn via.val).stage →
    (∃ t, exec (.getDigests via) s = .next t ∧ t.mgmt = s.mgmt ++ [⟨via.val, .digests 0 (Config.digest (Config.chain s.aliasKey))⟩])
    ∧ (∀ slot off len, ∃ t, exec (.getCertificate via slot off len) s = .next t ∧ t.mgmt = s.mgmt ++ [⟨via.val,
      if slot = 0 ∧ off < (Config.chain s.aliasKey).length then .certificate 0 off (((Config.chain s.aliasKey).drop off).take len)
        ((Config.chain s.aliasKey).length - off - min len ((Config.chain s.aliasKey).length - off)) else .spdmError .invalid⟩])
    ∧ (∀ slot nonce ok, slot ≠ 0 → ∃ t, exec (.challenge via slot nonce ok) s = .next t
      ∧ t.mgmt = s.mgmt ++ [⟨via.val, .spdmError .invalid⟩] ∧ t.signatures = s.signatures)
    ∧ (∀ nonce ok, s.rd F.hfSecState_bootLeaves 0 < 32768 → ∃ t g, exec (.challenge via 0 nonce ok) s = .next t
      ∧ t.mgmt = s.mgmt ++ [⟨via.val, .challengeAuth 0 nonce g⟩] ∧ t.signatures = s.signatures + 1
      ∧ t.rd F.hfSecState_bootLeaves 0 = s.rd F.hfSecState_bootLeaves 0 + 1)
    ∧ (∀ nonce ok, 32768 ≤ s.rd F.hfSecState_bootLeaves 0 →
      (s.topNext = none → ∃ t, exec (.challenge via 0 nonce ok) s = .next t ∧ t.mgmt = s.mgmt ++ [⟨via.val, .spdmError .unspecified⟩])
      ∧ (s.topNext.isSome = true → ∃ t, exec (.challenge via 0 nonce ok) s = .next t
        ∧ (ok = true → t.rd F.hfSecState_bootLeaves 0 = 1 ∧ ∃ g, t.mgmt = s.mgmt ++ [⟨via.val, .challengeAuth 0 nonce g⟩])
        ∧ (ok = false → t.mgmt = s.mgmt ++ [⟨via.val, .spdmError .unspecified⟩])))
    ∧ (∀ (idx : Fin 256) signed nonce ok, ((13 < idx.val ∧ idx.val ≠ 255) →
        ∃ t, exec (.getMeasurements via idx signed nonce ok) s = .next t ∧ t.mgmt = s.mgmt ++ [⟨via.val, .spdmError .invalid⟩])
      ∧ (∀ blocks, (idx.val ≤ 13 ∨ idx.val = 255) →
        blocks = (if idx.val = 0 then [(0, [13])] else if idx.val = 255 then (List.range 13).map (fun i => (i + 1, s.measure (i + 1)))
          else [(idx.val, s.measure idx.val)]) →
        (signed = false → ∃ t ver, exec (.getMeasurements via idx signed nonce ok) s = .next t
          ∧ t.mgmt = s.mgmt ++ [⟨via.val, .measurements blocks ver nonce none⟩])
        ∧ (signed = true → s.rd F.hfSecState_bootLeaves 0 < 32768 → ∃ t ver g, exec (.getMeasurements via idx signed nonce ok) s = .next t
          ∧ t.mgmt = s.mgmt ++ [⟨via.val, .measurements blocks ver nonce (some g)⟩])))
    ∧ (∀ slot random, (slot = 0 → s.flag F.hfSecState_lmsExhausted 0 = false → s.sessions.length < 15 →
        ∃ t rnd sig, exec (.keyExchange via slot random) s = .next t ∧ t.mgmt = s.mgmt ++ [⟨via.val, .keyExchange s.sessionNext rnd sig⟩]
          ∧ t.sessions = s.sessions ++ [{ id := s.sessionNext, via := via.val, at_ := s.up }] ∧ t.sessionNext = s.sessionNext + 1)
      ∧ ((slot ≠ 0 ∨ s.flag F.hfSecState_lmsExhausted 0 = true ∨ 15 ≤ s.sessions.length) →
        ∃ t e, exec (.keyExchange via slot random) s = .next t ∧ t.mgmt = s.mgmt ++ [⟨via.val, .spdmError e⟩] ∧ t.sessions = s.sessions)))
  ∧ (∀ (via : Fin 2) (id : Nat) (s : State), s.mgmtUp = true →
    (s.sessions.any (fun x => x.id == id && x.via == via.val && x.ready == false) = true → ∃ t, exec (.finish via id) s = .next t
      ∧ t.mgmt = s.mgmt ++ [⟨via.val, .finish id⟩] ∧ ∀ x ∈ t.sessions, x.id = id → x.ready = true)
    ∧ (s.sessions.any (fun x => x.id == id && x.via == via.val && x.ready == true) = true →
      (∃ t, exec (.endSession via id) s = .next t ∧ t.mgmt = s.mgmt ++ [⟨via.val, .endSession id⟩] ∧ ∀ x ∈ t.sessions, x.id ≠ id)
      ∧ ∃ t, exec (.heartbeat via id) s = .next t ∧ t.mgmt = s.mgmt ++ [⟨via.val, .heartbeat id⟩]
        ∧ t.sessions.map (·.id) = s.sessions.map (·.id))
    ∧ (s.sessions.any (fun x => x.id == id && x.via == via.val && x.ready == false) = false →
      exec (.finish via id) s = .next (settle { s with mgmt := s.mgmt ++ [⟨via.val, .spdmError .session⟩] }))
    ∧ (s.sessions.any (fun x => x.id == id && x.via == via.val && x.ready == true) = false → ∀ i ∈ [Instr.endSession via id, .heartbeat via id],
      exec i s = .next (settle { s with mgmt := s.mgmt ++ [⟨via.val, .spdmError .session⟩] })))
  ∧ (∀ (via : Fin 2) (id : Nat) (s : State), s.mgmtUp = false → ∀ i ∈ [Instr.getVersion via, .finish via id, .endSession via id, .heartbeat via id],
    exec i s = .next (settle s))

/-- PLDM: identifiers and parameters are answered, and an update goes from its request through its components and their data to the
activation, or is cancelled; a command out of order, with a bad field, or in the way of another staging is answered with its code, and none is
answered while the transports are down (R513, R514). -/
def Obligations.PldmCommandsComplete : Prop :=
  (∀ s : State, s.mgmtUp = true →
    exec .queryDeviceIdentifiers s = .next (settle { s with mgmt := s.mgmt ++ [⟨1, .identifiers Config.serial.toNat⟩] })
    ∧ exec .getFirmwareParameters s = .next (settle { s with mgmt := s.mgmt ++ [⟨1, .parameters ((List.range 7).map (fun c =>
      (c, s.fwVersion s.fwSet c, s.fwVersion s.fwOther c)))⟩] })
    ∧ ((s.pldm.isSome = true ∨ s.mboxStage = true) →
      exec .requestUpdate s = .next (settle { s with mgmt := s.mgmt ++ [⟨1, .update .inProgress⟩] }))
    ∧ (s.pldm = none → s.mboxStage = false → s.fwBusy = true →
      exec .requestUpdate s = .next (settle { s with mgmt := s.mgmt ++ [⟨1, .update .refused⟩] }))
    ∧ (s.pldm = none → s.mboxStage = false → s.fwBusy = false →
      exec .requestUpdate s = .next (settle { s with pldm := some {}, mgmt := s.mgmt ++ [⟨1, .update .ok⟩] })))
  ∧ (∀ (comps : List Nat) (comp size : Nat) (data : List Byte) (i : Instr) (s : State),
    i ∈ [.cancelUpdate, .passComponentTable comps, .updateComponent comp size, .requestFirmwareData data, .activateFirmware] →
    (s.mgmtUp = true → s.pldm = none → exec i s = .next (settle { s with mgmt := s.mgmt ++ [⟨1, .update .sequence⟩] }))
    ∧ (s.mgmtUp = false → exec i s = .next (settle s)))
  ∧ (∀ s : State, s.mgmtUp = false → ∀ i ∈ [Instr.queryDeviceIdentifiers, .getFirmwareParameters, .requestUpdate], exec i s = .next (settle s))
  ∧ (∀ (s : State) (u : Pldm) (say : PldmCode → State), s.mgmtUp = true → s.pldm = some u →
    say = (fun c => settle { s with mgmt := s.mgmt ++ [⟨1, .update c⟩] }) →
    exec .cancelUpdate s = .next (settle { s with pldm := none, mgmt := s.mgmt ++ [⟨1, .update .ok⟩] })
    ∧ (∀ comps, (u.comp = none → (∀ c ∈ comps, c < 7) → exec (.passComponentTable comps) s
        = .next (settle { s with pldm := some { u with comps := comps }, mgmt := s.mgmt ++ [⟨1, .update .ok⟩] }))
      ∧ (u.comp = none → (∃ c ∈ comps, 7 ≤ c) → exec (.passComponentTable comps) s = .next (say .badField))
      ∧ (u.comp.isSome = true → exec (.passComponentTable comps) s = .next (say .sequence)))
    ∧ (∀ comp size, (u.comp = none → comp ∈ u.comps → size ≠ 0 → fwRange comp 0 size = true →
        ∃ t, exec (.updateComponent comp size) s = .next t ∧ t.pldm = some { u with comp := some comp, size := size, offset := 0 }
          ∧ t.mgmt = s.mgmt ++ [⟨1, .update .ok⟩, ⟨1, .requestData comp 0 size⟩] ∧ t.fw = s.fw)
      ∧ (u.comp = none → comp ∈ u.comps → (size = 0 ∨ fwRange comp 0 size = false) →
        exec (.updateComponent comp size) s = .next (say .badField))
      ∧ ((u.comp.isSome = true ∨ comp ∉ u.comps) → exec (.updateComponent comp size) s = .next (say .sequence)))
    ∧ (∀ data, u.comp = none → exec (.requestFirmwareData data) s = .next (settle s))
    ∧ (∀ data c d, u.comp = some c → d = data.take (u.size - u.offset) →
      (u.offset + d.length < u.size → ∃ t, exec (.requestFirmwareData data) s = .next t
        ∧ t.pldm = some { u with offset := u.offset + d.length }
        ∧ t.mgmt = s.mgmt ++ [⟨1, .requestData c (u.offset + d.length) (u.size - (u.offset + d.length))⟩]
        ∧ t.fw.rdN (fwBase s.fwOther c + u.offset) d.length = d)
      ∧ (u.size ≤ u.offset + d.length → ∃ t, exec (.requestFirmwareData data) s = .next t
        ∧ t.pldm = some { comps := u.comps.filter (fun x => x != c) } ∧ t.fw.rdN (fwBase s.fwOther c + u.offset) d.length = d
        ∧ (u.comps.filter (fun x => x != c) ≠ [] → t.mgmt = s.mgmt ++ [⟨1, .transferComplete c⟩])
        ∧ (u.comps.filter (fun x => x != c) = [] → ∃ r, t.mgmt = s.mgmt ++ [⟨1, .transferComplete c⟩, ⟨1, .verifyComplete c r⟩,
            ⟨1, .applyComplete c r⟩] ∧ (r = 0 ↔ t.rd F.hfFwStatus_stagedOk 0 = 1))))
    ∧ ((u.comp.isSome = true ∨ u.comps ≠ []) → exec .activateFirmware s = .next (say .sequence))
    ∧ (u.comp = none → u.comps = [] →
      (s.stage = 9 → s.fwOk s.fwOther = false → exec .activateFirmware s = .next (say .refused))
      ∧ (s.stage = 9 → s.fwOk s.fwOther = true → ∃ t, exec .activateFirmware s = .next t ∧ t.pldm = none ∧ t.flash.bootSet = s.fwOther)
      ∧ (s.stage ≠ 9 → s.actRefuse (s.ft + 10000000) ≠ 0 → exec .activateFirmware s = .next (say .refused))
      ∧ (s.stage ≠ 9 → s.actRefuse (s.ft + 10000000) = 0 →
        ∃ t, exec .activateFirmware s = .next t ∧ t.act = some { at_ := s.ft + 10000000, mbox := none } ∧ t.pldm = none
          ∧ t.rd F.hfFwStatus_actPending 0 = 1 ∧ t.mgmt = s.mgmt ++ [⟨1, .update .ok⟩])))

/-- Faults on the rails and the input: a partition whose rails fail goes dark, a lost converter or regulator phase is recorded and too many of
them take the bank or the cluster down, a shorted cluster goes dark, the input limit lowers every cluster's cap, and a bank B8 fault or an
input out of range turns the module off; a part without power, and an input in its limits, sees none of it (R423 to R428). -/
def Obligations.PowerFaultsComplete : Prop :=
  (∀ (p : PartId) (s : State), (s.partLive p.val = true →
      exec (.bankFuseOpen p) s = .next (settle (s.darken p.val 1)) ∧ exec (.transitRailShort p) s = .next (settle (s.darken p.val 2))
      ∧ exec (.smRailShort p) s = .next (settle (s.darken p.val 3)))
    ∧ (s.partLive p.val = false → ∀ i ∈ [Instr.bankFuseOpen p, .transitRailShort p, .smRailShort p], exec i s = .next (settle s)))
  ∧ (∀ (p : PartId) (z : Fin 6) (s u : State) (i : Nat), i = p.val * 6 + z.val →
    (s.partLive p.val = true → 4 ≤ s.rd F.partPwrZone_phases i →
      ∃ t, exec (.converterPhaseLoss p z) s = .next t ∧ t.rd F.partPwrZone_phases i = s.rd F.partPwrZone_phases i - 1
        ∧ t.rd F.partPwrBank_phasesOk p.val = s.rd F.partPwrBank_phasesOk p.val - 1
        ∧ t.rd F.partPwrSticky_convPhaseLoss p.val = 1 ∧ t.mem = s.mem ∧ t.queues = s.queues)
    ∧ (s.partLive p.val = true → s.rd F.partPwrZone_phases i ≠ 0 → s.rd F.partPwrZone_phases i ≤ 3 →
      u = ((s.wr F.partPwrZone_phases i (s.rd F.partPwrZone_phases i - 1)).wr F.partPwrBank_phasesOk p.val
        (s.rd F.partPwrBank_phasesOk p.val - 1)).stick F.partPwrSticky_convPhaseLoss p.val p.val →
      exec (.converterPhaseLoss p z) s = .next (settle (u.darken p.val 1)))
    ∧ ((s.partLive p.val = false ∨ s.rd F.partPwrZone_phases i = 0) → exec (.converterPhaseLoss p z) s = .next (settle s)))
  ∧ (∀ (p : PartId) (c : CluId) (i : Fin 8) (s : State) (k w : Nat), k = 36 * p.val + c.val →
    w = putBits (s.rd F.partPwrClu_phasesOk k) i.val 1 0 →
    (s.partLive p.val = true → s.cluState k ≠ 3 → bitAt (s.rd F.partPwrClu_phasesOk k) i.val = true → 7 ≤ countBelow 8 (fun j => bitAt w j) →
      ∃ t, exec (.vrPhaseLoss p c i) s = .next t ∧ t.rd F.partPwrClu_phasesOk k = w ∧ mget t.flash.phases k = some w
        ∧ (t.cluSt k).regulator = 5 ∧ t.rd F.partPwrClu_op5Cap k = 1 ∧ t.rd F.partPwrSticky_vrPhaseLoss p.val = 1
        ∧ t.reports.length = s.reports.length + 1)
    ∧ (s.partLive p.val = true → s.cluState k ≠ 3 → bitAt (s.rd F.partPwrClu_phasesOk k) i.val = true → countBelow 8 (fun j => bitAt w j) < 7 →
      ∃ t, exec (.vrPhaseLoss p c i) s = .next t ∧ t.cluState k = 3 ∧ t.rd F.partPwrClu_phasesOk k = w
        ∧ t.rd F.partPwrSticky_clusterDark p.val = 1)
    ∧ ((s.partLive p.val = false ∨ s.cluState k = 3 ∨ bitAt (s.rd F.partPwrClu_phasesOk k) i.val = false) →
      exec (.vrPhaseLoss p c i) s = .next (settle s)))
  ∧ (∀ (p : PartId) (c : CluId) (s : State) (k : Nat), k = 36 * p.val + c.val →
    (s.partLive p.val = true → s.cluState k ≠ 3 →
      ∃ t, exec (.clusterRailShort p c) s = .next t ∧ t.cluState k = 3 ∧ t.rd F.partPwrSticky_clusterDark p.val = 1)
    ∧ ((s.partLive p.val = false ∨ s.cluState k = 3) → exec (.clusterRailShort p c) s = .next (settle s)))
  ∧ (∀ s : State, (∀ r, s.board.powered = true → (s.report 0x0D (s.blank unitPower)).reports.getLast? = some r →
      exec .b8Fault s = .next (settle (((s.report 0x0D (s.blank unitPower)).logAdd r).shutDown)))
    ∧ (s.board.powered = true → ∃ t, exec .b8Fault s = .next t ∧ t.board.powered = false ∧ t.board.pgood = false)
    ∧ (s.board.powered = false → exec .b8Fault s = .next (settle s)))
  ∧ (∀ (vin iin : Nat) (s : State), (s.board.powered = true → 4500 < iin → ∃ t, exec (.inputLimit vin iin) s = .next t
      ∧ t.rd F.hfPwrInput_inputLimit 0 = satAdd F.hfPwrInput_inputLimit.len (s.rd F.hfPwrInput_inputLimit 0) 1
      ∧ t.rd F.hfPwrSticky_inputLimit 0 = 1 ∧ t.rd F.hfPwrInput_iin 0 = min iin 65535
      ∧ ∀ c, c < 288 → (t.cluSt c).power ≤ s.rd F.cluOp_curOp c - 2)
    ∧ ((s.board.powered = false ∨ iin ≤ 4500) → exec (.inputLimit vin iin) s = .next (settle s)))
  ∧ (∀ (vin : Nat) (s u : State), u = { s with board := { s.board with inRange := false } } →
    (vin < 38000 → exec (.inputUndervoltage vin) s = .next (settle (if s.board.powered then u.shutDown else u)))
    ∧ (62000 < vin → exec (.inputOvervoltage vin) s = .next (settle (if s.board.powered then u.shutDown else u)))
    ∧ (38000 ≤ vin → exec (.inputUndervoltage vin) s = .next (settle s))
    ∧ (vin ≤ 62000 → exec (.inputOvervoltage vin) s = .next (settle s)))

/-- Power management: a cap and a contract in range are taken and others marked, the loop shows its readings, the contract's cap is renewed at
each 10 ms, slack is shown when its commands are done or a shift late, the broker is elected in the district, contributions and grants go their
way, three periods without a grant end it, and energy totals reach flash every 10 minutes (R434 to R445). -/
def Obligations.PowerManagementCompletes : Prop :=
  (∀ (f : Func) (v : Word64) (s : State) (w : Nat), s.gate f .hfPwrCap 0 true = .ok → w = bits v.toNat 0 15 →
    (4000 ≤ w → w ≤ 18000 → ∃ t, exec (.capWrite f v) s = .next t ∧ t.rd F.hfPwrCap_capW 0 = w ∧ t.rd F.hfPwrCap_capErr 0 = 0
      ∧ t.rd F.hfPwrCap_effCap 0 ≤ w ∧ t.mem = s.mem)
    ∧ ((w < 4000 ∨ 18000 < w) → exec (.capWrite f v) s = .next (settle (s.wr F.hfPwrCap_capErr 0 1))))
  ∧ (∀ (m : PowerMeas) (s : State), s.board.powered = true → s.board.perstN = true → (s.act.any (fun a => a.c.isSome) = true →
      exec (.powerLoop m) s = .next (settle (s.readings m)))
    ∧ ∃ t, exec (.powerLoop m) s = .next t ∧ t.rd F.hfPwrMeas_inputW 0 = min m.input 65535
      ∧ t.rd F.hfPwrEnergy_moduleUj 0 = (s.rd F.hfPwrEnergy_moduleUj 0 + m.uj.getD 0 0) % 2 ^ 64 ∧ t.mem = s.mem)
  ∧ (∀ (m : PowerMeas) (s : State), (s.board.powered = false ∨ s.board.perstN = false) → exec (.powerLoop m) s = .next (settle s))
  ∧ (∀ (f : Func) (v : Word64) (s : State), s.gate f .hfPwrContract 0 true = .ok →
    (4000 ≤ bits v.toNat 8 15 → 1 ≤ bits v.toNat 1 6 → bits v.toNat 1 6 ≤ 60 → ∃ t, exec (.contractWrite f v) s = .next t
      ∧ t.rd F.hfPwrContract_en 0 = v.toNat % 2 ∧ t.rd F.hfPwrContract_windowS 0 = bits v.toNat 1 6
      ∧ t.rd F.hfPwrContract_targetW 0 = bits v.toNat 8 15 ∧ t.rd F.hfPwrContract_contractErr 0 = 0
      ∧ (v.toNat % 2 = 0 → t.power.contract = none))
    ∧ ((bits v.toNat 8 15 < 4000 ∨ bits v.toNat 1 6 = 0 ∨ 60 < bits v.toNat 1 6) →
      exec (.contractWrite f v) s = .next (settle (s.wr F.hfPwrContract_contractErr 0 1))))
  ∧ (∀ s : State, (s.flag F.hfPwrContract_en 0 = true → s.power.contractLast < s.ft / 10000000 →
      ∃ t w, exec .contractUpdate s = .next t ∧ t.power.contract = some w ∧ w ≤ s.rd F.hfPwrCap_capW 0
        ∧ (4000 ≤ s.rd F.hfPwrCap_capW 0 → 4000 ≤ w) ∧ t.power.contractLast = s.ft / 10000000
        ∧ t.power.lastUj = s.rd F.hfPwrEnergy_moduleUj 0)
    ∧ ((s.flag F.hfPwrContract_en 0 = false ∨ s.ft / 10000000 ≤ s.power.contractLast) → exec .contractUpdate s = .next (settle s)))
  ∧ (∀ (p : PartId) (s : State) (r : SlackRun) (len : Nat) (v : Int), s.slackRuns.find? (fun r => r.part == p.val) = some r →
    len = (s.active.map (·.shiftLen)).getD 0 →
    ((r.ref ≤ s.ftPart p.val ∧ s.slackOpen r = false ∧ v = (r.ref : Int) - r.done
        ∨ r.ref + len ≤ s.ftPart p.val ∧ s.slackOpen r = true ∧ v = -(len : Int)) →
      ∃ t, exec (.slackReport p) s = .next t ∧ t.slackRuns = s.slackRuns.filter (fun x => x != r)
        ∧ t.rd F.partPwrSlack_slack p.val = ofSigned 32 v ∧ t.slacks = s.slacks ++ [(r.ref, v)])
    ∧ ((s.ftPart p.val < r.ref ∨ s.slackOpen r = true ∧ s.ftPart p.val < r.ref + len) → exec (.slackReport p) s = .next (settle s)))
  ∧ (∀ (p : PartId) (s : State), s.slackRuns.find? (fun r => r.part == p.val) = none → exec (.slackReport p) s = .next (settle s))
  ∧ (∀ (x : PortId) (dst prio serial : Nat) (s : State), s.mySerial dst = true → s.portUp x.val = true → s.apart x.val = false →
    ((s.power.best = none ∨ ∃ b, s.power.best = some b ∧ (prio, serial) ≠ b ∧ keyLess (prio, serial) b = true) →
      ∃ t, exec (.brokerElect ⟨x, dst⟩ prio serial) s = .next t ∧ t.power.best = some (prio, serial)
        ∧ t.rd F.hfPwrBrokerId_brokerSerial 0 = serial % 2 ^ F.hfPwrBrokerId_brokerSerial.len)
    ∧ (∀ b, s.power.best = some b →
      ((prio, serial) ≠ b → keyLess (prio, serial) b = false →
        exec (.brokerElect ⟨x, dst⟩ prio serial) s = .next (settle (s.portSend x.val 2 (.elect b.1 b.2))))
      ∧ ((prio, serial) = b → exec (.brokerElect ⟨x, dst⟩ prio serial) s = .next (settle s))))
  ∧ (∀ (x : PortId) (dst prio serial : Nat) (s : State), (s.mySerial dst = false ∨ s.portUp x.val = false ∨ s.apart x.val = true) →
    exec (.brokerElect ⟨x, dst⟩ prio serial) s = .next (settle s))
  ∧ (∀ s : State, (s.flag F.hfPwrBroker_en 0 = true → s.power.period < s.ft / s.periodTicks →
      ∃ t, exec .brokerPeriod s = .next t ∧ t.power.period = s.ft / s.periodTicks
        ∧ t.rd F.hfPwrBrokerStat_cW 0 = s.contribution % 2 ^ F.hfPwrBrokerStat_cW.len ∧ t.mem = s.mem
        ∧ (s.rd F.hfPwrBrokerStat_role 0 = 2 → ∃ m, t.power.members.getLast? = some m ∧ m.serial = s.rd F.hfVxSerial_serial 0
          ∧ m.c = s.contribution ∧ m.slack = s.periodSlack (s.ft / s.periodTicks)))
    ∧ ((s.flag F.hfPwrBroker_en 0 = false ∨ s.ft / s.periodTicks ≤ s.power.period) → exec .brokerPeriod s = .next (settle s)))
  ∧ (∀ (ms : List Contrib) (s : State), (s.rd F.hfPwrBrokerStat_role 0 = 2 → ∃ t, exec (.grantCompute ms) s = .next t
      ∧ (∀ m ∈ t.power.members, m.serial ≠ s.rd F.hfVxSerial_serial 0 → ∃ c ∈ ms, c.serial = m.serial ∧ c.group = m.group ∧ c.c = m.c)
      ∧ ∀ r i, r ≠ .hfBoard → t.reg r i = s.reg r i)
    ∧ (s.rd F.hfPwrBrokerStat_role 0 ≠ 2 → exec (.grantCompute ms) s = .next (settle s)))
  ∧ (∀ (w at_ : Nat) (s : State), at_ = s.grantT + (if s.grantNow.all (fun g => decide (w % 2 ^ 15 ≤ g)) then 0 else 100000) →
    (s.flag F.hfPwrBroker_en 0 = true → at_ ≤ s.ft → ∃ t, exec (.grantApply w) s = .next t
      ∧ t.power.ownGrant = some (w % 2 ^ 15) ∧ t.power.granted = s.power.period ∧ t.rd F.hfPwrBrokerStat_noGrant 0 = 0)
    ∧ ((s.flag F.hfPwrBroker_en 0 = false ∨ s.ft < at_) → exec (.grantApply w) s = .next (settle s)))
  ∧ (∀ s : State, (s.flag F.hfPwrBroker_en 0 = true → s.power.granted + 3 ≤ s.power.period → ∃ t, exec .noGrant s = .next t
      ∧ t.power.ownGrant = none ∧ t.rd F.hfPwrBrokerStat_noGrant 0 = 1 ∧ t.rd F.hfPwrSticky_brokerLost 0 = 1)
    ∧ ((s.flag F.hfPwrBroker_en 0 = false ∨ s.power.period < s.power.granted + 3) → exec .noGrant s = .next (settle s)))
  ∧ (∀ s : State, exec .energyFlashWrite s = .next (settle (if s.board.powered = true ∧ s.flash.writtenAt + 600 ≤ s.onSecs then
      { s with flash := { s.flash with life := s.lifeNow, onSeconds := s.onSecs, writtenAt := s.onSecs } } else s)))

/-- Switching, temperature and sequencing: an idle cluster is switched off, a wanted one is soft-started where the zone has room, deferred where
not, and then runs, a hot cluster, domain or stack is throttled and freed in steps and a too hot module trips, and PWR_EN, the input and the off
interval power the module up and down; out of their conditions these events change nothing (R431 to R433, R448 to R450, R526 to R528). -/
def Obligations.PowerSequencesComplete : Prop :=
  (∀ (p : PartId) (c : CluId) (s : State) (k : Nat) (ok : Bool), k = 36 * p.val + c.val →
    ok = (s.flag F.partPwrGate_gateEn p.val && s.cluState k == 2 && !s.roles.any (fun e => cluIdx e.1 == k) && !s.cluAwaited k && s.idleLong k
      && s.stickyClear k) →
    (ok = true → ∃ t, exec (.clusterSwitchOff p c) s = .next t ∧ t.cluState k = 0 ∧ t.mem = s.mem)
    ∧ (ok = false → exec (.clusterSwitchOff p c) s = .next (settle s)))
  ∧ (∀ (f : Func) (p : PartId) (v : Word64) (s : State), s.gate f .partPwrGate p.val true = .ok →
    (v.toNat % 2 = 1 → exec (.gateEnWrite f p v) s = .next (settle (s.softWr .partPwrGate p.val v.toNat)))
    ∧ (v.toNat % 2 = 0 → ∃ t, exec (.gateEnWrite f p v) s = .next t
      ∧ ∀ c, c < 36 → s.cluState (36 * p.val + c) = 0 → (t.cluSt (36 * p.val + c)).wake = true))
  ∧ (∀ (p : PartId) (z i : Fin 6) (cur : Nat) (s : State) (k : Nat), k = 36 * p.val + 6 * z.val + i.val → s.cluState k = 0 →
    (s.cluSt k).wake = true →
    (∀ j, j < i.val → (s.cluSt (36 * p.val + 6 * z.val + j)).wake = false ∨ s.cluState (36 * p.val + 6 * z.val + j) ≠ 0) →
    ((s.ftPart p.val % 1024 ≠ 0 ∨ s.partLive p.val = false) → exec (.switchOnSlot p z cur) s = .next (settle s))
    ∧ (s.ftPart p.val % 1024 = 0 → s.partLive p.val = true →
      (cur + 300 ≤ s.zoneRating p.val z.val →
        ∃ t, exec (.switchOnSlot p z cur) s = .next t ∧ t.cluState k = 1 ∧ (t.cluSt k).wake = false ∧ (t.cluSt k).softAt = s.ftPart p.val)
      ∧ (s.zoneRating p.val z.val < cur + 300 →
        ∃ t, exec (.switchOnSlot p z cur) s = .next t ∧ t.cluState k = 0 ∧ (t.cluSt k).wake = true
          ∧ (t.cluSt k).deferred = (s.cluSt k).deferred + 1
          ∧ t.rd F.partPwrZone_deferrals (p.val * 6 + z.val)
            = satAdd F.partPwrZone_deferrals.len (s.rd F.partPwrZone_deferrals (p.val * 6 + z.val)) 1)))
  ∧ (∀ (p : PartId) (z : Fin 6) (cur : Nat) (s : State), (∀ i, i < 6 → (s.cluSt (36 * p.val + 6 * z.val + i)).wake = false
      ∨ s.cluState (36 * p.val + 6 * z.val + i) ≠ 0) → exec (.switchOnSlot p z cur) s = .next (settle s))
  ∧ (∀ (p : PartId) (c : CluId) (s : State) (k : Nat), k = 36 * p.val + c.val →
    (s.cluState k = 1 → (s.cluSt k).softAt + 20000 ≤ s.ftPart p.val → s.partLive p.val = true →
      ∃ t, exec (.softStartDone p c) s = .next t ∧ t.cluState k = 2 ∧ t.rd F.cluOp_curOp k = 0
        ∧ t.rd F.partPwrGate_switchOns p.val = satAdd F.partPwrGate_switchOns.len (s.rd F.partPwrGate_switchOns p.val) 1)
    ∧ ((s.cluState k ≠ 1 ∨ s.ftPart p.val < (s.cluSt k).softAt + 20000 ∨ s.partLive p.val = false) →
      exec (.softStartDone p c) s = .next (settle s)))
  ∧ (∀ (xs : List Sensor) (inlet outlet : Int) (s : State), (s.board.powered = false → exec (.thermalSample xs inlet outlet) s = .next (settle s))
    ∧ (s.board.powered = true → ∃ t, exec (.thermalSample xs inlet outlet) s = .next t ∧ t.rd F.hfPwrTherm_inlet 0 = ofSigned 16 inlet
      ∧ t.rd F.hfPwrTherm_outlet 0 = ofSigned 16 outlet ∧ (s.thermNow = true → t.rd F.hfPwrTherm_state 0 = 2)
      ∧ (∀ x, s.thermNow = false → xs.find? (fun x => decide ((tripAt x.kind : Int) ≤ x.temp)) = some x → t.rd F.hfPwrTherm_state 0 = 2
        ∧ t.rd F.hfPwrSticky_thermalTrip 0 = 1 ∧ t.board.therm = true)))
  ∧ (∀ (c : Fin 288) (temp inlet outlet : Int) (s : State) (x : Clu), s.board.powered = true → s.thermNow = false → x = s.cluSt c.val →
    (400 ≤ temp → temp < 460 → (x.hot = false ∨ x.thermAt + 100000 ≤ s.up) →
      ∃ t, exec (.thermalSample [{ kind := 1, index := c.val, temp := temp }] inlet outlet) s = .next t ∧ t.rd F.hfPwrTherm_state 0 = 1
        ∧ (t.cluSt c.val).hot = true ∧ (t.cluSt c.val).thermal = min x.thermal (s.rd F.cluOp_curOp c.val) - 1
        ∧ (x.hot = false → t.rd F.partPwrSticky_thermalThrottle (c.val / 36) = 1) ∧ t.rd F.partPwrClu_temp c.val = ofSigned 16 temp)
    ∧ (temp ≤ 388 → (x.hot = true ∨ x.thermal < 7) → x.thermAt + 1000000 ≤ s.up →
      ∃ t, exec (.thermalSample [{ kind := 1, index := c.val, temp := temp }] inlet outlet) s = .next t
        ∧ (t.cluSt c.val).hot = false ∧ (t.cluSt c.val).thermal = x.thermal + 1 ∧ t.rd F.partPwrClu_temp c.val = ofSigned 16 temp))
  ∧ (∀ (x : Sensor) (inlet outlet : Int) (s : State) (k : Nat), s.board.powered = true → s.thermNow = false → x.kind ≠ 1 →
    k = x.kind * 1000 + x.index →
    ((hotAt x.kind : Int) ≤ x.temp → x.temp < (tripAt x.kind : Int) → ∃ t, exec (.thermalSample [x] inlet outlet) s = .next t
      ∧ t.rd F.hfPwrTherm_state 0 = 1 ∧ mget t.power.throttled k = some none)
    ∧ (∀ at_, x.temp ≤ (coolAt x.kind : Int) → mget s.power.throttled k = some (some at_) → at_ + 1000000 ≤ s.up →
      ∃ t, exec (.thermalSample [x] inlet outlet) s = .next t ∧ mget t.power.throttled k = none))
  ∧ (∀ s u : State, u = { s with board := { s.board with pwrEn := true } } →
    (s.board.pwrEn = true → exec .pwrEnAssert s = .next (settle s))
    ∧ (s.board.pwrEn = false → s.board.powered = true → exec .pwrEnAssert s = .next (settle (if s.board.poweringDown then
        { u with board := { u.board with pwrEnWaits := true } } else u)))
    ∧ (s.board.pwrEn = false → s.board.powered = false →
      (s.board.offHold = true → s.up < s.board.offSince + 100000000 →
        exec .pwrEnAssert s = .next (settle { u with board := { u.board with pwrEnWaits := true } }))
      ∧ (s.board.offHold = true → s.board.offSince + 100000000 ≤ s.up → s.up < s.board.pwrLowSince + 100000000 →
        exec .pwrEnAssert s = .next (settle u))
      ∧ ((s.board.offHold = false ∨ s.board.offSince + 100000000 ≤ s.up ∧ s.board.pwrLowSince + 100000000 ≤ s.up) →
        (s.board.inRange = false → exec .pwrEnAssert s = .next (settle { u with board := { u.board with pwrEnWaits := true } }))
        ∧ (s.board.inRange = true → ∃ t, exec .pwrEnAssert s = .next t ∧ t.board.powered = true ∧ t.board.pgood = true
          ∧ t.board.pwrEn = true ∧ t.board.offHold = false ∧ t.firstBoot = true))))
  ∧ (∀ s : State, (s.board.pwrEn = false → exec .pwrEnDeassert s = .next (settle s))
    ∧ (s.board.pwrEn = true → s.board.powered = false → ∃ t, exec .pwrEnDeassert s = .next t ∧ t.board.pwrEn = false
      ∧ t.board.pwrLowSince = s.up ∧ t.mem = s.mem)
    ∧ (s.board.pwrEn = true → s.board.powered = true →
      ∃ t, exec .pwrEnDeassert s = .next t ∧ t.board.poweringDown = true ∧ t.board.perstN = false ∧ t.flash.life = s.lifeNow))
  ∧ (∀ s : State, (s.board.poweringDown = true → ∃ t, exec .powerDownDone s = .next t ∧ t.board.powered = false ∧ t.board.pgood = false
      ∧ t.board.offHold = true ∧ t.board.offSince = s.up ∧ t.retireFlash = s.retireFlash ++ s.retirePend.map (fun r => (r.1, r.2.1)))
    ∧ (s.board.poweringDown = false → exec .powerDownDone s = .next (settle s)))
  ∧ (∀ (s u : State) (go : Bool), u = { s with board := { s.board with inRange := true } } →
    go = (s.board.pwrEn && s.board.pwrEnWaits && !s.board.powered && !(s.board.offHold && decide (s.up < s.board.offSince + 100000000))) →
    (go = true → ∃ t, exec .inputInRange s = .next t ∧ t.board.powered = true ∧ t.board.inRange = true ∧ t.board.offHold = false)
    ∧ (go = false → exec .inputInRange s = .next (settle u)))
  ∧ (∀ (s : State) (go : Bool), go = (s.board.pwrEn && s.board.pwrEnWaits && !s.board.powered && s.board.offHold && s.board.inRange
      && decide (s.board.offSince + 100000000 ≤ s.up)) →
    (go = true → ∃ t, exec .powerOffIntervalEnd s = .next t ∧ t.board.powered = true ∧ t.board.offHold = false)
    ∧ (go = false → exec .powerOffIntervalEnd s = .next (settle s)))

/-- Resets (R396, R449, R488 to R496). A write to PART_RST with go begins its reset: the unit's cores are fenced and the reset runs; while one
runs there, it only writes its fields; a reserved kind, a unit out of range or off or dark is refused; under a device compute or module reset no
run of its own begins. HF_RST likewise: a device compute reset waits for an activation that has begun, a module reset is refused while a tripped
module is too hot. The drain ends what has started, or boots; the work ends the reset unless a cluster holds; Function Level Resets reset the
function's partitions, or the device. -/
def Obligations.ResetsComplete : Prop :=
  (∀ (f : Func) (p : PartId) (v : Word64) (s : State) (k tg : Nat) (i : Instr), s.gate f .partRst p.val true = .ok →
    k = bits v.toNat 0 2 → tg = bits v.toNat 2 10 → bitAt v.toNat 12 = true →
    (k = 0 ∧ i = .coreReset f p v ∨ k = 1 ∧ i = .clusterReset f p v ∨ k = 2 ∧ i = .partitionReset f p v
      ∨ k = 3 ∧ i = .resetReservedKind f (some p) v) →
    (s.flag F.partRst_busy p.val = true →
      exec i s = .next (settle ((s.wr F.partRst_kind p.val k).wr F.partRst_target p.val tg)))
    ∧ (s.flag F.partRst_busy p.val = false → s.partRefuse p.val k tg = true →
      exec i s = .next (settle ((((s.wr F.partRst_kind p.val k).wr F.partRst_target p.val tg).wr F.partRst_refused p.val 1).wr
        F.partRst_go p.val 0)))
    ∧ (s.flag F.partRst_busy p.val = false → s.partRefuse p.val k tg = false →
      ∃ t, exec i s = .next t ∧ t.rd F.partRst_busy p.val = 1 ∧ t.rd F.partRst_go p.val = 1 ∧ t.rd F.partRst_refused p.val = 0
        ∧ ((∀ r ∈ s.resets, r.kind < 3) → ResetBegun s t k p.val tg)
        ∧ ((∃ r ∈ s.resets, 3 ≤ r.kind) → t.resets = s.resets)))
  ∧ (∀ (f : Func) (v : Word64) (s : State), s.gate f .hfRst 0 true = .ok →
    (s.flag F.hfRst_busy 0 = true →
      (bits v.toNat 0 3 = 5 → exec (.deviceComputeReset f v) s = .next (settle (s.wr F.hfRst_kind 0 1)))
      ∧ (bits v.toNat 0 3 = 6 → exec (.moduleReset f v) s = .next (settle (s.wr F.hfRst_kind 0 2)))
      ∧ (bits v.toNat 0 2 ∈ [0, 3] → bitAt v.toNat 2 = true →
        exec (.resetReservedKind f none v) s = .next (settle (s.wr F.hfRst_kind 0 (bits v.toNat 0 2)))))
    ∧ (s.flag F.hfRst_busy 0 = false →
      (bits v.toNat 0 3 = 5 → ∃ t, exec (.deviceComputeReset f v) s = .next t ∧ t.rd F.hfRst_busy 0 = 1 ∧ t.rd F.hfRst_go 0 = 1
        ∧ ((∀ a, s.act = some a → a.begun = false) → ResetBegun s t 3 0 0 ∧ t.swap = none)
        ∧ (∀ a, s.act = some a → a.begun = true → t.resetWaits = true ∧ t.resets = s.resets))
      ∧ (bits v.toNat 0 3 = 6 → s.tooHot = false → ∃ t, exec (.moduleReset f v) s = .next t
        ∧ ResetBegun s t 4 0 0 ∧ t.rd F.hfRst_busy 0 = 1 ∧ t.rd F.hfRst_go 0 = 1 ∧ t.rd F.hfRst_refused 0 = 0)
      ∧ (bits v.toNat 0 3 = 6 → s.tooHot = true → exec (.moduleReset f v) s
        = .next (settle (((s.wr F.hfRst_kind 0 2).wr F.hfRst_refused 0 1).wr F.hfRst_go 0 0)))
      ∧ (bits v.toNat 0 2 ∈ [0, 3] → bitAt v.toNat 2 = true → exec (.resetReservedKind f none v) s
        = .next (settle (((s.wr F.hfRst_kind 0 (bits v.toNat 0 2)).wr F.hfRst_refused 0 1).wr F.hfRst_go 0 0)))))
  ∧ (∀ (k n : Nat) (s : State),
    (s.resets[k]? = none → exec (.drainEnd k n) s = .next (settle s) ∧ exec (.resetComplete k) s = .next (settle s))
    ∧ ∀ r : ResetRun, s.resets[k]? = some r →
      (r.drained = true ∨ r.kind = 4 ∧ s.tooHot = true → exec (.drainEnd k n) s = .next (settle s))
      ∧ (r.drained = false → r.kind = 4 → s.tooHot = false → exec (.drainEnd k n) s = .next (settle s.boot))
      ∧ (r.drained = false → r.kind ≠ 4 → ∃ t, exec (.drainEnd k n) s = .next t
        ∧ t.resets = s.resets.map (fun x => if x == r then { x with drained := true } else x))
      ∧ (r.drained = false ∨ s.thermNow = true
          ∨ (∃ c ∈ (if r.kind == 0 then [36 * r.part + r.target / 16] else r.clusters), (s.cluSt c).hold = true) →
        exec (.resetComplete k) s = .next (settle s))
      ∧ (r.drained = true → s.thermNow = false →
        (∀ c ∈ (if r.kind == 0 then [36 * r.part + r.target / 16] else r.clusters), (s.cluSt c).hold = false) →
        ∃ t, exec (.resetComplete k) s = .next t ∧ t.resets = s.resets.filter (fun x => x != r)
          ∧ (∀ p, (if 3 ≤ r.kind then p < 8 else p = r.part) →
            t.rd F.partRstStat_resets p = satAdd F.partRstStat_resets.len (s.rd F.partRstStat_resets p) 1
            ∧ t.rd F.partRst_lastUs p = min ((s.up - r.at_) / 1000) 65535 ∧ t.rd F.partRst_go p = 0)
          ∧ (3 ≤ r.kind → t.rd F.hfRst_busy 0 = 0 ∧ t.rd F.hfRst_go 0 = 0)))
  ∧ (∀ (k : Fin 8) (s : State),
    (s.rd F.hfHostLink_vfs 0 ≤ k.val → exec (.vfFlr k) s = .next (settle s))
    ∧ (k.val < s.rd F.hfHostLink_vfs 0 → ∃ t, exec (.vfFlr k) s = .next t
      ∧ (∀ i, i / 1024 = 1 + k.val → mget t.msix i = none)
      ∧ ∀ p, p < 8 → s.vfHasPart k.val p = true → s.partDark p = false → (∀ r ∈ s.resets, r.kind ≠ 2 ∨ r.part ≠ p) →
        t.rd F.partRst_busy p = 1 ∧ t.rd F.partRst_go p = 0
        ∧ ((∀ r ∈ s.resets, r.kind < 3) → (∃ r ∈ t.resets, r.kind = 2 ∧ r.part = p ∧ r.at_ = s.up)
          ∧ ∀ g, g < 4608 → partOf g = p → t.fenced g = true)))
  ∧ (∀ s : State,
    (s.flag F.hfRst_busy 0 = true → exec .pf0Flr s = .next (settle (loop 8 (fun k s => s.vfConfig k) s)))
    ∧ (s.flag F.hfRst_busy 0 = false → ∃ t, exec .pf0Flr s = .next t ∧ t.rd F.hfRst_busy 0 = 1 ∧ t.rd F.hfRst_go 0 = 0
      ∧ (∀ k i, k < 8 → i / 1024 = 1 + k → mget t.msix i = none)
      ∧ ((∀ a, s.act = some a → a.begun = false) → ResetBegun s t 3 0 0)
      ∧ (∀ a, s.act = some a → a.begun = true → t.resetWaits = true)))

/-- Boot (R21, R482 to R486, R393, R520, R524): PERST_N takes the module down, but for one still too hot from its trip, and its release starts it
with FT at 0. Management brings the per-boot tree and checks the dies; HBM training and the memory test lead on to READY or STOPPED, where a held
load starts; the test leaves every store zero and its repairs in the table. The CXL link shows what it trained to. An event out of its turn has no
effect. -/
def Obligations.BootEventsComplete : Prop :=
  (∀ s : State,
    (s.board.pgood = true → s.firstBoot = false → s.tooHot = false →
      exec .perstAssert s = .next (settle ({ s with board := { s.board with perstN := false } }).moduleLost))
    ∧ (s.board.pgood = false ∨ s.firstBoot = true ∨ s.tooHot = true →
      exec .perstAssert s = .next (settle { s with board := { s.board with perstN := false } })))
  ∧ (∀ (straps : Fin 16) (recoveryN : Bool) (s : State),
    (s.board.perstN = true ∨ s.board.pgood = false → exec (.perstRelease straps recoveryN) s = .next (settle s))
    ∧ (s.board.perstN = false → s.board.pgood = true → s.tooHot = true → exec (.perstRelease straps recoveryN) s = .next (settle
      { s with board := { s.board with perstN := true, strap := straps.val, recoveryN := recoveryN } }))
    ∧ (s.board.perstN = false → s.board.pgood = true → s.tooHot = false →
      ∃ t, exec (.perstRelease straps recoveryN) s = .next t ∧ t.ft = 0 ∧ t.board.perstN = true ∧ t.board.strap = straps.val
        ∧ t.firstBoot = false ∧ t.bootAt = s.up ∧ t.queues = []
        ∧ (recoveryN = false → t.stage = 9 ∧ t.rd F.hfFwStatus_recoveryCause 0 = 2)))
  ∧ (∀ (flashOk : Bool) (s : State),
    (s.board.powered = false ∨ s.board.perstN = false ∨ 4 ≤ s.stage → exec (.managementReady flashOk) s = .next (settle s))
    ∧ (s.board.powered = true → s.board.perstN = true → s.stage < 4 → ∃ t, exec (.managementReady flashOk) s = .next t
      ∧ (s.diesOk = true → t.stage = 4)
      ∧ (s.diesOk = false → t.stage = 8 ∧ t.rd F.hfBootStatus_stopCause 0 = 1)
      ∧ (s.flash.topIndex < 1048576 → flashOk = true → t.flash.topIndex = s.flash.topIndex + 1 ∧ t.rd F.hfSecState_bootLeaves 0 = 0)
      ∧ (s.flash.topIndex < 1048576 → flashOk = false → t.flash.topIndex = s.flash.topIndex ∧ t.rd F.hfErrSticky_flashErr 0 = 1)
      ∧ (1048576 ≤ s.flash.topIndex → t.flash.exhausted = true ∧ t.rd F.hfSecState_lmsExhausted 0 = 1)))
  ∧ (∀ (ok : Bool) (s : State),
    (s.stage ≠ 4 → s.stage ≠ 5 → exec (.hbmTrainingDone ok) s = .next (settle s))
    ∧ (s.stage = 4 ∨ s.stage = 5 →
      (exec (.hbmTrainingDone false) s = .next (settle ((s.wr F.hfBootStatus_stage 0 8).wr F.hfBootStatus_stopCause 0 2)))
      ∧ (s.testDue = true → ∃ t, exec (.hbmTrainingDone true) s = .next t ∧ t.stage = 6
        ∧ t.rd F.hfBootStatus_testRun 0 = (if s.quickNow.1 then 2 else 1)
        ∧ t.rd F.hfBootStatus_quickRefused 0 = ofBool s.quickNow.2)
      ∧ (s.testDue = false → s.heldLoad = false → exec (.hbmTrainingDone true) s = .next (settle ((s.wr F.hfBootStatus_stage 0 7).wr
        F.hfBootStatus_bootMs 0 ((s.up - s.bootAt) / 1000000))))
      ∧ (s.testDue = false → s.heldLoad = true → ∃ t, exec (.hbmTrainingDone true) s = .next t ∧ t.stage = 7 ∧ t.heldLoad = false
        ∧ t.load.isSome = true)))
  ∧ (∀ (r : TestResult) (s : State),
    (s.stage ≠ 6 → exec (.memoryTestDone r) s = .next (settle s))
    ∧ (s.stage = 6 → ∃ t, exec (.memoryTestDone r) s = .next t ∧ t.stage = 7
      ∧ t.rd F.hfBootStatus_testFail 0 = ofBool (!r.left.isEmpty)
      ∧ t.softRepair = s.softRepair ++ (r.cm ++ r.sm ++ r.hbm).map (fun x => (x, 1))
      ∧ t.flash.test.left = r.left.length
      ∧ t.flash.fullAt = (if s.rd F.hfBootStatus_testRun 0 = 1 ∧ r.left = [] then some s.onSecs else s.flash.fullAt)
      ∧ (s.heldLoad = false → t.mem = { lines := s.mem.lines })
      ∧ (s.heldLoad = true → t.heldLoad = false ∧ t.load.isSome = true)))
  ∧ (∀ (rate width : Fin 4) (lopt : Bool) (s : State),
    (rate.val = 0 ∨ width.val = 3 ∨ s.board.powered = false ∨ s.board.perstN = false ∨ s.stage = 9 →
      exec (.cxlLinkTrainingDone rate width lopt) s = .next (settle s))
    ∧ (rate.val ≠ 0 → width.val ≠ 3 → s.board.powered = true → s.board.perstN = true → s.stage ≠ 9 →
      exec (.cxlLinkTrainingDone rate width lopt) s
        = .next (settle (((s.wr F.hfHostLink_rate 0 rate.val).wr F.hfHostLink_width 0 width.val).wr F.hfHostLink_lopt 0 (ofBool lopt)))))
end

