-- ==== Sys2Proof/Laws/Store.lean ====
section
/-! SUPPORT. Laws of finite maps and byte stores: reading after writing, and the canonical form that every operation keeps. -/

namespace Sys2Proof.Machine

/-! ## Maps -/

@[simp] theorem mget_mput_same {ν : Type} (m : NMap ν) (a : Nat) (x : ν) : mget (mput m a x) a = some x := by
  induction m with
  | nil => simp [mput, mget]
  | cons e r ih =>
    obtain ⟨k, v⟩ := e
    by_cases h1 : a < k
    · simp [mput, mget, h1]
    · by_cases h2 : a = k
      · simp [mput, mget, h2]
      · simp [mput, mget, h1, h2, ih]

theorem mget_mput_ne {ν : Type} (m : NMap ν) {a b : Nat} (x : ν) (h : b ≠ a) : mget (mput m a x) b = mget m b := by
  induction m with
  | nil => simp [mput, mget, h]
  | cons e r ih =>
    obtain ⟨k, v⟩ := e
    by_cases h1 : a < k
    · simp [mput, mget, h1, h]
    · by_cases h2 : a = k
      · subst h2; simp [mput, mget, h]
      · simp [mput, mget, h1, h2, ih]

@[simp] theorem mget_mdel_same {ν : Type} (m : NMap ν) (a : Nat) : mget (mdel m a) a = none := by
  induction m with
  | nil => rfl
  | cons e r ih =>
    obtain ⟨k, v⟩ := e
    unfold mdel at *
    by_cases h : k = a
    · simp [h, ih]
    · have h' : ¬ a = k := fun e => h e.symm
      simp [h, h', mget, ih]

theorem mget_mdel_ne {ν : Type} (m : NMap ν) {a b : Nat} (h : b ≠ a) : mget (mdel m a) b = mget m b := by
  induction m with
  | nil => rfl
  | cons e r ih =>
    obtain ⟨k, v⟩ := e
    unfold mdel at *
    by_cases hk : k = a
    · subst hk; simp [mget, h, ih]
    · simp [hk, mget, ih]

@[simp] theorem mgetD_mput_same {ν : Type} (m : NMap ν) (a : Nat) (x d : ν) : mgetD (mput m a x) a d = x := by
  simp [mgetD]

theorem mgetD_mput_ne {ν : Type} (m : NMap ν) {a b : Nat} (x d : ν) (h : b ≠ a) : mgetD (mput m a x) b d = mgetD m b d := by
  simp [mgetD, mget_mput_ne m x h]

@[simp] theorem mgetD_mputD_same {ν : Type} [DecidableEq ν] (m : NMap ν) (a : Nat) (x d : ν) :
    mgetD (mputD m a x d) a d = x := by
  unfold mputD
  by_cases h : x = d <;> simp [h, mgetD]

theorem mgetD_mputD_ne {ν : Type} [DecidableEq ν] (m : NMap ν) {a b : Nat} (x d e : ν) (h : b ≠ a) :
    mgetD (mputD m a x d) b e = mgetD m b e := by
  unfold mputD
  by_cases hx : x = d <;> simp [hx, mgetD, mget_mdel_ne m h, mget_mput_ne m _ h]

@[simp] theorem mgetD_mdel_same {ν : Type} (m : NMap ν) (a : Nat) (d : ν) : mgetD (mdel m a) a d = d := by simp [mgetD]

theorem mgetD_mdel_ne {ν : Type} (m : NMap ν) {a b : Nat} (d : ν) (h : b ≠ a) : mgetD (mdel m a) b d = mgetD m b d := by
  simp [mgetD, mget_mdel_ne m h]

/-! ## Rising keys -/

/-- Rising keys as a statement about pairs, which filters keep. -/
theorem rising_iff {ν : Type} (m : NMap ν) : rising m = true ↔ m.Pairwise (fun a b => a.1 < b.1) := by
  induction m with
  | nil => simp [rising]
  | cons a r ih =>
    cases r with
    | nil => simp [rising]
    | cons b t =>
      simp only [rising, Bool.and_eq_true, decide_eq_true_eq, ih]
      constructor
      · rintro ⟨hab, hp⟩
        refine List.Pairwise.cons ?_ hp
        intro c hc
        rcases List.mem_cons.1 hc with rfl | hc
        · exact hab
        · exact Nat.lt_trans hab (List.rel_of_pairwise_cons hp hc)
      · intro hp
        exact ⟨List.rel_of_pairwise_cons hp (List.mem_cons_self ..), (List.pairwise_cons.1 hp).2⟩

theorem rising_filter {ν : Type} (m : NMap ν) (p : Nat × ν → Bool) (h : rising m = true) : rising (m.filter p) = true :=
  (rising_iff _).2 (((rising_iff m).1 h).filter p)

theorem rising_mdel {ν : Type} (m : NMap ν) (a : Nat) (h : rising m = true) : rising (mdel m a) = true := rising_filter m _ h

theorem rising_mdrop {ν : Type} (m : NMap ν) (p : Nat → Bool) (h : rising m = true) : rising (mdrop p m) = true :=
  rising_filter m _ h

/-- What a listing holds after a key was put. -/
theorem mem_mput {ν : Type} (m : NMap ν) (a : Nat) (x : ν) (e : Nat × ν) (h : e ∈ mput m a x) : e = (a, x) ∨ e ∈ m := by
  induction m with
  | nil => simpa [mput] using h
  | cons f r ih =>
    obtain ⟨k, v⟩ := f
    by_cases h1 : a < k
    · rw [mput, if_pos h1] at h
      exact (List.mem_cons.1 h).imp_right id
    · by_cases h2 : a = k
      · subst h2
        rw [mput, if_neg h1, if_pos (by simp)] at h
        exact (List.mem_cons.1 h).imp_right (List.mem_cons_of_mem _)
      · rw [mput, if_neg h1, if_neg (by simpa using h2)] at h
        rcases List.mem_cons.1 h with h | h
        · exact .inr (h ▸ List.mem_cons_self ..)
        · exact (ih h).imp_right (List.mem_cons_of_mem _)

theorem rising_mput {ν : Type} (m : NMap ν) (a : Nat) (x : ν) (h : rising m = true) : rising (mput m a x) = true := by
  rw [rising_iff] at h ⊢
  induction m with
  | nil => simp [mput]
  | cons f r ih =>
    obtain ⟨k, v⟩ := f
    have hr := (List.pairwise_cons.1 h).2
    have hk := (List.pairwise_cons.1 h).1
    by_cases h1 : a < k
    · rw [mput, if_pos h1]
      refine List.Pairwise.cons ?_ h
      intro c hc
      rcases List.mem_cons.1 hc with rfl | hc
      · exact h1
      · exact Nat.lt_trans h1 (hk c hc)
    · by_cases h2 : a = k
      · subst h2
        rw [mput, if_neg h1, if_pos (by simp)]
        exact List.Pairwise.cons (fun c hc => hk c hc) hr
      · rw [mput, if_neg h1, if_neg (by simpa using h2)]
        refine List.Pairwise.cons ?_ (ih hr)
        intro c hc
        rcases mem_mput r a x c hc with rfl | hc
        · simp only; omega
        · exact hk c hc

theorem rising_mputD {ν : Type} [DecidableEq ν] (m : NMap ν) (a : Nat) (x d : ν) (h : rising m = true) :
    rising (mputD m a x d) = true := by
  unfold mputD
  split
  · exact rising_mdel m a h
  · exact rising_mput m a x h

/-! ## Bytes -/

@[simp] theorem Store.openAt_wr (st : Store) (a b : Nat) (v : Byte) : (st.wr a v).openAt b = st.openAt b := rfl

theorem Store.rd_wr_same (st : Store) (a : Nat) (v : Byte) : (st.wr a v).rd a = v := by
  unfold Store.rd Store.wr Store.dflt Store.openAt
  simp only
  split
  · next h =>
    simp only [Bool.and_eq_true, Option.isNone_iff_eq_none, beq_iff_eq] at h
    simp [mgetD, h.1, h.2]
  · simp [mgetD]

theorem Store.rd_wr_ne (st : Store) {a b : Nat} (v : Byte) (h : b ≠ a) : (st.wr a v).rd b = st.rd b := by
  unfold Store.rd Store.wr
  show mgetD (if _ then mdel st.cells a else mput st.cells a v) b (st.dflt b) = _
  split
  · exact mgetD_mdel_ne _ _ h
  · exact mgetD_mput_ne _ _ _ h

/-- A byte after bytes were written from `a` on: the byte written there, or the one before. -/
theorem Store.rd_wrRaw (st : Store) (a : Nat) (l : List Byte) (b : Nat) :
    (st.wrRaw a l).rd b = if a ≤ b ∧ b < a + l.length then l.getD (b - a) 0 else st.rd b := by
  induction l generalizing st a with
  | nil => simp only [Store.wrRaw, List.length_nil]; rw [if_neg (by omega)]
  | cons x r ih =>
    rw [Store.wrRaw, ih]
    by_cases hb : b = a
    · subst hb
      rw [if_neg (by omega), Store.rd_wr_same, if_pos (by simp)]
      simp
    · by_cases hc : a + 1 ≤ b ∧ b < a + 1 + r.length
      · rw [if_pos hc, if_pos (by simp only [List.length_cons]; omega)]
        have : b - a = b - (a + 1) + 1 := by omega
        rw [this]; simp
      · rw [if_neg hc, Store.rd_wr_ne _ _ hb, if_neg (by simp only [List.length_cons]; omega)]

theorem Store.rd_wrN (st : Store) (a : Nat) (l : List Byte) (b : Nat) :
    (st.wrN a l).rd b = if a ≤ b ∧ b < a + l.length then l.getD (b - a) 0 else st.rd b := by
  rw [← Store.rd_wrRaw]; rfl

theorem Store.rd_wrN_outside (st : Store) (a : Nat) (l : List Byte) (b : Nat) (h : b < a ∨ a + l.length ≤ b) :
    (st.wrN a l).rd b = st.rd b := by
  rw [Store.rd_wrN, if_neg (by omega)]

@[simp] theorem length_leBytes (n v : Nat) : (leBytes n v).length = n := by
  induction n generalizing v with
  | zero => rfl
  | succ n ih => simp [leBytes, ih]

theorem Store.rd_wrLE_outside (st : Store) (a n v : Nat) (b : Nat) (h : b < a ∨ a + n ≤ b) :
    (st.wrLE a n v).rd b = st.rd b := Store.rd_wrN_outside _ _ _ _ (by simpa using h)

/-! ## The canonical form -/

theorem Store.wf_wr (st : Store) (a : Nat) (v : Byte) (h : st.wf = true) : (st.wr a v).wf = true := by
  simp only [Store.wf, Bool.and_eq_true, List.all_eq_true] at h ⊢
  obtain ⟨hr, ha⟩ := h
  unfold Store.wr
  split
  · next hz =>
    refine ⟨rising_mdel _ _ hr, fun c hc => ?_⟩
    exact ha c (List.mem_filter.1 hc).1
  · next hz =>
    refine ⟨rising_mput _ _ _ hr, fun c hc => ?_⟩
    rcases mem_mput _ _ _ _ hc with rfl | hc
    · rw [Bool.not_eq_true] at hz
      exact (congrArg (fun b => !b) hz : _ = _)
    · exact ha c hc

theorem Store.wf_wrRaw (st : Store) (a : Nat) (l : List Byte) (h : st.wf = true) : (st.wrRaw a l).wf = true := by
  induction l generalizing st a with
  | nil => exact h
  | cons x r ih => exact ih _ _ (Store.wf_wr st a x h)

theorem Store.wf_wrN (st : Store) (a : Nat) (l : List Byte) (h : st.wf = true) : (st.wrN a l).wf = true :=
  Store.wf_wrRaw st a l h

theorem Store.wf_wrLE (st : Store) (a n v : Nat) (h : st.wf = true) : (st.wrLE a n v).wf = true := Store.wf_wrN _ _ _ h

/-- Outside the range cut out, the undefined ranges cover what they covered. -/
theorem cutOut_covers (lo hi a : Nat) (l : List (Nat × Nat × Nat)) (h : a < lo ∨ hi ≤ a) :
    (∃ r ∈ cutOut lo hi l, r.1 ≤ a ∧ a < r.2.1) ↔ ∃ r ∈ l, r.1 ≤ a ∧ a < r.2.1 := by
  induction l with
  | nil => simp [cutOut]
  | cons x t ih =>
    obtain ⟨lx, hx, i⟩ := x
    simp only [cutOut]
    split
    · simp only [List.mem_cons, exists_eq_or_imp, ih]
    · next hc =>
      simp only [Bool.or_eq_true, decide_eq_true_eq, not_or, Nat.not_le] at hc
      simp only [List.mem_append, List.mem_cons, exists_eq_or_imp, ← ih]
      constructor
      · rintro ⟨r, (hr | hr) | hr, h1, h2⟩
        · split at hr
          · simp only [List.mem_singleton] at hr; subst hr; exact .inl ⟨by simpa using h1, by simp only at h2; omega⟩
          · cases hr
        · split at hr
          · simp only [List.mem_singleton] at hr; subst hr; exact .inl ⟨by simp only at h1; omega, by simpa using h2⟩
          · cases hr
        · exact .inr ⟨r, hr, h1, h2⟩
      · rintro (⟨h1, h2⟩ | ⟨r, hr, h1, h2⟩)
        · rcases h with h | h
          · exact ⟨(lx, min hx lo, i), .inl (.inl (by rw [if_pos (by omega)]; simp)), h1, by simp only; omega⟩
          · exact ⟨(max lx hi, hx, i), .inl (.inr (by rw [if_pos (by omega)]; simp)), by simp only; omega, h2⟩
        · exact ⟨r, .inr hr, h1, h2⟩

theorem openAt_isNone_iff (st : Store) (a : Nat) :
    (st.openAt a).isNone = true ↔ ¬ ∃ r ∈ st.undef, r.1 ≤ a ∧ a < r.2.1 := by
  simp [Store.openAt, Option.isNone_iff_eq_none, List.find?_eq_none]

theorem Store.wf_zero (st : Store) (lo hi : Nat) (h : st.wf = true) : (st.zero lo hi).wf = true := by
  simp only [Store.wf, Bool.and_eq_true, List.all_eq_true] at h ⊢
  refine ⟨by have := rising_mdrop (ν := Byte) st.cells (fun a => decide (lo ≤ a) && decide (a < hi)) h.1; exact this, fun c hc => ?_⟩
  have hc' := List.mem_filter.1 (show c ∈ List.filter _ st.cells from hc)
  have hout : c.1 < lo ∨ hi ≤ c.1 := by simpa [Nat.lt_or_ge, Nat.not_lt, Decidable.not_and_iff_or_not] using hc'.2
  have := h.2 c hc'.1
  by_cases hz : c.2 = 0
  · simp only [hz, beq_self_eq_true, Bool.and_true, Bool.not_eq_eq_eq_not, Bool.not_true] at this ⊢
    rw [← Bool.not_eq_true, openAt_isNone_iff] at this ⊢
    rw [Decidable.not_not] at this ⊢
    exact (cutOut_covers lo hi c.1 st.undef hout).2 this
  · have hz' : ¬ c.2 = 0#8 := hz
    simp [hz']

theorem Store.wf_forget (st : Store) (lo hi id : Nat) (h : st.wf = true) : (st.forget lo hi id).wf = true := by
  simp only [Store.wf, Bool.and_eq_true, List.all_eq_true] at h ⊢
  refine ⟨by have := rising_mdrop (ν := Byte) st.cells (fun a => decide (lo ≤ a) && decide (a < hi)) h.1; exact this, fun c hc => ?_⟩
  have hc' := List.mem_filter.1 (show c ∈ List.filter _ st.cells from hc)
  have hout : c.1 < lo ∨ hi ≤ c.1 := by simpa [Nat.lt_or_ge, Nat.not_lt, Decidable.not_and_iff_or_not] using hc'.2
  have := h.2 c hc'.1
  by_cases hz : c.2 = 0
  · simp only [hz, beq_self_eq_true, Bool.and_true, Bool.not_eq_eq_eq_not, Bool.not_true] at this ⊢
    rw [← Bool.not_eq_true, openAt_isNone_iff] at this ⊢
    rw [Decidable.not_not] at this ⊢
    obtain ⟨r, hr, h1⟩ := (cutOut_covers lo hi c.1 st.undef hout).2 this
    exact ⟨r, List.mem_cons_of_mem _ hr, h1⟩
  · have hz' : ¬ c.2 = 0#8 := hz
    simp [hz']

/-- A memory that nothing has left undefined has the canonical form of its bytes exactly when its store has its own. -/
theorem Memory.wf_iff_store (m : Memory) (bad : List Nat) : Memory.wf m = ({ cells := m, bad := bad } : Store).wf := by
  unfold Memory.wf Store.wf Store.openAt
  simp [bne]

end Sys2Proof.Machine
end

