-- ==== Sys2Proof/Laws/Host.lean ====
section
/-! SUPPORT. Laws of host writes: what a merge into memory changes, and the canonical form it keeps. -/

namespace Sys2Proof.Machine

theorem Store.wf_foldl_wr (l : List (Nat × Byte)) (st : Store) (h : st.wf = true) :
    (l.foldl (fun (x : Store) e => x.wr e.1 e.2) st).wf = true := by
  induction l generalizing st with
  | nil => exact h
  | cons e r ih => exact ih _ (Store.wf_wr st e.1 e.2 h)

theorem Store.rd_foldl_wr_ne (l : List (Nat × Byte)) (st : Store) (b : Nat) (h : ∀ e ∈ l, b ≠ e.1) :
    (l.foldl (fun (x : Store) e => x.wr e.1 e.2) st).rd b = st.rd b := by
  induction l generalizing st with
  | nil => rfl
  | cons e r ih =>
    rw [List.foldl_cons, ih _ (fun x hx => h x (List.mem_cons_of_mem _ hx)), Store.rd_wr_ne _ _ (h e (List.mem_cons_self ..))]

theorem Store.wf_merge (st : Store) (d : Nat) (data : List (Option Byte)) (h : st.wf = true) : (st.merge d data).wf = true :=
  Store.wf_foldl_wr _ st h

/-- The bytes a host write names lie in its range. -/
theorem mem_writtenBytes (d : Nat) (data : List (Option Byte)) (e : Nat × Byte) (h : e ∈ writtenBytes d data) :
    d ≤ e.1 ∧ e.1 < d + data.length := by
  obtain ⟨x, hx, hm⟩ := List.mem_filterMap.1 h
  have hi := List.mem_range.1 (List.of_mem_zip hx).1
  cases hb : x.2 with
  | none => simp [hb] at hm
  | some b =>
    simp only [hb, Option.map_some, Option.some.injEq] at hm
    subst hm
    exact ⟨Nat.le_add_right .., Nat.add_lt_add_left hi d⟩

theorem Store.rd_merge_outside (st : Store) (d : Nat) (data : List (Option Byte)) (b : Nat) (h : b < d ∨ d + data.length ≤ b) :
    (st.merge d data).rd b = st.rd b := by
  refine Store.rd_foldl_wr_ne _ st b (fun e he hb => ?_)
  have := mem_writtenBytes d data e (List.mem_filter.1 he).1
  omega

end Sys2Proof.Machine
end

