-- ==== Sys2Proof/Laws/Regs.lean ====
section
/-! SUPPORT. Laws of bit fields and of the register file: what a write leaves in its field, and that it leaves every other
register and every other field as it was. -/

namespace Sys2Proof.Machine

/-! ## Bit fields -/

/-- A number taken apart below, at and above a field. -/
theorem bits_split (w lo len : Nat) : w = w % 2 ^ lo + 2 ^ lo * (bits w lo len + 2 ^ len * (w / 2 ^ (lo + len))) := by
  have h1 := Nat.mod_add_div w (2 ^ lo)
  have h2 := Nat.mod_add_div (w / 2 ^ lo) (2 ^ len)
  unfold bits
  rw [Nat.shiftRight_eq_div_pow, Nat.pow_add, ← Nat.div_div_eq_div_mul, h2, h1]

theorem bits_lt (w lo len : Nat) : bits w lo len < 2 ^ len := Nat.mod_lt _ (Nat.two_pow_pos len)

theorem putBits_eq (w lo len v : Nat) :
    putBits w lo len v = w % 2 ^ lo + 2 ^ lo * (v % 2 ^ len + 2 ^ len * (w / 2 ^ (lo + len))) := by
  have h := bits_split w lo len
  have e1 : 2 ^ lo * (bits w lo len + 2 ^ len * (w / 2 ^ (lo + len)))
      = bits w lo len * 2 ^ lo + 2 ^ lo * (2 ^ len * (w / 2 ^ (lo + len))) := by
    rw [Nat.mul_add, Nat.mul_comm (2 ^ lo) (bits w lo len)]
  have e2 : 2 ^ lo * (v % 2 ^ len + 2 ^ len * (w / 2 ^ (lo + len)))
      = (v % 2 ^ len) * 2 ^ lo + 2 ^ lo * (2 ^ len * (w / 2 ^ (lo + len))) := by
    rw [Nat.mul_add, Nat.mul_comm (2 ^ lo) (v % 2 ^ len)]
  unfold putBits
  omega

theorem testBit_putBits (w lo len v i : Nat) :
    (putBits w lo len v).testBit i = if lo ≤ i ∧ i < lo + len then v.testBit (i - lo) else w.testBit i := by
  rw [putBits_eq, Nat.add_comm, Nat.testBit_two_pow_mul_add _ (Nat.mod_lt _ (Nat.two_pow_pos lo))]
  by_cases h1 : i < lo
  · rw [if_pos h1, if_neg (by omega), Nat.testBit_mod_two_pow]; simp [h1]
  · rw [if_neg h1, Nat.add_comm, Nat.testBit_two_pow_mul_add _ (Nat.mod_lt _ (Nat.two_pow_pos len))]
    by_cases h2 : i - lo < len
    · rw [if_pos h2, if_pos (by omega), Nat.testBit_mod_two_pow]; simp [h2]
    · rw [if_neg h2, if_neg (by omega), Nat.testBit_div_two_pow]
      congr 1; omega

theorem testBit_bits (w lo len i : Nat) : (bits w lo len).testBit i = (decide (i < len) && w.testBit (lo + i)) := by
  unfold bits
  rw [Nat.testBit_mod_two_pow, Nat.testBit_shiftRight]

/-- A field reads what was put into it. -/
theorem bits_putBits_same (w lo len v : Nat) : bits (putBits w lo len v) lo len = v % 2 ^ len := by
  apply Nat.eq_of_testBit_eq
  intro i
  rw [testBit_bits, testBit_putBits, Nat.testBit_mod_two_pow]
  by_cases h : i < len
  · rw [if_pos (by omega)]; simp [h]
  · simp [h]

/-- A field reads as before when another field that shares no bit with it was put. -/
theorem bits_putBits_ne (w lo len v lo' len' : Nat) (h : lo' + len' ≤ lo ∨ lo + len ≤ lo') :
    bits (putBits w lo len v) lo' len' = bits w lo' len' := by
  apply Nat.eq_of_testBit_eq
  intro i
  rw [testBit_bits, testBit_bits, testBit_putBits]
  by_cases hi : i < len'
  · rw [if_neg (by omega)]
  · simp [hi]

theorem putBits_lt (w lo len v n : Nat) (hw : w < 2 ^ n) (hf : lo + len ≤ n) : putBits w lo len v < 2 ^ n := by
  apply Nat.lt_pow_two_of_testBit
  intro i hi
  rw [testBit_putBits, if_neg (by omega)]
  exact Nat.testBit_lt_two_pow (Nat.lt_of_lt_of_le hw (Nat.pow_le_pow_right (by omega) hi))

/-- Putting into a field what it holds changes nothing. -/
theorem putBits_self (w lo len : Nat) : putBits w lo len (bits w lo len) = w := by
  apply Nat.eq_of_testBit_eq
  intro i
  rw [testBit_putBits, testBit_bits]
  split
  · next h => rw [show lo + (i - lo) = i by omega]; simp; omega
  · rfl

/-! ## Keys -/

theorem ctorIdx_lt (r : RegName) : r.ctorIdx < 256 := by cases r <;> decide

theorem ctorIdx_inj {r r' : RegName} (h : r.ctorIdx = r'.ctorIdx) : r = r' := by
  rw [← RegName.ofNat_ctorIdx r, h, RegName.ofNat_ctorIdx]

/-- A register has a key of its own. -/
theorem regKey_inj {r r' : RegName} {i i' : Nat} (h : regKey r i = regKey r' i') : r = r' ∧ i = i' := by
  unfold regKey at h
  have h1 := ctorIdx_lt r
  have h2 := ctorIdx_lt r'
  exact ⟨ctorIdx_inj (by omega), by omega⟩

theorem regKey_ne {r r' : RegName} {i i' : Nat} (h : r ≠ r' ∨ i ≠ i') : regKey r i ≠ regKey r' i' := by
  intro e
  have := regKey_inj e
  rcases h with h | h
  · exact h this.1
  · exact h this.2

theorem keyName_regKey (r : RegName) (i : Nat) : keyName (regKey r i) = r.ctorIdx := by
  have := ctorIdx_lt r
  unfold keyName regKey; omega

theorem keyIdx_regKey (r : RegName) (i : Nat) : keyIdx (regKey r i) = i := by
  have := ctorIdx_lt r
  unfold keyIdx regKey; omega

/-! ## Registers -/

theorem reg_lt (s : State) (r : RegName) (i : Nat) : s.reg r i < 2 ^ 64 := (mgetD s.regs (regKey r i) (regReset r i)).isLt

/-- The register written holds the 64 low bits of what was written. -/
@[simp] theorem reg_setReg_same (s : State) (r : RegName) (i v : Nat) : (s.setReg r i v).reg r i = v % 2 ^ 64 := by
  unfold State.setReg State.reg
  simp

/-- Every other register stands. -/
theorem reg_setReg_ne (s : State) {r r' : RegName} {i i' : Nat} (v : Nat) (h : r' ≠ r ∨ i' ≠ i) :
    (s.setReg r i v).reg r' i' = s.reg r' i' := by
  unfold State.setReg State.reg
  simp only
  rw [mgetD_mputD_ne _ _ _ _ (regKey_ne h)]

/-- The same, as one law. -/
theorem reg_setReg (s : State) (r r' : RegName) (i i' v : Nat) :
    (s.setReg r i v).reg r' i' = if r' = r ∧ i' = i then v % 2 ^ 64 else s.reg r' i' := by
  split
  · next h => rw [h.1, h.2, reg_setReg_same]
  · next h => exact reg_setReg_ne s v (Decidable.not_and_iff_or_not.1 h)

theorem reg_wr (s : State) (f : Fld) (i v : Nat) (r : RegName) (j : Nat) (hf : f.lo + f.len ≤ 64) :
    (s.wr f i v).reg r j = if r = f.reg ∧ j = i then putBits (s.reg f.reg i) f.lo f.len v else s.reg r j := by
  unfold State.wr
  rw [reg_setReg]
  split
  · exact Nat.mod_eq_of_lt (putBits_lt _ _ _ _ _ (reg_lt s f.reg i) hf)
  · rfl

/-- A field written reads what was written, cut to its width. -/
theorem rd_wr_same (s : State) (f : Fld) (i v : Nat) (hf : f.lo + f.len ≤ 64) : (s.wr f i v).rd f i = v % 2 ^ f.len := by
  unfold State.rd
  rw [reg_wr s f i v _ _ hf, if_pos ⟨rfl, rfl⟩, bits_putBits_same]

/-- A field of another register reads as before. -/
theorem rd_wr_of_reg (s : State) (f g : Fld) (i j v : Nat) (h : g.reg ≠ f.reg) : (s.wr f i v).rd g j = s.rd g j := by
  unfold State.rd State.wr
  rw [reg_setReg_ne _ _ (.inl h)]

/-- A field of a register with another index reads as before. -/
theorem rd_wr_of_idx (s : State) (f g : Fld) (i j v : Nat) (h : j ≠ i) : (s.wr f i v).rd g j = s.rd g j := by
  unfold State.rd State.wr
  rw [reg_setReg_ne _ _ (.inr h)]

/-- A field that shares no bit with the one written reads as before. -/
theorem rd_wr_of_bits (s : State) (f g : Fld) (i j v : Nat) (hf : f.lo + f.len ≤ 64)
    (h : g.lo + g.len ≤ f.lo ∨ f.lo + f.len ≤ g.lo) : (s.wr f i v).rd g j = s.rd g j := by
  unfold State.rd
  rw [reg_wr s f i v _ _ hf]
  split
  · next e => rw [bits_putBits_ne _ _ _ _ _ _ h, e.1, e.2]
  · rfl

theorem reg_wr_ne (s : State) (f : Fld) (i v : Nat) {r : RegName} {j : Nat} (h : r ≠ f.reg ∨ j ≠ i) :
    (s.wr f i v).reg r j = s.reg r j := reg_setReg_ne s _ h

theorem rd_setReg_ne (s : State) (r : RegName) (i v : Nat) (g : Fld) (j : Nat) (h : g.reg ≠ r ∨ j ≠ i) :
    (s.setReg r i v).rd g j = s.rd g j := by
  unfold State.rd
  rw [reg_setReg_ne s v h]

theorem rd_lt (s : State) (f : Fld) (i : Nat) : s.rd f i < 2 ^ f.len := bits_lt _ _ _

/-- A register put back reads its reset value. -/
theorem reg_resetReg_same (s : State) (r : RegName) (i : Nat) : (s.resetReg r i).reg r i = (regReset r i).toNat := by
  unfold State.resetReg State.reg; simp

theorem reg_resetReg_ne (s : State) {r r' : RegName} {i i' : Nat} (h : r' ≠ r ∨ i' ≠ i) :
    (s.resetReg r i).reg r' i' = s.reg r' i' := by
  unfold State.resetReg State.reg
  simp only
  rw [mgetD_mdel_ne _ _ (regKey_ne h)]

/-- A counter advanced never falls and never passes all ones (R61). -/
theorem rd_inc (s : State) (f : Fld) (i d : Nat) (hf : f.lo + f.len ≤ 64) :
    (s.inc f i d).rd f i = min (s.rd f i + d) (2 ^ f.len - 1) := by
  unfold State.inc satAdd
  rw [rd_wr_same s f i _ hf, Nat.mod_eq_of_lt]
  have := Nat.two_pow_pos f.len
  omega

theorem inc_mono (s : State) (f : Fld) (i d : Nat) (hf : f.lo + f.len ≤ 64) : s.rd f i ≤ (s.inc f i d).rd f i := by
  rw [rd_inc s f i d hf]
  have := rd_lt s f i
  omega

theorem reg_inc_ne (s : State) (f : Fld) (i d : Nat) {r : RegName} {j : Nat} (h : r ≠ f.reg ∨ j ≠ i) :
    (s.inc f i d).reg r j = s.reg r j := reg_wr_ne s f i _ h

/-- The register map is in its canonical form: keys rising, no register listed at its reset value. -/
theorem rising_setReg (s : State) (r : RegName) (i v : Nat) (h : rising s.regs = true) : rising (s.setReg r i v).regs = true :=
  rising_mputD _ _ _ _ h

end Sys2Proof.Machine
end

