-- ==== Sys2Proof/Laws/State.lean ====
section
/-! SUPPORT. One law for each field of the state and each of the updates that every event is made of: the fields an update
does not name stand. -/

namespace Sys2Proof.Machine

variable (s : State) (r : RegName) (f : Fld) (i v d u t p ring unit event status lo hi c : Nat) (x : Clu) (q : Queue)

/-! ## With other contents of regs -/

theorem State.with_regs_mem (y0 : List (Nat × BitVec 64)) : ({ s with regs := y0 } : State).mem = s.mem := rfl
theorem State.with_regs_bufs (y0 : List (Nat × BitVec 64)) : ({ s with regs := y0 } : State).bufs = s.bufs := rfl
theorem State.with_regs_ft (y0 : List (Nat × BitVec 64)) : ({ s with regs := y0 } : State).ft = s.ft := rfl
theorem State.with_regs_skew (y0 : List (Nat × BitVec 64)) : ({ s with regs := y0 } : State).skew = s.skew := rfl
theorem State.with_regs_queues (y0 : List (Nat × BitVec 64)) : ({ s with regs := y0 } : State).queues = s.queues := rfl
theorem State.with_regs_nextId (y0 : List (Nat × BitVec 64)) : ({ s with regs := y0 } : State).nextId = s.nextId := rfl
theorem State.with_regs_adds (y0 : List (Nat × BitVec 64)) : ({ s with regs := y0 } : State).adds = s.adds := rfl
theorem State.with_regs_markStamp (y0 : List (Nat × BitVec 64)) : ({ s with regs := y0 } : State).markStamp = s.markStamp := rfl
theorem State.with_regs_tallies (y0 : List (Nat × BitVec 64)) : ({ s with regs := y0 } : State).tallies = s.tallies := rfl
theorem State.with_regs_msgNext (y0 : List (Nat × BitVec 64)) : ({ s with regs := y0 } : State).msgNext = s.msgNext := rfl
theorem State.with_regs_seqs (y0 : List (Nat × BitVec 64)) : ({ s with regs := y0 } : State).seqs = s.seqs := rfl
theorem State.with_regs_rings (y0 : List (Nat × BitVec 64)) : ({ s with regs := y0 } : State).rings = s.rings := rfl
theorem State.with_regs_ringWaits (y0 : List (Nat × BitVec 64)) : ({ s with regs := y0 } : State).ringWaits = s.ringWaits := rfl
theorem State.with_regs_ringResets (y0 : List (Nat × BitVec 64)) : ({ s with regs := y0 } : State).ringResets = s.ringResets := rfl
theorem State.with_regs_gangs (y0 : List (Nat × BitVec 64)) : ({ s with regs := y0 } : State).gangs = s.gangs := rfl
theorem State.with_regs_launches (y0 : List (Nat × BitVec 64)) : ({ s with regs := y0 } : State).launches = s.launches := rfl
theorem State.with_regs_icache (y0 : List (Nat × BitVec 64)) : ({ s with regs := y0 } : State).icache = s.icache := rfl
theorem State.with_regs_ifills (y0 : List (Nat × BitVec 64)) : ({ s with regs := y0 } : State).ifills = s.ifills := rfl
theorem State.with_regs_upd (y0 : List (Nat × BitVec 64)) : ({ s with regs := y0 } : State).upd = s.upd := rfl
theorem State.with_regs_updPend (y0 : List (Nat × BitVec 64)) : ({ s with regs := y0 } : State).updPend = s.updPend := rfl
theorem State.with_regs_ctxs (y0 : List (Nat × BitVec 64)) : ({ s with regs := y0 } : State).ctxs = s.ctxs := rfl
theorem State.with_regs_seqSlots (y0 : List (Nat × BitVec 64)) : ({ s with regs := y0 } : State).seqSlots = s.seqSlots := rfl
theorem State.with_regs_tlb (y0 : List (Nat × BitVec 64)) : ({ s with regs := y0 } : State).tlb = s.tlb := rfl
theorem State.with_regs_xltInv (y0 : List (Nat × BitVec 64)) : ({ s with regs := y0 } : State).xltInv = s.xltInv := rfl
theorem State.with_regs_rdc (y0 : List (Nat × BitVec 64)) : ({ s with regs := y0 } : State).rdc = s.rdc := rfl
theorem State.with_regs_rdcFills (y0 : List (Nat × BitVec 64)) : ({ s with regs := y0 } : State).rdcFills = s.rdcFills := rfl
theorem State.with_regs_scrubHits (y0 : List (Nat × BitVec 64)) : ({ s with regs := y0 } : State).scrubHits = s.scrubHits := rfl
theorem State.with_regs_carry (y0 : List (Nat × BitVec 64)) : ({ s with regs := y0 } : State).carry = s.carry := rfl
theorem State.with_regs_active (y0 : List (Nat × BitVec 64)) : ({ s with regs := y0 } : State).active = s.active := rfl
theorem State.with_regs_roles (y0 : List (Nat × BitVec 64)) : ({ s with regs := y0 } : State).roles = s.roles := rfl
theorem State.with_regs_standby (y0 : List (Nat × BitVec 64)) : ({ s with regs := y0 } : State).standby = s.standby := rfl
theorem State.with_regs_swap (y0 : List (Nat × BitVec 64)) : ({ s with regs := y0 } : State).swap = s.swap := rfl
theorem State.with_regs_msix (y0 : List (Nat × BitVec 64)) : ({ s with regs := y0 } : State).msix = s.msix := rfl
theorem State.with_regs_msixPend (y0 : List (Nat × BitVec 64)) : ({ s with regs := y0 } : State).msixPend = s.msixPend := rfl
theorem State.with_regs_sent (y0 : List (Nat × BitVec 64)) : ({ s with regs := y0 } : State).sent = s.sent := rfl
theorem State.with_regs_load (y0 : List (Nat × BitVec 64)) : ({ s with regs := y0 } : State).load = s.load := rfl
theorem State.with_regs_repairs (y0 : List (Nat × BitVec 64)) : ({ s with regs := y0 } : State).repairs = s.repairs := rfl
theorem State.with_regs_sinceLoad (y0 : List (Nat × BitVec 64)) : ({ s with regs := y0 } : State).sinceLoad = s.sinceLoad := rfl
theorem State.with_regs_net (y0 : List (Nat × BitVec 64)) : ({ s with regs := y0 } : State).net = s.net := rfl
theorem State.with_regs_clu (y0 : List (Nat × BitVec 64)) : ({ s with regs := y0 } : State).clu = s.clu := rfl
theorem State.with_regs_frameFails (y0 : List (Nat × BitVec 64)) : ({ s with regs := y0 } : State).frameFails = s.frameFails := rfl
theorem State.with_regs_nextShift (y0 : List (Nat × BitVec 64)) : ({ s with regs := y0 } : State).nextShift = s.nextShift := rfl
theorem State.with_regs_phaseOn (y0 : List (Nat × BitVec 64)) : ({ s with regs := y0 } : State).phaseOn = s.phaseOn := rfl
theorem State.with_regs_plan (y0 : List (Nat × BitVec 64)) : ({ s with regs := y0 } : State).plan = s.plan := rfl
theorem State.with_regs_deputies (y0 : List (Nat × BitVec 64)) : ({ s with regs := y0 } : State).deputies = s.deputies := rfl
theorem State.with_regs_transitHold (y0 : List (Nat × BitVec 64)) : ({ s with regs := y0 } : State).transitHold = s.transitHold := rfl
theorem State.with_regs_schedAt (y0 : List (Nat × BitVec 64)) : ({ s with regs := y0 } : State).schedAt = s.schedAt := rfl
theorem State.with_regs_schedPrev (y0 : List (Nat × BitVec 64)) : ({ s with regs := y0 } : State).schedPrev = s.schedPrev := rfl
theorem State.with_regs_pps (y0 : List (Nat × BitVec 64)) : ({ s with regs := y0 } : State).pps = s.pps := rfl
theorem State.with_regs_syncAt (y0 : List (Nat × BitVec 64)) : ({ s with regs := y0 } : State).syncAt = s.syncAt := rfl
theorem State.with_regs_slackRuns (y0 : List (Nat × BitVec 64)) : ({ s with regs := y0 } : State).slackRuns = s.slackRuns := rfl
theorem State.with_regs_slacks (y0 : List (Nat × BitVec 64)) : ({ s with regs := y0 } : State).slacks = s.slacks := rfl
theorem State.with_regs_bulk (y0 : List (Nat × BitVec 64)) : ({ s with regs := y0 } : State).bulk = s.bulk := rfl
theorem State.with_regs_bulkSeq (y0 : List (Nat × BitVec 64)) : ({ s with regs := y0 } : State).bulkSeq = s.bulkSeq := rfl
theorem State.with_regs_netWant (y0 : List (Nat × BitVec 64)) : ({ s with regs := y0 } : State).netWant = s.netWant := rfl
theorem State.with_regs_ports (y0 : List (Nat × BitVec 64)) : ({ s with regs := y0 } : State).ports = s.ports := rfl
theorem State.with_regs_wire (y0 : List (Nat × BitVec 64)) : ({ s with regs := y0 } : State).wire = s.wire := rfl
theorem State.with_regs_lsdb (y0 : List (Nat × BitVec 64)) : ({ s with regs := y0 } : State).lsdb = s.lsdb := rfl
theorem State.with_regs_lsaSeq (y0 : List (Nat × BitVec 64)) : ({ s with regs := y0 } : State).lsaSeq = s.lsaSeq := rfl
theorem State.with_regs_lsaAt (y0 : List (Nat × BitVec 64)) : ({ s with regs := y0 } : State).lsaAt = s.lsaAt := rfl
theorem State.with_regs_certs (y0 : List (Nat × BitVec 64)) : ({ s with regs := y0 } : State).certs = s.certs := rfl
theorem State.with_regs_bookAt (y0 : List (Nat × BitVec 64)) : ({ s with regs := y0 } : State).bookAt = s.bookAt := rfl
theorem State.with_regs_taken (y0 : List (Nat × BitVec 64)) : ({ s with regs := y0 } : State).taken = s.taken := rfl
theorem State.with_regs_xferNext (y0 : List (Nat × BitVec 64)) : ({ s with regs := y0 } : State).xferNext = s.xferNext := rfl
theorem State.with_regs_offers (y0 : List (Nat × BitVec 64)) : ({ s with regs := y0 } : State).offers = s.offers := rfl
theorem State.with_regs_transfers (y0 : List (Nat × BitVec 64)) : ({ s with regs := y0 } : State).transfers = s.transfers := rfl
theorem State.with_regs_xferEnds (y0 : List (Nat × BitVec 64)) : ({ s with regs := y0 } : State).xferEnds = s.xferEnds := rfl
theorem State.with_regs_incoming (y0 : List (Nat × BitVec 64)) : ({ s with regs := y0 } : State).incoming = s.incoming := rfl
theorem State.with_regs_offerNext (y0 : List (Nat × BitVec 64)) : ({ s with regs := y0 } : State).offerNext = s.offerNext := rfl
theorem State.with_regs_elect (y0 : List (Nat × BitVec 64)) : ({ s with regs := y0 } : State).elect = s.elect := rfl
theorem State.with_regs_lands (y0 : List (Nat × BitVec 64)) : ({ s with regs := y0 } : State).lands = s.lands := rfl
theorem State.with_regs_colls (y0 : List (Nat × BitVec 64)) : ({ s with regs := y0 } : State).colls = s.colls := rfl
theorem State.with_regs_lamps (y0 : List (Nat × BitVec 64)) : ({ s with regs := y0 } : State).lamps = s.lamps := rfl
theorem State.with_regs_tracked (y0 : List (Nat × BitVec 64)) : ({ s with regs := y0 } : State).tracked = s.tracked := rfl
theorem State.with_regs_snoops (y0 : List (Nat × BitVec 64)) : ({ s with regs := y0 } : State).snoops = s.snoops := rfl
theorem State.with_regs_snoopDead (y0 : List (Nat × BitVec 64)) : ({ s with regs := y0 } : State).snoopDead = s.snoopDead := rfl
theorem State.with_regs_reply (y0 : List (Nat × BitVec 64)) : ({ s with regs := y0 } : State).reply = s.reply := rfl
theorem State.with_regs_mbox (y0 : List (Nat × BitVec 64)) : ({ s with regs := y0 } : State).mbox = s.mbox := rfl
theorem State.with_regs_hdmBase (y0 : List (Nat × BitVec 64)) : ({ s with regs := y0 } : State).hdmBase = s.hdmBase := rfl
theorem State.with_regs_ideKeys (y0 : List (Nat × BitVec 64)) : ({ s with regs := y0 } : State).ideKeys = s.ideKeys := rfl
theorem State.with_regs_power (y0 : List (Nat × BitVec 64)) : ({ s with regs := y0 } : State).power = s.power := rfl
theorem State.with_regs_samples (y0 : List (Nat × BitVec 64)) : ({ s with regs := y0 } : State).samples = s.samples := rfl
theorem State.with_regs_genState (y0 : List (Nat × BitVec 64)) : ({ s with regs := y0 } : State).genState = s.genState := rfl
theorem State.with_regs_genSeed (y0 : List (Nat × BitVec 64)) : ({ s with regs := y0 } : State).genSeed = s.genSeed := rfl
theorem State.with_regs_canaries (y0 : List (Nat × BitVec 64)) : ({ s with regs := y0 } : State).canaries = s.canaries := rfl
theorem State.with_regs_canaryNext (y0 : List (Nat × BitVec 64)) : ({ s with regs := y0 } : State).canaryNext = s.canaryNext := rfl
theorem State.with_regs_canaryCycle (y0 : List (Nat × BitVec 64)) : ({ s with regs := y0 } : State).canaryCycle = s.canaryCycle := rfl
theorem State.with_regs_transientTimes (y0 : List (Nat × BitVec 64)) : ({ s with regs := y0 } : State).transientTimes = s.transientTimes := rfl
theorem State.with_regs_reports (y0 : List (Nat × BitVec 64)) : ({ s with regs := y0 } : State).reports = s.reports := rfl
theorem State.with_regs_reportCount (y0 : List (Nat × BitVec 64)) : ({ s with regs := y0 } : State).reportCount = s.reportCount := rfl
theorem State.with_regs_log (y0 : List (Nat × BitVec 64)) : ({ s with regs := y0 } : State).log = s.log := rfl
theorem State.with_regs_retireFlash (y0 : List (Nat × BitVec 64)) : ({ s with regs := y0 } : State).retireFlash = s.retireFlash := rfl
theorem State.with_regs_retirePend (y0 : List (Nat × BitVec 64)) : ({ s with regs := y0 } : State).retirePend = s.retirePend := rfl
theorem State.with_regs_softRepair (y0 : List (Nat × BitVec 64)) : ({ s with regs := y0 } : State).softRepair = s.softRepair := rfl
theorem State.with_regs_resets (y0 : List (Nat × BitVec 64)) : ({ s with regs := y0 } : State).resets = s.resets := rfl
theorem State.with_regs_board (y0 : List (Nat × BitVec 64)) : ({ s with regs := y0 } : State).board = s.board := rfl
theorem State.with_regs_firstBoot (y0 : List (Nat × BitVec 64)) : ({ s with regs := y0 } : State).firstBoot = s.firstBoot := rfl
theorem State.with_regs_flash (y0 : List (Nat × BitVec 64)) : ({ s with regs := y0 } : State).flash = s.flash := rfl
theorem State.with_regs_up (y0 : List (Nat × BitVec 64)) : ({ s with regs := y0 } : State).up = s.up := rfl
theorem State.with_regs_onAt (y0 : List (Nat × BitVec 64)) : ({ s with regs := y0 } : State).onAt = s.onAt := rfl
theorem State.with_regs_heldLoad (y0 : List (Nat × BitVec 64)) : ({ s with regs := y0 } : State).heldLoad = s.heldLoad := rfl
theorem State.with_regs_bootAt (y0 : List (Nat × BitVec 64)) : ({ s with regs := y0 } : State).bootAt = s.bootAt := rfl
theorem State.with_regs_testDue (y0 : List (Nat × BitVec 64)) : ({ s with regs := y0 } : State).testDue = s.testDue := rfl
theorem State.with_regs_lifeBase (y0 : List (Nat × BitVec 64)) : ({ s with regs := y0 } : State).lifeBase = s.lifeBase := rfl
theorem State.with_regs_secBase (y0 : List (Nat × BitVec 64)) : ({ s with regs := y0 } : State).secBase = s.secBase := rfl
theorem State.with_regs_resetWaits (y0 : List (Nat × BitVec 64)) : ({ s with regs := y0 } : State).resetWaits = s.resetWaits := rfl
theorem State.with_regs_fw (y0 : List (Nat × BitVec 64)) : ({ s with regs := y0 } : State).fw = s.fw := rfl
theorem State.with_regs_fwWritten (y0 : List (Nat × BitVec 64)) : ({ s with regs := y0 } : State).fwWritten = s.fwWritten := rfl
theorem State.with_regs_fwFresh (y0 : List (Nat × BitVec 64)) : ({ s with regs := y0 } : State).fwFresh = s.fwFresh := rfl
theorem State.with_regs_mboxStage (y0 : List (Nat × BitVec 64)) : ({ s with regs := y0 } : State).mboxStage = s.mboxStage := rfl
theorem State.with_regs_act (y0 : List (Nat × BitVec 64)) : ({ s with regs := y0 } : State).act = s.act := rfl
theorem State.with_regs_roll (y0 : List (Nat × BitVec 64)) : ({ s with regs := y0 } : State).roll = s.roll := rfl
theorem State.with_regs_mpRestart (y0 : List (Nat × BitVec 64)) : ({ s with regs := y0 } : State).mpRestart = s.mpRestart := rfl
theorem State.with_regs_pldm (y0 : List (Nat × BitVec 64)) : ({ s with regs := y0 } : State).pldm = s.pldm := rfl
theorem State.with_regs_spdm (y0 : List (Nat × BitVec 64)) : ({ s with regs := y0 } : State).spdm = s.spdm := rfl
theorem State.with_regs_sessions (y0 : List (Nat × BitVec 64)) : ({ s with regs := y0 } : State).sessions = s.sessions := rfl
theorem State.with_regs_sessionNext (y0 : List (Nat × BitVec 64)) : ({ s with regs := y0 } : State).sessionNext = s.sessionNext := rfl
theorem State.with_regs_signatures (y0 : List (Nat × BitVec 64)) : ({ s with regs := y0 } : State).signatures = s.signatures := rfl
theorem State.with_regs_mgmt (y0 : List (Nat × BitVec 64)) : ({ s with regs := y0 } : State).mgmt = s.mgmt := rfl
theorem State.with_regs_fuses (y0 : List (Nat × BitVec 64)) : ({ s with regs := y0 } : State).fuses = s.fuses := rfl
theorem State.with_regs_spares (y0 : List (Nat × BitVec 64)) : ({ s with regs := y0 } : State).spares = s.spares := rfl
theorem State.with_regs_freeCtr (y0 : List (Nat × BitVec 64)) : ({ s with regs := y0 } : State).freeCtr = s.freeCtr := rfl
theorem State.with_regs_pending (y0 : List (Nat × BitVec 64)) : ({ s with regs := y0 } : State).pending = s.pending := rfl

/-! ## With other contents of clu -/

theorem State.with_clu_regs (y0 : NMap Clu) : ({ s with clu := y0 } : State).regs = s.regs := rfl
theorem State.with_clu_mem (y0 : NMap Clu) : ({ s with clu := y0 } : State).mem = s.mem := rfl
theorem State.with_clu_bufs (y0 : NMap Clu) : ({ s with clu := y0 } : State).bufs = s.bufs := rfl
theorem State.with_clu_ft (y0 : NMap Clu) : ({ s with clu := y0 } : State).ft = s.ft := rfl
theorem State.with_clu_skew (y0 : NMap Clu) : ({ s with clu := y0 } : State).skew = s.skew := rfl
theorem State.with_clu_queues (y0 : NMap Clu) : ({ s with clu := y0 } : State).queues = s.queues := rfl
theorem State.with_clu_nextId (y0 : NMap Clu) : ({ s with clu := y0 } : State).nextId = s.nextId := rfl
theorem State.with_clu_adds (y0 : NMap Clu) : ({ s with clu := y0 } : State).adds = s.adds := rfl
theorem State.with_clu_markStamp (y0 : NMap Clu) : ({ s with clu := y0 } : State).markStamp = s.markStamp := rfl
theorem State.with_clu_tallies (y0 : NMap Clu) : ({ s with clu := y0 } : State).tallies = s.tallies := rfl
theorem State.with_clu_msgNext (y0 : NMap Clu) : ({ s with clu := y0 } : State).msgNext = s.msgNext := rfl
theorem State.with_clu_seqs (y0 : NMap Clu) : ({ s with clu := y0 } : State).seqs = s.seqs := rfl
theorem State.with_clu_rings (y0 : NMap Clu) : ({ s with clu := y0 } : State).rings = s.rings := rfl
theorem State.with_clu_ringWaits (y0 : NMap Clu) : ({ s with clu := y0 } : State).ringWaits = s.ringWaits := rfl
theorem State.with_clu_ringResets (y0 : NMap Clu) : ({ s with clu := y0 } : State).ringResets = s.ringResets := rfl
theorem State.with_clu_gangs (y0 : NMap Clu) : ({ s with clu := y0 } : State).gangs = s.gangs := rfl
theorem State.with_clu_launches (y0 : NMap Clu) : ({ s with clu := y0 } : State).launches = s.launches := rfl
theorem State.with_clu_icache (y0 : NMap Clu) : ({ s with clu := y0 } : State).icache = s.icache := rfl
theorem State.with_clu_ifills (y0 : NMap Clu) : ({ s with clu := y0 } : State).ifills = s.ifills := rfl
theorem State.with_clu_upd (y0 : NMap Clu) : ({ s with clu := y0 } : State).upd = s.upd := rfl
theorem State.with_clu_updPend (y0 : NMap Clu) : ({ s with clu := y0 } : State).updPend = s.updPend := rfl
theorem State.with_clu_ctxs (y0 : NMap Clu) : ({ s with clu := y0 } : State).ctxs = s.ctxs := rfl
theorem State.with_clu_seqSlots (y0 : NMap Clu) : ({ s with clu := y0 } : State).seqSlots = s.seqSlots := rfl
theorem State.with_clu_tlb (y0 : NMap Clu) : ({ s with clu := y0 } : State).tlb = s.tlb := rfl
theorem State.with_clu_xltInv (y0 : NMap Clu) : ({ s with clu := y0 } : State).xltInv = s.xltInv := rfl
theorem State.with_clu_rdc (y0 : NMap Clu) : ({ s with clu := y0 } : State).rdc = s.rdc := rfl
theorem State.with_clu_rdcFills (y0 : NMap Clu) : ({ s with clu := y0 } : State).rdcFills = s.rdcFills := rfl
theorem State.with_clu_scrubHits (y0 : NMap Clu) : ({ s with clu := y0 } : State).scrubHits = s.scrubHits := rfl
theorem State.with_clu_carry (y0 : NMap Clu) : ({ s with clu := y0 } : State).carry = s.carry := rfl
theorem State.with_clu_active (y0 : NMap Clu) : ({ s with clu := y0 } : State).active = s.active := rfl
theorem State.with_clu_roles (y0 : NMap Clu) : ({ s with clu := y0 } : State).roles = s.roles := rfl
theorem State.with_clu_standby (y0 : NMap Clu) : ({ s with clu := y0 } : State).standby = s.standby := rfl
theorem State.with_clu_swap (y0 : NMap Clu) : ({ s with clu := y0 } : State).swap = s.swap := rfl
theorem State.with_clu_msix (y0 : NMap Clu) : ({ s with clu := y0 } : State).msix = s.msix := rfl
theorem State.with_clu_msixPend (y0 : NMap Clu) : ({ s with clu := y0 } : State).msixPend = s.msixPend := rfl
theorem State.with_clu_sent (y0 : NMap Clu) : ({ s with clu := y0 } : State).sent = s.sent := rfl
theorem State.with_clu_load (y0 : NMap Clu) : ({ s with clu := y0 } : State).load = s.load := rfl
theorem State.with_clu_repairs (y0 : NMap Clu) : ({ s with clu := y0 } : State).repairs = s.repairs := rfl
theorem State.with_clu_sinceLoad (y0 : NMap Clu) : ({ s with clu := y0 } : State).sinceLoad = s.sinceLoad := rfl
theorem State.with_clu_net (y0 : NMap Clu) : ({ s with clu := y0 } : State).net = s.net := rfl
theorem State.with_clu_frameFails (y0 : NMap Clu) : ({ s with clu := y0 } : State).frameFails = s.frameFails := rfl
theorem State.with_clu_nextShift (y0 : NMap Clu) : ({ s with clu := y0 } : State).nextShift = s.nextShift := rfl
theorem State.with_clu_phaseOn (y0 : NMap Clu) : ({ s with clu := y0 } : State).phaseOn = s.phaseOn := rfl
theorem State.with_clu_plan (y0 : NMap Clu) : ({ s with clu := y0 } : State).plan = s.plan := rfl
theorem State.with_clu_deputies (y0 : NMap Clu) : ({ s with clu := y0 } : State).deputies = s.deputies := rfl
theorem State.with_clu_transitHold (y0 : NMap Clu) : ({ s with clu := y0 } : State).transitHold = s.transitHold := rfl
theorem State.with_clu_schedAt (y0 : NMap Clu) : ({ s with clu := y0 } : State).schedAt = s.schedAt := rfl
theorem State.with_clu_schedPrev (y0 : NMap Clu) : ({ s with clu := y0 } : State).schedPrev = s.schedPrev := rfl
theorem State.with_clu_pps (y0 : NMap Clu) : ({ s with clu := y0 } : State).pps = s.pps := rfl
theorem State.with_clu_syncAt (y0 : NMap Clu) : ({ s with clu := y0 } : State).syncAt = s.syncAt := rfl
theorem State.with_clu_slackRuns (y0 : NMap Clu) : ({ s with clu := y0 } : State).slackRuns = s.slackRuns := rfl
theorem State.with_clu_slacks (y0 : NMap Clu) : ({ s with clu := y0 } : State).slacks = s.slacks := rfl
theorem State.with_clu_bulk (y0 : NMap Clu) : ({ s with clu := y0 } : State).bulk = s.bulk := rfl
theorem State.with_clu_bulkSeq (y0 : NMap Clu) : ({ s with clu := y0 } : State).bulkSeq = s.bulkSeq := rfl
theorem State.with_clu_netWant (y0 : NMap Clu) : ({ s with clu := y0 } : State).netWant = s.netWant := rfl
theorem State.with_clu_ports (y0 : NMap Clu) : ({ s with clu := y0 } : State).ports = s.ports := rfl
theorem State.with_clu_wire (y0 : NMap Clu) : ({ s with clu := y0 } : State).wire = s.wire := rfl
theorem State.with_clu_lsdb (y0 : NMap Clu) : ({ s with clu := y0 } : State).lsdb = s.lsdb := rfl
theorem State.with_clu_lsaSeq (y0 : NMap Clu) : ({ s with clu := y0 } : State).lsaSeq = s.lsaSeq := rfl
theorem State.with_clu_lsaAt (y0 : NMap Clu) : ({ s with clu := y0 } : State).lsaAt = s.lsaAt := rfl
theorem State.with_clu_certs (y0 : NMap Clu) : ({ s with clu := y0 } : State).certs = s.certs := rfl
theorem State.with_clu_bookAt (y0 : NMap Clu) : ({ s with clu := y0 } : State).bookAt = s.bookAt := rfl
theorem State.with_clu_taken (y0 : NMap Clu) : ({ s with clu := y0 } : State).taken = s.taken := rfl
theorem State.with_clu_xferNext (y0 : NMap Clu) : ({ s with clu := y0 } : State).xferNext = s.xferNext := rfl
theorem State.with_clu_offers (y0 : NMap Clu) : ({ s with clu := y0 } : State).offers = s.offers := rfl
theorem State.with_clu_transfers (y0 : NMap Clu) : ({ s with clu := y0 } : State).transfers = s.transfers := rfl
theorem State.with_clu_xferEnds (y0 : NMap Clu) : ({ s with clu := y0 } : State).xferEnds = s.xferEnds := rfl
theorem State.with_clu_incoming (y0 : NMap Clu) : ({ s with clu := y0 } : State).incoming = s.incoming := rfl
theorem State.with_clu_offerNext (y0 : NMap Clu) : ({ s with clu := y0 } : State).offerNext = s.offerNext := rfl
theorem State.with_clu_elect (y0 : NMap Clu) : ({ s with clu := y0 } : State).elect = s.elect := rfl
theorem State.with_clu_lands (y0 : NMap Clu) : ({ s with clu := y0 } : State).lands = s.lands := rfl
theorem State.with_clu_colls (y0 : NMap Clu) : ({ s with clu := y0 } : State).colls = s.colls := rfl
theorem State.with_clu_lamps (y0 : NMap Clu) : ({ s with clu := y0 } : State).lamps = s.lamps := rfl
theorem State.with_clu_tracked (y0 : NMap Clu) : ({ s with clu := y0 } : State).tracked = s.tracked := rfl
theorem State.with_clu_snoops (y0 : NMap Clu) : ({ s with clu := y0 } : State).snoops = s.snoops := rfl
theorem State.with_clu_snoopDead (y0 : NMap Clu) : ({ s with clu := y0 } : State).snoopDead = s.snoopDead := rfl
theorem State.with_clu_reply (y0 : NMap Clu) : ({ s with clu := y0 } : State).reply = s.reply := rfl
theorem State.with_clu_mbox (y0 : NMap Clu) : ({ s with clu := y0 } : State).mbox = s.mbox := rfl
theorem State.with_clu_hdmBase (y0 : NMap Clu) : ({ s with clu := y0 } : State).hdmBase = s.hdmBase := rfl
theorem State.with_clu_ideKeys (y0 : NMap Clu) : ({ s with clu := y0 } : State).ideKeys = s.ideKeys := rfl
theorem State.with_clu_power (y0 : NMap Clu) : ({ s with clu := y0 } : State).power = s.power := rfl
theorem State.with_clu_samples (y0 : NMap Clu) : ({ s with clu := y0 } : State).samples = s.samples := rfl
theorem State.with_clu_genState (y0 : NMap Clu) : ({ s with clu := y0 } : State).genState = s.genState := rfl
theorem State.with_clu_genSeed (y0 : NMap Clu) : ({ s with clu := y0 } : State).genSeed = s.genSeed := rfl
theorem State.with_clu_canaries (y0 : NMap Clu) : ({ s with clu := y0 } : State).canaries = s.canaries := rfl
theorem State.with_clu_canaryNext (y0 : NMap Clu) : ({ s with clu := y0 } : State).canaryNext = s.canaryNext := rfl
theorem State.with_clu_canaryCycle (y0 : NMap Clu) : ({ s with clu := y0 } : State).canaryCycle = s.canaryCycle := rfl
theorem State.with_clu_transientTimes (y0 : NMap Clu) : ({ s with clu := y0 } : State).transientTimes = s.transientTimes := rfl
theorem State.with_clu_reports (y0 : NMap Clu) : ({ s with clu := y0 } : State).reports = s.reports := rfl
theorem State.with_clu_reportCount (y0 : NMap Clu) : ({ s with clu := y0 } : State).reportCount = s.reportCount := rfl
theorem State.with_clu_log (y0 : NMap Clu) : ({ s with clu := y0 } : State).log = s.log := rfl
theorem State.with_clu_retireFlash (y0 : NMap Clu) : ({ s with clu := y0 } : State).retireFlash = s.retireFlash := rfl
theorem State.with_clu_retirePend (y0 : NMap Clu) : ({ s with clu := y0 } : State).retirePend = s.retirePend := rfl
theorem State.with_clu_softRepair (y0 : NMap Clu) : ({ s with clu := y0 } : State).softRepair = s.softRepair := rfl
theorem State.with_clu_resets (y0 : NMap Clu) : ({ s with clu := y0 } : State).resets = s.resets := rfl
theorem State.with_clu_board (y0 : NMap Clu) : ({ s with clu := y0 } : State).board = s.board := rfl
theorem State.with_clu_firstBoot (y0 : NMap Clu) : ({ s with clu := y0 } : State).firstBoot = s.firstBoot := rfl
theorem State.with_clu_flash (y0 : NMap Clu) : ({ s with clu := y0 } : State).flash = s.flash := rfl
theorem State.with_clu_up (y0 : NMap Clu) : ({ s with clu := y0 } : State).up = s.up := rfl
theorem State.with_clu_onAt (y0 : NMap Clu) : ({ s with clu := y0 } : State).onAt = s.onAt := rfl
theorem State.with_clu_heldLoad (y0 : NMap Clu) : ({ s with clu := y0 } : State).heldLoad = s.heldLoad := rfl
theorem State.with_clu_bootAt (y0 : NMap Clu) : ({ s with clu := y0 } : State).bootAt = s.bootAt := rfl
theorem State.with_clu_testDue (y0 : NMap Clu) : ({ s with clu := y0 } : State).testDue = s.testDue := rfl
theorem State.with_clu_lifeBase (y0 : NMap Clu) : ({ s with clu := y0 } : State).lifeBase = s.lifeBase := rfl
theorem State.with_clu_secBase (y0 : NMap Clu) : ({ s with clu := y0 } : State).secBase = s.secBase := rfl
theorem State.with_clu_resetWaits (y0 : NMap Clu) : ({ s with clu := y0 } : State).resetWaits = s.resetWaits := rfl
theorem State.with_clu_fw (y0 : NMap Clu) : ({ s with clu := y0 } : State).fw = s.fw := rfl
theorem State.with_clu_fwWritten (y0 : NMap Clu) : ({ s with clu := y0 } : State).fwWritten = s.fwWritten := rfl
theorem State.with_clu_fwFresh (y0 : NMap Clu) : ({ s with clu := y0 } : State).fwFresh = s.fwFresh := rfl
theorem State.with_clu_mboxStage (y0 : NMap Clu) : ({ s with clu := y0 } : State).mboxStage = s.mboxStage := rfl
theorem State.with_clu_act (y0 : NMap Clu) : ({ s with clu := y0 } : State).act = s.act := rfl
theorem State.with_clu_roll (y0 : NMap Clu) : ({ s with clu := y0 } : State).roll = s.roll := rfl
theorem State.with_clu_mpRestart (y0 : NMap Clu) : ({ s with clu := y0 } : State).mpRestart = s.mpRestart := rfl
theorem State.with_clu_pldm (y0 : NMap Clu) : ({ s with clu := y0 } : State).pldm = s.pldm := rfl
theorem State.with_clu_spdm (y0 : NMap Clu) : ({ s with clu := y0 } : State).spdm = s.spdm := rfl
theorem State.with_clu_sessions (y0 : NMap Clu) : ({ s with clu := y0 } : State).sessions = s.sessions := rfl
theorem State.with_clu_sessionNext (y0 : NMap Clu) : ({ s with clu := y0 } : State).sessionNext = s.sessionNext := rfl
theorem State.with_clu_signatures (y0 : NMap Clu) : ({ s with clu := y0 } : State).signatures = s.signatures := rfl
theorem State.with_clu_mgmt (y0 : NMap Clu) : ({ s with clu := y0 } : State).mgmt = s.mgmt := rfl
theorem State.with_clu_fuses (y0 : NMap Clu) : ({ s with clu := y0 } : State).fuses = s.fuses := rfl
theorem State.with_clu_spares (y0 : NMap Clu) : ({ s with clu := y0 } : State).spares = s.spares := rfl
theorem State.with_clu_freeCtr (y0 : NMap Clu) : ({ s with clu := y0 } : State).freeCtr = s.freeCtr := rfl
theorem State.with_clu_pending (y0 : NMap Clu) : ({ s with clu := y0 } : State).pending = s.pending := rfl

/-! ## With other contents of seqs and msgNext and tallies -/

theorem State.with_tallies_regs (y0 : NMap Nat) (y1 : Nat) (y2 : List Tally) : ({ s with seqs := y0, msgNext := y1, tallies := y2 } : State).regs = s.regs := rfl
theorem State.with_tallies_mem (y0 : NMap Nat) (y1 : Nat) (y2 : List Tally) : ({ s with seqs := y0, msgNext := y1, tallies := y2 } : State).mem = s.mem := rfl
theorem State.with_tallies_bufs (y0 : NMap Nat) (y1 : Nat) (y2 : List Tally) : ({ s with seqs := y0, msgNext := y1, tallies := y2 } : State).bufs = s.bufs := rfl
theorem State.with_tallies_ft (y0 : NMap Nat) (y1 : Nat) (y2 : List Tally) : ({ s with seqs := y0, msgNext := y1, tallies := y2 } : State).ft = s.ft := rfl
theorem State.with_tallies_skew (y0 : NMap Nat) (y1 : Nat) (y2 : List Tally) : ({ s with seqs := y0, msgNext := y1, tallies := y2 } : State).skew = s.skew := rfl
theorem State.with_tallies_queues (y0 : NMap Nat) (y1 : Nat) (y2 : List Tally) : ({ s with seqs := y0, msgNext := y1, tallies := y2 } : State).queues = s.queues := rfl
theorem State.with_tallies_nextId (y0 : NMap Nat) (y1 : Nat) (y2 : List Tally) : ({ s with seqs := y0, msgNext := y1, tallies := y2 } : State).nextId = s.nextId := rfl
theorem State.with_tallies_adds (y0 : NMap Nat) (y1 : Nat) (y2 : List Tally) : ({ s with seqs := y0, msgNext := y1, tallies := y2 } : State).adds = s.adds := rfl
theorem State.with_tallies_markStamp (y0 : NMap Nat) (y1 : Nat) (y2 : List Tally) : ({ s with seqs := y0, msgNext := y1, tallies := y2 } : State).markStamp = s.markStamp := rfl
theorem State.with_tallies_rings (y0 : NMap Nat) (y1 : Nat) (y2 : List Tally) : ({ s with seqs := y0, msgNext := y1, tallies := y2 } : State).rings = s.rings := rfl
theorem State.with_tallies_ringWaits (y0 : NMap Nat) (y1 : Nat) (y2 : List Tally) : ({ s with seqs := y0, msgNext := y1, tallies := y2 } : State).ringWaits = s.ringWaits := rfl
theorem State.with_tallies_ringResets (y0 : NMap Nat) (y1 : Nat) (y2 : List Tally) : ({ s with seqs := y0, msgNext := y1, tallies := y2 } : State).ringResets = s.ringResets := rfl
theorem State.with_tallies_gangs (y0 : NMap Nat) (y1 : Nat) (y2 : List Tally) : ({ s with seqs := y0, msgNext := y1, tallies := y2 } : State).gangs = s.gangs := rfl
theorem State.with_tallies_launches (y0 : NMap Nat) (y1 : Nat) (y2 : List Tally) : ({ s with seqs := y0, msgNext := y1, tallies := y2 } : State).launches = s.launches := rfl
theorem State.with_tallies_icache (y0 : NMap Nat) (y1 : Nat) (y2 : List Tally) : ({ s with seqs := y0, msgNext := y1, tallies := y2 } : State).icache = s.icache := rfl
theorem State.with_tallies_ifills (y0 : NMap Nat) (y1 : Nat) (y2 : List Tally) : ({ s with seqs := y0, msgNext := y1, tallies := y2 } : State).ifills = s.ifills := rfl
theorem State.with_tallies_upd (y0 : NMap Nat) (y1 : Nat) (y2 : List Tally) : ({ s with seqs := y0, msgNext := y1, tallies := y2 } : State).upd = s.upd := rfl
theorem State.with_tallies_updPend (y0 : NMap Nat) (y1 : Nat) (y2 : List Tally) : ({ s with seqs := y0, msgNext := y1, tallies := y2 } : State).updPend = s.updPend := rfl
theorem State.with_tallies_ctxs (y0 : NMap Nat) (y1 : Nat) (y2 : List Tally) : ({ s with seqs := y0, msgNext := y1, tallies := y2 } : State).ctxs = s.ctxs := rfl
theorem State.with_tallies_seqSlots (y0 : NMap Nat) (y1 : Nat) (y2 : List Tally) : ({ s with seqs := y0, msgNext := y1, tallies := y2 } : State).seqSlots = s.seqSlots := rfl
theorem State.with_tallies_tlb (y0 : NMap Nat) (y1 : Nat) (y2 : List Tally) : ({ s with seqs := y0, msgNext := y1, tallies := y2 } : State).tlb = s.tlb := rfl
theorem State.with_tallies_xltInv (y0 : NMap Nat) (y1 : Nat) (y2 : List Tally) : ({ s with seqs := y0, msgNext := y1, tallies := y2 } : State).xltInv = s.xltInv := rfl
theorem State.with_tallies_rdc (y0 : NMap Nat) (y1 : Nat) (y2 : List Tally) : ({ s with seqs := y0, msgNext := y1, tallies := y2 } : State).rdc = s.rdc := rfl
theorem State.with_tallies_rdcFills (y0 : NMap Nat) (y1 : Nat) (y2 : List Tally) : ({ s with seqs := y0, msgNext := y1, tallies := y2 } : State).rdcFills = s.rdcFills := rfl
theorem State.with_tallies_scrubHits (y0 : NMap Nat) (y1 : Nat) (y2 : List Tally) : ({ s with seqs := y0, msgNext := y1, tallies := y2 } : State).scrubHits = s.scrubHits := rfl
theorem State.with_tallies_carry (y0 : NMap Nat) (y1 : Nat) (y2 : List Tally) : ({ s with seqs := y0, msgNext := y1, tallies := y2 } : State).carry = s.carry := rfl
theorem State.with_tallies_active (y0 : NMap Nat) (y1 : Nat) (y2 : List Tally) : ({ s with seqs := y0, msgNext := y1, tallies := y2 } : State).active = s.active := rfl
theorem State.with_tallies_roles (y0 : NMap Nat) (y1 : Nat) (y2 : List Tally) : ({ s with seqs := y0, msgNext := y1, tallies := y2 } : State).roles = s.roles := rfl
theorem State.with_tallies_standby (y0 : NMap Nat) (y1 : Nat) (y2 : List Tally) : ({ s with seqs := y0, msgNext := y1, tallies := y2 } : State).standby = s.standby := rfl
theorem State.with_tallies_swap (y0 : NMap Nat) (y1 : Nat) (y2 : List Tally) : ({ s with seqs := y0, msgNext := y1, tallies := y2 } : State).swap = s.swap := rfl
theorem State.with_tallies_msix (y0 : NMap Nat) (y1 : Nat) (y2 : List Tally) : ({ s with seqs := y0, msgNext := y1, tallies := y2 } : State).msix = s.msix := rfl
theorem State.with_tallies_msixPend (y0 : NMap Nat) (y1 : Nat) (y2 : List Tally) : ({ s with seqs := y0, msgNext := y1, tallies := y2 } : State).msixPend = s.msixPend := rfl
theorem State.with_tallies_sent (y0 : NMap Nat) (y1 : Nat) (y2 : List Tally) : ({ s with seqs := y0, msgNext := y1, tallies := y2 } : State).sent = s.sent := rfl
theorem State.with_tallies_load (y0 : NMap Nat) (y1 : Nat) (y2 : List Tally) : ({ s with seqs := y0, msgNext := y1, tallies := y2 } : State).load = s.load := rfl
theorem State.with_tallies_repairs (y0 : NMap Nat) (y1 : Nat) (y2 : List Tally) : ({ s with seqs := y0, msgNext := y1, tallies := y2 } : State).repairs = s.repairs := rfl
theorem State.with_tallies_sinceLoad (y0 : NMap Nat) (y1 : Nat) (y2 : List Tally) : ({ s with seqs := y0, msgNext := y1, tallies := y2 } : State).sinceLoad = s.sinceLoad := rfl
theorem State.with_tallies_net (y0 : NMap Nat) (y1 : Nat) (y2 : List Tally) : ({ s with seqs := y0, msgNext := y1, tallies := y2 } : State).net = s.net := rfl
theorem State.with_tallies_clu (y0 : NMap Nat) (y1 : Nat) (y2 : List Tally) : ({ s with seqs := y0, msgNext := y1, tallies := y2 } : State).clu = s.clu := rfl
theorem State.with_tallies_frameFails (y0 : NMap Nat) (y1 : Nat) (y2 : List Tally) : ({ s with seqs := y0, msgNext := y1, tallies := y2 } : State).frameFails = s.frameFails := rfl
theorem State.with_tallies_nextShift (y0 : NMap Nat) (y1 : Nat) (y2 : List Tally) : ({ s with seqs := y0, msgNext := y1, tallies := y2 } : State).nextShift = s.nextShift := rfl
theorem State.with_tallies_phaseOn (y0 : NMap Nat) (y1 : Nat) (y2 : List Tally) : ({ s with seqs := y0, msgNext := y1, tallies := y2 } : State).phaseOn = s.phaseOn := rfl
theorem State.with_tallies_plan (y0 : NMap Nat) (y1 : Nat) (y2 : List Tally) : ({ s with seqs := y0, msgNext := y1, tallies := y2 } : State).plan = s.plan := rfl
theorem State.with_tallies_deputies (y0 : NMap Nat) (y1 : Nat) (y2 : List Tally) : ({ s with seqs := y0, msgNext := y1, tallies := y2 } : State).deputies = s.deputies := rfl
theorem State.with_tallies_transitHold (y0 : NMap Nat) (y1 : Nat) (y2 : List Tally) : ({ s with seqs := y0, msgNext := y1, tallies := y2 } : State).transitHold = s.transitHold := rfl
theorem State.with_tallies_schedAt (y0 : NMap Nat) (y1 : Nat) (y2 : List Tally) : ({ s with seqs := y0, msgNext := y1, tallies := y2 } : State).schedAt = s.schedAt := rfl
theorem State.with_tallies_schedPrev (y0 : NMap Nat) (y1 : Nat) (y2 : List Tally) : ({ s with seqs := y0, msgNext := y1, tallies := y2 } : State).schedPrev = s.schedPrev := rfl
theorem State.with_tallies_pps (y0 : NMap Nat) (y1 : Nat) (y2 : List Tally) : ({ s with seqs := y0, msgNext := y1, tallies := y2 } : State).pps = s.pps := rfl
theorem State.with_tallies_syncAt (y0 : NMap Nat) (y1 : Nat) (y2 : List Tally) : ({ s with seqs := y0, msgNext := y1, tallies := y2 } : State).syncAt = s.syncAt := rfl
theorem State.with_tallies_slackRuns (y0 : NMap Nat) (y1 : Nat) (y2 : List Tally) : ({ s with seqs := y0, msgNext := y1, tallies := y2 } : State).slackRuns = s.slackRuns := rfl
theorem State.with_tallies_slacks (y0 : NMap Nat) (y1 : Nat) (y2 : List Tally) : ({ s with seqs := y0, msgNext := y1, tallies := y2 } : State).slacks = s.slacks := rfl
theorem State.with_tallies_bulk (y0 : NMap Nat) (y1 : Nat) (y2 : List Tally) : ({ s with seqs := y0, msgNext := y1, tallies := y2 } : State).bulk = s.bulk := rfl
theorem State.with_tallies_bulkSeq (y0 : NMap Nat) (y1 : Nat) (y2 : List Tally) : ({ s with seqs := y0, msgNext := y1, tallies := y2 } : State).bulkSeq = s.bulkSeq := rfl
theorem State.with_tallies_netWant (y0 : NMap Nat) (y1 : Nat) (y2 : List Tally) : ({ s with seqs := y0, msgNext := y1, tallies := y2 } : State).netWant = s.netWant := rfl
theorem State.with_tallies_ports (y0 : NMap Nat) (y1 : Nat) (y2 : List Tally) : ({ s with seqs := y0, msgNext := y1, tallies := y2 } : State).ports = s.ports := rfl
theorem State.with_tallies_wire (y0 : NMap Nat) (y1 : Nat) (y2 : List Tally) : ({ s with seqs := y0, msgNext := y1, tallies := y2 } : State).wire = s.wire := rfl
theorem State.with_tallies_lsdb (y0 : NMap Nat) (y1 : Nat) (y2 : List Tally) : ({ s with seqs := y0, msgNext := y1, tallies := y2 } : State).lsdb = s.lsdb := rfl
theorem State.with_tallies_lsaSeq (y0 : NMap Nat) (y1 : Nat) (y2 : List Tally) : ({ s with seqs := y0, msgNext := y1, tallies := y2 } : State).lsaSeq = s.lsaSeq := rfl
theorem State.with_tallies_lsaAt (y0 : NMap Nat) (y1 : Nat) (y2 : List Tally) : ({ s with seqs := y0, msgNext := y1, tallies := y2 } : State).lsaAt = s.lsaAt := rfl
theorem State.with_tallies_certs (y0 : NMap Nat) (y1 : Nat) (y2 : List Tally) : ({ s with seqs := y0, msgNext := y1, tallies := y2 } : State).certs = s.certs := rfl
theorem State.with_tallies_bookAt (y0 : NMap Nat) (y1 : Nat) (y2 : List Tally) : ({ s with seqs := y0, msgNext := y1, tallies := y2 } : State).bookAt = s.bookAt := rfl
theorem State.with_tallies_taken (y0 : NMap Nat) (y1 : Nat) (y2 : List Tally) : ({ s with seqs := y0, msgNext := y1, tallies := y2 } : State).taken = s.taken := rfl
theorem State.with_tallies_xferNext (y0 : NMap Nat) (y1 : Nat) (y2 : List Tally) : ({ s with seqs := y0, msgNext := y1, tallies := y2 } : State).xferNext = s.xferNext := rfl
theorem State.with_tallies_offers (y0 : NMap Nat) (y1 : Nat) (y2 : List Tally) : ({ s with seqs := y0, msgNext := y1, tallies := y2 } : State).offers = s.offers := rfl
theorem State.with_tallies_transfers (y0 : NMap Nat) (y1 : Nat) (y2 : List Tally) : ({ s with seqs := y0, msgNext := y1, tallies := y2 } : State).transfers = s.transfers := rfl
theorem State.with_tallies_xferEnds (y0 : NMap Nat) (y1 : Nat) (y2 : List Tally) : ({ s with seqs := y0, msgNext := y1, tallies := y2 } : State).xferEnds = s.xferEnds := rfl
theorem State.with_tallies_incoming (y0 : NMap Nat) (y1 : Nat) (y2 : List Tally) : ({ s with seqs := y0, msgNext := y1, tallies := y2 } : State).incoming = s.incoming := rfl
theorem State.with_tallies_offerNext (y0 : NMap Nat) (y1 : Nat) (y2 : List Tally) : ({ s with seqs := y0, msgNext := y1, tallies := y2 } : State).offerNext = s.offerNext := rfl
theorem State.with_tallies_elect (y0 : NMap Nat) (y1 : Nat) (y2 : List Tally) : ({ s with seqs := y0, msgNext := y1, tallies := y2 } : State).elect = s.elect := rfl
theorem State.with_tallies_lands (y0 : NMap Nat) (y1 : Nat) (y2 : List Tally) : ({ s with seqs := y0, msgNext := y1, tallies := y2 } : State).lands = s.lands := rfl
theorem State.with_tallies_colls (y0 : NMap Nat) (y1 : Nat) (y2 : List Tally) : ({ s with seqs := y0, msgNext := y1, tallies := y2 } : State).colls = s.colls := rfl
theorem State.with_tallies_lamps (y0 : NMap Nat) (y1 : Nat) (y2 : List Tally) : ({ s with seqs := y0, msgNext := y1, tallies := y2 } : State).lamps = s.lamps := rfl
theorem State.with_tallies_tracked (y0 : NMap Nat) (y1 : Nat) (y2 : List Tally) : ({ s with seqs := y0, msgNext := y1, tallies := y2 } : State).tracked = s.tracked := rfl
theorem State.with_tallies_snoops (y0 : NMap Nat) (y1 : Nat) (y2 : List Tally) : ({ s with seqs := y0, msgNext := y1, tallies := y2 } : State).snoops = s.snoops := rfl
theorem State.with_tallies_snoopDead (y0 : NMap Nat) (y1 : Nat) (y2 : List Tally) : ({ s with seqs := y0, msgNext := y1, tallies := y2 } : State).snoopDead = s.snoopDead := rfl
theorem State.with_tallies_reply (y0 : NMap Nat) (y1 : Nat) (y2 : List Tally) : ({ s with seqs := y0, msgNext := y1, tallies := y2 } : State).reply = s.reply := rfl
theorem State.with_tallies_mbox (y0 : NMap Nat) (y1 : Nat) (y2 : List Tally) : ({ s with seqs := y0, msgNext := y1, tallies := y2 } : State).mbox = s.mbox := rfl
theorem State.with_tallies_hdmBase (y0 : NMap Nat) (y1 : Nat) (y2 : List Tally) : ({ s with seqs := y0, msgNext := y1, tallies := y2 } : State).hdmBase = s.hdmBase := rfl
theorem State.with_tallies_ideKeys (y0 : NMap Nat) (y1 : Nat) (y2 : List Tally) : ({ s with seqs := y0, msgNext := y1, tallies := y2 } : State).ideKeys = s.ideKeys := rfl
theorem State.with_tallies_power (y0 : NMap Nat) (y1 : Nat) (y2 : List Tally) : ({ s with seqs := y0, msgNext := y1, tallies := y2 } : State).power = s.power := rfl
theorem State.with_tallies_samples (y0 : NMap Nat) (y1 : Nat) (y2 : List Tally) : ({ s with seqs := y0, msgNext := y1, tallies := y2 } : State).samples = s.samples := rfl
theorem State.with_tallies_genState (y0 : NMap Nat) (y1 : Nat) (y2 : List Tally) : ({ s with seqs := y0, msgNext := y1, tallies := y2 } : State).genState = s.genState := rfl
theorem State.with_tallies_genSeed (y0 : NMap Nat) (y1 : Nat) (y2 : List Tally) : ({ s with seqs := y0, msgNext := y1, tallies := y2 } : State).genSeed = s.genSeed := rfl
theorem State.with_tallies_canaries (y0 : NMap Nat) (y1 : Nat) (y2 : List Tally) : ({ s with seqs := y0, msgNext := y1, tallies := y2 } : State).canaries = s.canaries := rfl
theorem State.with_tallies_canaryNext (y0 : NMap Nat) (y1 : Nat) (y2 : List Tally) : ({ s with seqs := y0, msgNext := y1, tallies := y2 } : State).canaryNext = s.canaryNext := rfl
theorem State.with_tallies_canaryCycle (y0 : NMap Nat) (y1 : Nat) (y2 : List Tally) : ({ s with seqs := y0, msgNext := y1, tallies := y2 } : State).canaryCycle = s.canaryCycle := rfl
theorem State.with_tallies_transientTimes (y0 : NMap Nat) (y1 : Nat) (y2 : List Tally) : ({ s with seqs := y0, msgNext := y1, tallies := y2 } : State).transientTimes = s.transientTimes := rfl
theorem State.with_tallies_reports (y0 : NMap Nat) (y1 : Nat) (y2 : List Tally) : ({ s with seqs := y0, msgNext := y1, tallies := y2 } : State).reports = s.reports := rfl
theorem State.with_tallies_reportCount (y0 : NMap Nat) (y1 : Nat) (y2 : List Tally) : ({ s with seqs := y0, msgNext := y1, tallies := y2 } : State).reportCount = s.reportCount := rfl
theorem State.with_tallies_log (y0 : NMap Nat) (y1 : Nat) (y2 : List Tally) : ({ s with seqs := y0, msgNext := y1, tallies := y2 } : State).log = s.log := rfl
theorem State.with_tallies_retireFlash (y0 : NMap Nat) (y1 : Nat) (y2 : List Tally) : ({ s with seqs := y0, msgNext := y1, tallies := y2 } : State).retireFlash = s.retireFlash := rfl
theorem State.with_tallies_retirePend (y0 : NMap Nat) (y1 : Nat) (y2 : List Tally) : ({ s with seqs := y0, msgNext := y1, tallies := y2 } : State).retirePend = s.retirePend := rfl
theorem State.with_tallies_softRepair (y0 : NMap Nat) (y1 : Nat) (y2 : List Tally) : ({ s with seqs := y0, msgNext := y1, tallies := y2 } : State).softRepair = s.softRepair := rfl
theorem State.with_tallies_resets (y0 : NMap Nat) (y1 : Nat) (y2 : List Tally) : ({ s with seqs := y0, msgNext := y1, tallies := y2 } : State).resets = s.resets := rfl
theorem State.with_tallies_board (y0 : NMap Nat) (y1 : Nat) (y2 : List Tally) : ({ s with seqs := y0, msgNext := y1, tallies := y2 } : State).board = s.board := rfl
theorem State.with_tallies_firstBoot (y0 : NMap Nat) (y1 : Nat) (y2 : List Tally) : ({ s with seqs := y0, msgNext := y1, tallies := y2 } : State).firstBoot = s.firstBoot := rfl
theorem State.with_tallies_flash (y0 : NMap Nat) (y1 : Nat) (y2 : List Tally) : ({ s with seqs := y0, msgNext := y1, tallies := y2 } : State).flash = s.flash := rfl
theorem State.with_tallies_up (y0 : NMap Nat) (y1 : Nat) (y2 : List Tally) : ({ s with seqs := y0, msgNext := y1, tallies := y2 } : State).up = s.up := rfl
theorem State.with_tallies_onAt (y0 : NMap Nat) (y1 : Nat) (y2 : List Tally) : ({ s with seqs := y0, msgNext := y1, tallies := y2 } : State).onAt = s.onAt := rfl
theorem State.with_tallies_heldLoad (y0 : NMap Nat) (y1 : Nat) (y2 : List Tally) : ({ s with seqs := y0, msgNext := y1, tallies := y2 } : State).heldLoad = s.heldLoad := rfl
theorem State.with_tallies_bootAt (y0 : NMap Nat) (y1 : Nat) (y2 : List Tally) : ({ s with seqs := y0, msgNext := y1, tallies := y2 } : State).bootAt = s.bootAt := rfl
theorem State.with_tallies_testDue (y0 : NMap Nat) (y1 : Nat) (y2 : List Tally) : ({ s with seqs := y0, msgNext := y1, tallies := y2 } : State).testDue = s.testDue := rfl
theorem State.with_tallies_lifeBase (y0 : NMap Nat) (y1 : Nat) (y2 : List Tally) : ({ s with seqs := y0, msgNext := y1, tallies := y2 } : State).lifeBase = s.lifeBase := rfl
theorem State.with_tallies_secBase (y0 : NMap Nat) (y1 : Nat) (y2 : List Tally) : ({ s with seqs := y0, msgNext := y1, tallies := y2 } : State).secBase = s.secBase := rfl
theorem State.with_tallies_resetWaits (y0 : NMap Nat) (y1 : Nat) (y2 : List Tally) : ({ s with seqs := y0, msgNext := y1, tallies := y2 } : State).resetWaits = s.resetWaits := rfl
theorem State.with_tallies_fw (y0 : NMap Nat) (y1 : Nat) (y2 : List Tally) : ({ s with seqs := y0, msgNext := y1, tallies := y2 } : State).fw = s.fw := rfl
theorem State.with_tallies_fwWritten (y0 : NMap Nat) (y1 : Nat) (y2 : List Tally) : ({ s with seqs := y0, msgNext := y1, tallies := y2 } : State).fwWritten = s.fwWritten := rfl
theorem State.with_tallies_fwFresh (y0 : NMap Nat) (y1 : Nat) (y2 : List Tally) : ({ s with seqs := y0, msgNext := y1, tallies := y2 } : State).fwFresh = s.fwFresh := rfl
theorem State.with_tallies_mboxStage (y0 : NMap Nat) (y1 : Nat) (y2 : List Tally) : ({ s with seqs := y0, msgNext := y1, tallies := y2 } : State).mboxStage = s.mboxStage := rfl
theorem State.with_tallies_act (y0 : NMap Nat) (y1 : Nat) (y2 : List Tally) : ({ s with seqs := y0, msgNext := y1, tallies := y2 } : State).act = s.act := rfl
theorem State.with_tallies_roll (y0 : NMap Nat) (y1 : Nat) (y2 : List Tally) : ({ s with seqs := y0, msgNext := y1, tallies := y2 } : State).roll = s.roll := rfl
theorem State.with_tallies_mpRestart (y0 : NMap Nat) (y1 : Nat) (y2 : List Tally) : ({ s with seqs := y0, msgNext := y1, tallies := y2 } : State).mpRestart = s.mpRestart := rfl
theorem State.with_tallies_pldm (y0 : NMap Nat) (y1 : Nat) (y2 : List Tally) : ({ s with seqs := y0, msgNext := y1, tallies := y2 } : State).pldm = s.pldm := rfl
theorem State.with_tallies_spdm (y0 : NMap Nat) (y1 : Nat) (y2 : List Tally) : ({ s with seqs := y0, msgNext := y1, tallies := y2 } : State).spdm = s.spdm := rfl
theorem State.with_tallies_sessions (y0 : NMap Nat) (y1 : Nat) (y2 : List Tally) : ({ s with seqs := y0, msgNext := y1, tallies := y2 } : State).sessions = s.sessions := rfl
theorem State.with_tallies_sessionNext (y0 : NMap Nat) (y1 : Nat) (y2 : List Tally) : ({ s with seqs := y0, msgNext := y1, tallies := y2 } : State).sessionNext = s.sessionNext := rfl
theorem State.with_tallies_signatures (y0 : NMap Nat) (y1 : Nat) (y2 : List Tally) : ({ s with seqs := y0, msgNext := y1, tallies := y2 } : State).signatures = s.signatures := rfl
theorem State.with_tallies_mgmt (y0 : NMap Nat) (y1 : Nat) (y2 : List Tally) : ({ s with seqs := y0, msgNext := y1, tallies := y2 } : State).mgmt = s.mgmt := rfl
theorem State.with_tallies_fuses (y0 : NMap Nat) (y1 : Nat) (y2 : List Tally) : ({ s with seqs := y0, msgNext := y1, tallies := y2 } : State).fuses = s.fuses := rfl
theorem State.with_tallies_spares (y0 : NMap Nat) (y1 : Nat) (y2 : List Tally) : ({ s with seqs := y0, msgNext := y1, tallies := y2 } : State).spares = s.spares := rfl
theorem State.with_tallies_freeCtr (y0 : NMap Nat) (y1 : Nat) (y2 : List Tally) : ({ s with seqs := y0, msgNext := y1, tallies := y2 } : State).freeCtr = s.freeCtr := rfl
theorem State.with_tallies_pending (y0 : NMap Nat) (y1 : Nat) (y2 : List Tally) : ({ s with seqs := y0, msgNext := y1, tallies := y2 } : State).pending = s.pending := rfl

/-! ## With other contents of queues -/

theorem State.with_queues_regs (y0 : NMap Queue) : ({ s with queues := y0 } : State).regs = s.regs := rfl
theorem State.with_queues_mem (y0 : NMap Queue) : ({ s with queues := y0 } : State).mem = s.mem := rfl
theorem State.with_queues_bufs (y0 : NMap Queue) : ({ s with queues := y0 } : State).bufs = s.bufs := rfl
theorem State.with_queues_ft (y0 : NMap Queue) : ({ s with queues := y0 } : State).ft = s.ft := rfl
theorem State.with_queues_skew (y0 : NMap Queue) : ({ s with queues := y0 } : State).skew = s.skew := rfl
theorem State.with_queues_nextId (y0 : NMap Queue) : ({ s with queues := y0 } : State).nextId = s.nextId := rfl
theorem State.with_queues_adds (y0 : NMap Queue) : ({ s with queues := y0 } : State).adds = s.adds := rfl
theorem State.with_queues_markStamp (y0 : NMap Queue) : ({ s with queues := y0 } : State).markStamp = s.markStamp := rfl
theorem State.with_queues_tallies (y0 : NMap Queue) : ({ s with queues := y0 } : State).tallies = s.tallies := rfl
theorem State.with_queues_msgNext (y0 : NMap Queue) : ({ s with queues := y0 } : State).msgNext = s.msgNext := rfl
theorem State.with_queues_seqs (y0 : NMap Queue) : ({ s with queues := y0 } : State).seqs = s.seqs := rfl
theorem State.with_queues_rings (y0 : NMap Queue) : ({ s with queues := y0 } : State).rings = s.rings := rfl
theorem State.with_queues_ringWaits (y0 : NMap Queue) : ({ s with queues := y0 } : State).ringWaits = s.ringWaits := rfl
theorem State.with_queues_ringResets (y0 : NMap Queue) : ({ s with queues := y0 } : State).ringResets = s.ringResets := rfl
theorem State.with_queues_gangs (y0 : NMap Queue) : ({ s with queues := y0 } : State).gangs = s.gangs := rfl
theorem State.with_queues_launches (y0 : NMap Queue) : ({ s with queues := y0 } : State).launches = s.launches := rfl
theorem State.with_queues_icache (y0 : NMap Queue) : ({ s with queues := y0 } : State).icache = s.icache := rfl
theorem State.with_queues_ifills (y0 : NMap Queue) : ({ s with queues := y0 } : State).ifills = s.ifills := rfl
theorem State.with_queues_upd (y0 : NMap Queue) : ({ s with queues := y0 } : State).upd = s.upd := rfl
theorem State.with_queues_updPend (y0 : NMap Queue) : ({ s with queues := y0 } : State).updPend = s.updPend := rfl
theorem State.with_queues_ctxs (y0 : NMap Queue) : ({ s with queues := y0 } : State).ctxs = s.ctxs := rfl
theorem State.with_queues_seqSlots (y0 : NMap Queue) : ({ s with queues := y0 } : State).seqSlots = s.seqSlots := rfl
theorem State.with_queues_tlb (y0 : NMap Queue) : ({ s with queues := y0 } : State).tlb = s.tlb := rfl
theorem State.with_queues_xltInv (y0 : NMap Queue) : ({ s with queues := y0 } : State).xltInv = s.xltInv := rfl
theorem State.with_queues_rdc (y0 : NMap Queue) : ({ s with queues := y0 } : State).rdc = s.rdc := rfl
theorem State.with_queues_rdcFills (y0 : NMap Queue) : ({ s with queues := y0 } : State).rdcFills = s.rdcFills := rfl
theorem State.with_queues_scrubHits (y0 : NMap Queue) : ({ s with queues := y0 } : State).scrubHits = s.scrubHits := rfl
theorem State.with_queues_carry (y0 : NMap Queue) : ({ s with queues := y0 } : State).carry = s.carry := rfl
theorem State.with_queues_active (y0 : NMap Queue) : ({ s with queues := y0 } : State).active = s.active := rfl
theorem State.with_queues_roles (y0 : NMap Queue) : ({ s with queues := y0 } : State).roles = s.roles := rfl
theorem State.with_queues_standby (y0 : NMap Queue) : ({ s with queues := y0 } : State).standby = s.standby := rfl
theorem State.with_queues_swap (y0 : NMap Queue) : ({ s with queues := y0 } : State).swap = s.swap := rfl
theorem State.with_queues_msix (y0 : NMap Queue) : ({ s with queues := y0 } : State).msix = s.msix := rfl
theorem State.with_queues_msixPend (y0 : NMap Queue) : ({ s with queues := y0 } : State).msixPend = s.msixPend := rfl
theorem State.with_queues_sent (y0 : NMap Queue) : ({ s with queues := y0 } : State).sent = s.sent := rfl
theorem State.with_queues_load (y0 : NMap Queue) : ({ s with queues := y0 } : State).load = s.load := rfl
theorem State.with_queues_repairs (y0 : NMap Queue) : ({ s with queues := y0 } : State).repairs = s.repairs := rfl
theorem State.with_queues_sinceLoad (y0 : NMap Queue) : ({ s with queues := y0 } : State).sinceLoad = s.sinceLoad := rfl
theorem State.with_queues_net (y0 : NMap Queue) : ({ s with queues := y0 } : State).net = s.net := rfl
theorem State.with_queues_clu (y0 : NMap Queue) : ({ s with queues := y0 } : State).clu = s.clu := rfl
theorem State.with_queues_frameFails (y0 : NMap Queue) : ({ s with queues := y0 } : State).frameFails = s.frameFails := rfl
theorem State.with_queues_nextShift (y0 : NMap Queue) : ({ s with queues := y0 } : State).nextShift = s.nextShift := rfl
theorem State.with_queues_phaseOn (y0 : NMap Queue) : ({ s with queues := y0 } : State).phaseOn = s.phaseOn := rfl
theorem State.with_queues_plan (y0 : NMap Queue) : ({ s with queues := y0 } : State).plan = s.plan := rfl
theorem State.with_queues_deputies (y0 : NMap Queue) : ({ s with queues := y0 } : State).deputies = s.deputies := rfl
theorem State.with_queues_transitHold (y0 : NMap Queue) : ({ s with queues := y0 } : State).transitHold = s.transitHold := rfl
theorem State.with_queues_schedAt (y0 : NMap Queue) : ({ s with queues := y0 } : State).schedAt = s.schedAt := rfl
theorem State.with_queues_schedPrev (y0 : NMap Queue) : ({ s with queues := y0 } : State).schedPrev = s.schedPrev := rfl
theorem State.with_queues_pps (y0 : NMap Queue) : ({ s with queues := y0 } : State).pps = s.pps := rfl
theorem State.with_queues_syncAt (y0 : NMap Queue) : ({ s with queues := y0 } : State).syncAt = s.syncAt := rfl
theorem State.with_queues_slackRuns (y0 : NMap Queue) : ({ s with queues := y0 } : State).slackRuns = s.slackRuns := rfl
theorem State.with_queues_slacks (y0 : NMap Queue) : ({ s with queues := y0 } : State).slacks = s.slacks := rfl
theorem State.with_queues_bulk (y0 : NMap Queue) : ({ s with queues := y0 } : State).bulk = s.bulk := rfl
theorem State.with_queues_bulkSeq (y0 : NMap Queue) : ({ s with queues := y0 } : State).bulkSeq = s.bulkSeq := rfl
theorem State.with_queues_netWant (y0 : NMap Queue) : ({ s with queues := y0 } : State).netWant = s.netWant := rfl
theorem State.with_queues_ports (y0 : NMap Queue) : ({ s with queues := y0 } : State).ports = s.ports := rfl
theorem State.with_queues_wire (y0 : NMap Queue) : ({ s with queues := y0 } : State).wire = s.wire := rfl
theorem State.with_queues_lsdb (y0 : NMap Queue) : ({ s with queues := y0 } : State).lsdb = s.lsdb := rfl
theorem State.with_queues_lsaSeq (y0 : NMap Queue) : ({ s with queues := y0 } : State).lsaSeq = s.lsaSeq := rfl
theorem State.with_queues_lsaAt (y0 : NMap Queue) : ({ s with queues := y0 } : State).lsaAt = s.lsaAt := rfl
theorem State.with_queues_certs (y0 : NMap Queue) : ({ s with queues := y0 } : State).certs = s.certs := rfl
theorem State.with_queues_bookAt (y0 : NMap Queue) : ({ s with queues := y0 } : State).bookAt = s.bookAt := rfl
theorem State.with_queues_taken (y0 : NMap Queue) : ({ s with queues := y0 } : State).taken = s.taken := rfl
theorem State.with_queues_xferNext (y0 : NMap Queue) : ({ s with queues := y0 } : State).xferNext = s.xferNext := rfl
theorem State.with_queues_offers (y0 : NMap Queue) : ({ s with queues := y0 } : State).offers = s.offers := rfl
theorem State.with_queues_transfers (y0 : NMap Queue) : ({ s with queues := y0 } : State).transfers = s.transfers := rfl
theorem State.with_queues_xferEnds (y0 : NMap Queue) : ({ s with queues := y0 } : State).xferEnds = s.xferEnds := rfl
theorem State.with_queues_incoming (y0 : NMap Queue) : ({ s with queues := y0 } : State).incoming = s.incoming := rfl
theorem State.with_queues_offerNext (y0 : NMap Queue) : ({ s with queues := y0 } : State).offerNext = s.offerNext := rfl
theorem State.with_queues_elect (y0 : NMap Queue) : ({ s with queues := y0 } : State).elect = s.elect := rfl
theorem State.with_queues_lands (y0 : NMap Queue) : ({ s with queues := y0 } : State).lands = s.lands := rfl
theorem State.with_queues_colls (y0 : NMap Queue) : ({ s with queues := y0 } : State).colls = s.colls := rfl
theorem State.with_queues_lamps (y0 : NMap Queue) : ({ s with queues := y0 } : State).lamps = s.lamps := rfl
theorem State.with_queues_tracked (y0 : NMap Queue) : ({ s with queues := y0 } : State).tracked = s.tracked := rfl
theorem State.with_queues_snoops (y0 : NMap Queue) : ({ s with queues := y0 } : State).snoops = s.snoops := rfl
theorem State.with_queues_snoopDead (y0 : NMap Queue) : ({ s with queues := y0 } : State).snoopDead = s.snoopDead := rfl
theorem State.with_queues_reply (y0 : NMap Queue) : ({ s with queues := y0 } : State).reply = s.reply := rfl
theorem State.with_queues_mbox (y0 : NMap Queue) : ({ s with queues := y0 } : State).mbox = s.mbox := rfl
theorem State.with_queues_hdmBase (y0 : NMap Queue) : ({ s with queues := y0 } : State).hdmBase = s.hdmBase := rfl
theorem State.with_queues_ideKeys (y0 : NMap Queue) : ({ s with queues := y0 } : State).ideKeys = s.ideKeys := rfl
theorem State.with_queues_power (y0 : NMap Queue) : ({ s with queues := y0 } : State).power = s.power := rfl
theorem State.with_queues_samples (y0 : NMap Queue) : ({ s with queues := y0 } : State).samples = s.samples := rfl
theorem State.with_queues_genState (y0 : NMap Queue) : ({ s with queues := y0 } : State).genState = s.genState := rfl
theorem State.with_queues_genSeed (y0 : NMap Queue) : ({ s with queues := y0 } : State).genSeed = s.genSeed := rfl
theorem State.with_queues_canaries (y0 : NMap Queue) : ({ s with queues := y0 } : State).canaries = s.canaries := rfl
theorem State.with_queues_canaryNext (y0 : NMap Queue) : ({ s with queues := y0 } : State).canaryNext = s.canaryNext := rfl
theorem State.with_queues_canaryCycle (y0 : NMap Queue) : ({ s with queues := y0 } : State).canaryCycle = s.canaryCycle := rfl
theorem State.with_queues_transientTimes (y0 : NMap Queue) : ({ s with queues := y0 } : State).transientTimes = s.transientTimes := rfl
theorem State.with_queues_reports (y0 : NMap Queue) : ({ s with queues := y0 } : State).reports = s.reports := rfl
theorem State.with_queues_reportCount (y0 : NMap Queue) : ({ s with queues := y0 } : State).reportCount = s.reportCount := rfl
theorem State.with_queues_log (y0 : NMap Queue) : ({ s with queues := y0 } : State).log = s.log := rfl
theorem State.with_queues_retireFlash (y0 : NMap Queue) : ({ s with queues := y0 } : State).retireFlash = s.retireFlash := rfl
theorem State.with_queues_retirePend (y0 : NMap Queue) : ({ s with queues := y0 } : State).retirePend = s.retirePend := rfl
theorem State.with_queues_softRepair (y0 : NMap Queue) : ({ s with queues := y0 } : State).softRepair = s.softRepair := rfl
theorem State.with_queues_resets (y0 : NMap Queue) : ({ s with queues := y0 } : State).resets = s.resets := rfl
theorem State.with_queues_board (y0 : NMap Queue) : ({ s with queues := y0 } : State).board = s.board := rfl
theorem State.with_queues_firstBoot (y0 : NMap Queue) : ({ s with queues := y0 } : State).firstBoot = s.firstBoot := rfl
theorem State.with_queues_flash (y0 : NMap Queue) : ({ s with queues := y0 } : State).flash = s.flash := rfl
theorem State.with_queues_up (y0 : NMap Queue) : ({ s with queues := y0 } : State).up = s.up := rfl
theorem State.with_queues_onAt (y0 : NMap Queue) : ({ s with queues := y0 } : State).onAt = s.onAt := rfl
theorem State.with_queues_heldLoad (y0 : NMap Queue) : ({ s with queues := y0 } : State).heldLoad = s.heldLoad := rfl
theorem State.with_queues_bootAt (y0 : NMap Queue) : ({ s with queues := y0 } : State).bootAt = s.bootAt := rfl
theorem State.with_queues_testDue (y0 : NMap Queue) : ({ s with queues := y0 } : State).testDue = s.testDue := rfl
theorem State.with_queues_lifeBase (y0 : NMap Queue) : ({ s with queues := y0 } : State).lifeBase = s.lifeBase := rfl
theorem State.with_queues_secBase (y0 : NMap Queue) : ({ s with queues := y0 } : State).secBase = s.secBase := rfl
theorem State.with_queues_resetWaits (y0 : NMap Queue) : ({ s with queues := y0 } : State).resetWaits = s.resetWaits := rfl
theorem State.with_queues_fw (y0 : NMap Queue) : ({ s with queues := y0 } : State).fw = s.fw := rfl
theorem State.with_queues_fwWritten (y0 : NMap Queue) : ({ s with queues := y0 } : State).fwWritten = s.fwWritten := rfl
theorem State.with_queues_fwFresh (y0 : NMap Queue) : ({ s with queues := y0 } : State).fwFresh = s.fwFresh := rfl
theorem State.with_queues_mboxStage (y0 : NMap Queue) : ({ s with queues := y0 } : State).mboxStage = s.mboxStage := rfl
theorem State.with_queues_act (y0 : NMap Queue) : ({ s with queues := y0 } : State).act = s.act := rfl
theorem State.with_queues_roll (y0 : NMap Queue) : ({ s with queues := y0 } : State).roll = s.roll := rfl
theorem State.with_queues_mpRestart (y0 : NMap Queue) : ({ s with queues := y0 } : State).mpRestart = s.mpRestart := rfl
theorem State.with_queues_pldm (y0 : NMap Queue) : ({ s with queues := y0 } : State).pldm = s.pldm := rfl
theorem State.with_queues_spdm (y0 : NMap Queue) : ({ s with queues := y0 } : State).spdm = s.spdm := rfl
theorem State.with_queues_sessions (y0 : NMap Queue) : ({ s with queues := y0 } : State).sessions = s.sessions := rfl
theorem State.with_queues_sessionNext (y0 : NMap Queue) : ({ s with queues := y0 } : State).sessionNext = s.sessionNext := rfl
theorem State.with_queues_signatures (y0 : NMap Queue) : ({ s with queues := y0 } : State).signatures = s.signatures := rfl
theorem State.with_queues_mgmt (y0 : NMap Queue) : ({ s with queues := y0 } : State).mgmt = s.mgmt := rfl
theorem State.with_queues_fuses (y0 : NMap Queue) : ({ s with queues := y0 } : State).fuses = s.fuses := rfl
theorem State.with_queues_spares (y0 : NMap Queue) : ({ s with queues := y0 } : State).spares = s.spares := rfl
theorem State.with_queues_freeCtr (y0 : NMap Queue) : ({ s with queues := y0 } : State).freeCtr = s.freeCtr := rfl
theorem State.with_queues_pending (y0 : NMap Queue) : ({ s with queues := y0 } : State).pending = s.pending := rfl

/-! ## With other contents of board -/

theorem State.with_board_regs (y0 : Board) : ({ s with board := y0 } : State).regs = s.regs := rfl
theorem State.with_board_mem (y0 : Board) : ({ s with board := y0 } : State).mem = s.mem := rfl
theorem State.with_board_bufs (y0 : Board) : ({ s with board := y0 } : State).bufs = s.bufs := rfl
theorem State.with_board_ft (y0 : Board) : ({ s with board := y0 } : State).ft = s.ft := rfl
theorem State.with_board_skew (y0 : Board) : ({ s with board := y0 } : State).skew = s.skew := rfl
theorem State.with_board_queues (y0 : Board) : ({ s with board := y0 } : State).queues = s.queues := rfl
theorem State.with_board_nextId (y0 : Board) : ({ s with board := y0 } : State).nextId = s.nextId := rfl
theorem State.with_board_adds (y0 : Board) : ({ s with board := y0 } : State).adds = s.adds := rfl
theorem State.with_board_markStamp (y0 : Board) : ({ s with board := y0 } : State).markStamp = s.markStamp := rfl
theorem State.with_board_tallies (y0 : Board) : ({ s with board := y0 } : State).tallies = s.tallies := rfl
theorem State.with_board_msgNext (y0 : Board) : ({ s with board := y0 } : State).msgNext = s.msgNext := rfl
theorem State.with_board_seqs (y0 : Board) : ({ s with board := y0 } : State).seqs = s.seqs := rfl
theorem State.with_board_rings (y0 : Board) : ({ s with board := y0 } : State).rings = s.rings := rfl
theorem State.with_board_ringWaits (y0 : Board) : ({ s with board := y0 } : State).ringWaits = s.ringWaits := rfl
theorem State.with_board_ringResets (y0 : Board) : ({ s with board := y0 } : State).ringResets = s.ringResets := rfl
theorem State.with_board_gangs (y0 : Board) : ({ s with board := y0 } : State).gangs = s.gangs := rfl
theorem State.with_board_launches (y0 : Board) : ({ s with board := y0 } : State).launches = s.launches := rfl
theorem State.with_board_icache (y0 : Board) : ({ s with board := y0 } : State).icache = s.icache := rfl
theorem State.with_board_ifills (y0 : Board) : ({ s with board := y0 } : State).ifills = s.ifills := rfl
theorem State.with_board_upd (y0 : Board) : ({ s with board := y0 } : State).upd = s.upd := rfl
theorem State.with_board_updPend (y0 : Board) : ({ s with board := y0 } : State).updPend = s.updPend := rfl
theorem State.with_board_ctxs (y0 : Board) : ({ s with board := y0 } : State).ctxs = s.ctxs := rfl
theorem State.with_board_seqSlots (y0 : Board) : ({ s with board := y0 } : State).seqSlots = s.seqSlots := rfl
theorem State.with_board_tlb (y0 : Board) : ({ s with board := y0 } : State).tlb = s.tlb := rfl
theorem State.with_board_xltInv (y0 : Board) : ({ s with board := y0 } : State).xltInv = s.xltInv := rfl
theorem State.with_board_rdc (y0 : Board) : ({ s with board := y0 } : State).rdc = s.rdc := rfl
theorem State.with_board_rdcFills (y0 : Board) : ({ s with board := y0 } : State).rdcFills = s.rdcFills := rfl
theorem State.with_board_scrubHits (y0 : Board) : ({ s with board := y0 } : State).scrubHits = s.scrubHits := rfl
theorem State.with_board_carry (y0 : Board) : ({ s with board := y0 } : State).carry = s.carry := rfl
theorem State.with_board_active (y0 : Board) : ({ s with board := y0 } : State).active = s.active := rfl
theorem State.with_board_roles (y0 : Board) : ({ s with board := y0 } : State).roles = s.roles := rfl
theorem State.with_board_standby (y0 : Board) : ({ s with board := y0 } : State).standby = s.standby := rfl
theorem State.with_board_swap (y0 : Board) : ({ s with board := y0 } : State).swap = s.swap := rfl
theorem State.with_board_msix (y0 : Board) : ({ s with board := y0 } : State).msix = s.msix := rfl
theorem State.with_board_msixPend (y0 : Board) : ({ s with board := y0 } : State).msixPend = s.msixPend := rfl
theorem State.with_board_sent (y0 : Board) : ({ s with board := y0 } : State).sent = s.sent := rfl
theorem State.with_board_load (y0 : Board) : ({ s with board := y0 } : State).load = s.load := rfl
theorem State.with_board_repairs (y0 : Board) : ({ s with board := y0 } : State).repairs = s.repairs := rfl
theorem State.with_board_sinceLoad (y0 : Board) : ({ s with board := y0 } : State).sinceLoad = s.sinceLoad := rfl
theorem State.with_board_net (y0 : Board) : ({ s with board := y0 } : State).net = s.net := rfl
theorem State.with_board_clu (y0 : Board) : ({ s with board := y0 } : State).clu = s.clu := rfl
theorem State.with_board_frameFails (y0 : Board) : ({ s with board := y0 } : State).frameFails = s.frameFails := rfl
theorem State.with_board_nextShift (y0 : Board) : ({ s with board := y0 } : State).nextShift = s.nextShift := rfl
theorem State.with_board_phaseOn (y0 : Board) : ({ s with board := y0 } : State).phaseOn = s.phaseOn := rfl
theorem State.with_board_plan (y0 : Board) : ({ s with board := y0 } : State).plan = s.plan := rfl
theorem State.with_board_deputies (y0 : Board) : ({ s with board := y0 } : State).deputies = s.deputies := rfl
theorem State.with_board_transitHold (y0 : Board) : ({ s with board := y0 } : State).transitHold = s.transitHold := rfl
theorem State.with_board_schedAt (y0 : Board) : ({ s with board := y0 } : State).schedAt = s.schedAt := rfl
theorem State.with_board_schedPrev (y0 : Board) : ({ s with board := y0 } : State).schedPrev = s.schedPrev := rfl
theorem State.with_board_pps (y0 : Board) : ({ s with board := y0 } : State).pps = s.pps := rfl
theorem State.with_board_syncAt (y0 : Board) : ({ s with board := y0 } : State).syncAt = s.syncAt := rfl
theorem State.with_board_slackRuns (y0 : Board) : ({ s with board := y0 } : State).slackRuns = s.slackRuns := rfl
theorem State.with_board_slacks (y0 : Board) : ({ s with board := y0 } : State).slacks = s.slacks := rfl
theorem State.with_board_bulk (y0 : Board) : ({ s with board := y0 } : State).bulk = s.bulk := rfl
theorem State.with_board_bulkSeq (y0 : Board) : ({ s with board := y0 } : State).bulkSeq = s.bulkSeq := rfl
theorem State.with_board_netWant (y0 : Board) : ({ s with board := y0 } : State).netWant = s.netWant := rfl
theorem State.with_board_ports (y0 : Board) : ({ s with board := y0 } : State).ports = s.ports := rfl
theorem State.with_board_wire (y0 : Board) : ({ s with board := y0 } : State).wire = s.wire := rfl
theorem State.with_board_lsdb (y0 : Board) : ({ s with board := y0 } : State).lsdb = s.lsdb := rfl
theorem State.with_board_lsaSeq (y0 : Board) : ({ s with board := y0 } : State).lsaSeq = s.lsaSeq := rfl
theorem State.with_board_lsaAt (y0 : Board) : ({ s with board := y0 } : State).lsaAt = s.lsaAt := rfl
theorem State.with_board_certs (y0 : Board) : ({ s with board := y0 } : State).certs = s.certs := rfl
theorem State.with_board_bookAt (y0 : Board) : ({ s with board := y0 } : State).bookAt = s.bookAt := rfl
theorem State.with_board_taken (y0 : Board) : ({ s with board := y0 } : State).taken = s.taken := rfl
theorem State.with_board_xferNext (y0 : Board) : ({ s with board := y0 } : State).xferNext = s.xferNext := rfl
theorem State.with_board_offers (y0 : Board) : ({ s with board := y0 } : State).offers = s.offers := rfl
theorem State.with_board_transfers (y0 : Board) : ({ s with board := y0 } : State).transfers = s.transfers := rfl
theorem State.with_board_xferEnds (y0 : Board) : ({ s with board := y0 } : State).xferEnds = s.xferEnds := rfl
theorem State.with_board_incoming (y0 : Board) : ({ s with board := y0 } : State).incoming = s.incoming := rfl
theorem State.with_board_offerNext (y0 : Board) : ({ s with board := y0 } : State).offerNext = s.offerNext := rfl
theorem State.with_board_elect (y0 : Board) : ({ s with board := y0 } : State).elect = s.elect := rfl
theorem State.with_board_lands (y0 : Board) : ({ s with board := y0 } : State).lands = s.lands := rfl
theorem State.with_board_colls (y0 : Board) : ({ s with board := y0 } : State).colls = s.colls := rfl
theorem State.with_board_lamps (y0 : Board) : ({ s with board := y0 } : State).lamps = s.lamps := rfl
theorem State.with_board_tracked (y0 : Board) : ({ s with board := y0 } : State).tracked = s.tracked := rfl
theorem State.with_board_snoops (y0 : Board) : ({ s with board := y0 } : State).snoops = s.snoops := rfl
theorem State.with_board_snoopDead (y0 : Board) : ({ s with board := y0 } : State).snoopDead = s.snoopDead := rfl
theorem State.with_board_reply (y0 : Board) : ({ s with board := y0 } : State).reply = s.reply := rfl
theorem State.with_board_mbox (y0 : Board) : ({ s with board := y0 } : State).mbox = s.mbox := rfl
theorem State.with_board_hdmBase (y0 : Board) : ({ s with board := y0 } : State).hdmBase = s.hdmBase := rfl
theorem State.with_board_ideKeys (y0 : Board) : ({ s with board := y0 } : State).ideKeys = s.ideKeys := rfl
theorem State.with_board_power (y0 : Board) : ({ s with board := y0 } : State).power = s.power := rfl
theorem State.with_board_samples (y0 : Board) : ({ s with board := y0 } : State).samples = s.samples := rfl
theorem State.with_board_genState (y0 : Board) : ({ s with board := y0 } : State).genState = s.genState := rfl
theorem State.with_board_genSeed (y0 : Board) : ({ s with board := y0 } : State).genSeed = s.genSeed := rfl
theorem State.with_board_canaries (y0 : Board) : ({ s with board := y0 } : State).canaries = s.canaries := rfl
theorem State.with_board_canaryNext (y0 : Board) : ({ s with board := y0 } : State).canaryNext = s.canaryNext := rfl
theorem State.with_board_canaryCycle (y0 : Board) : ({ s with board := y0 } : State).canaryCycle = s.canaryCycle := rfl
theorem State.with_board_transientTimes (y0 : Board) : ({ s with board := y0 } : State).transientTimes = s.transientTimes := rfl
theorem State.with_board_reports (y0 : Board) : ({ s with board := y0 } : State).reports = s.reports := rfl
theorem State.with_board_reportCount (y0 : Board) : ({ s with board := y0 } : State).reportCount = s.reportCount := rfl
theorem State.with_board_log (y0 : Board) : ({ s with board := y0 } : State).log = s.log := rfl
theorem State.with_board_retireFlash (y0 : Board) : ({ s with board := y0 } : State).retireFlash = s.retireFlash := rfl
theorem State.with_board_retirePend (y0 : Board) : ({ s with board := y0 } : State).retirePend = s.retirePend := rfl
theorem State.with_board_softRepair (y0 : Board) : ({ s with board := y0 } : State).softRepair = s.softRepair := rfl
theorem State.with_board_resets (y0 : Board) : ({ s with board := y0 } : State).resets = s.resets := rfl
theorem State.with_board_firstBoot (y0 : Board) : ({ s with board := y0 } : State).firstBoot = s.firstBoot := rfl
theorem State.with_board_flash (y0 : Board) : ({ s with board := y0 } : State).flash = s.flash := rfl
theorem State.with_board_up (y0 : Board) : ({ s with board := y0 } : State).up = s.up := rfl
theorem State.with_board_onAt (y0 : Board) : ({ s with board := y0 } : State).onAt = s.onAt := rfl
theorem State.with_board_heldLoad (y0 : Board) : ({ s with board := y0 } : State).heldLoad = s.heldLoad := rfl
theorem State.with_board_bootAt (y0 : Board) : ({ s with board := y0 } : State).bootAt = s.bootAt := rfl
theorem State.with_board_testDue (y0 : Board) : ({ s with board := y0 } : State).testDue = s.testDue := rfl
theorem State.with_board_lifeBase (y0 : Board) : ({ s with board := y0 } : State).lifeBase = s.lifeBase := rfl
theorem State.with_board_secBase (y0 : Board) : ({ s with board := y0 } : State).secBase = s.secBase := rfl
theorem State.with_board_resetWaits (y0 : Board) : ({ s with board := y0 } : State).resetWaits = s.resetWaits := rfl
theorem State.with_board_fw (y0 : Board) : ({ s with board := y0 } : State).fw = s.fw := rfl
theorem State.with_board_fwWritten (y0 : Board) : ({ s with board := y0 } : State).fwWritten = s.fwWritten := rfl
theorem State.with_board_fwFresh (y0 : Board) : ({ s with board := y0 } : State).fwFresh = s.fwFresh := rfl
theorem State.with_board_mboxStage (y0 : Board) : ({ s with board := y0 } : State).mboxStage = s.mboxStage := rfl
theorem State.with_board_act (y0 : Board) : ({ s with board := y0 } : State).act = s.act := rfl
theorem State.with_board_roll (y0 : Board) : ({ s with board := y0 } : State).roll = s.roll := rfl
theorem State.with_board_mpRestart (y0 : Board) : ({ s with board := y0 } : State).mpRestart = s.mpRestart := rfl
theorem State.with_board_pldm (y0 : Board) : ({ s with board := y0 } : State).pldm = s.pldm := rfl
theorem State.with_board_spdm (y0 : Board) : ({ s with board := y0 } : State).spdm = s.spdm := rfl
theorem State.with_board_sessions (y0 : Board) : ({ s with board := y0 } : State).sessions = s.sessions := rfl
theorem State.with_board_sessionNext (y0 : Board) : ({ s with board := y0 } : State).sessionNext = s.sessionNext := rfl
theorem State.with_board_signatures (y0 : Board) : ({ s with board := y0 } : State).signatures = s.signatures := rfl
theorem State.with_board_mgmt (y0 : Board) : ({ s with board := y0 } : State).mgmt = s.mgmt := rfl
theorem State.with_board_fuses (y0 : Board) : ({ s with board := y0 } : State).fuses = s.fuses := rfl
theorem State.with_board_spares (y0 : Board) : ({ s with board := y0 } : State).spares = s.spares := rfl
theorem State.with_board_freeCtr (y0 : Board) : ({ s with board := y0 } : State).freeCtr = s.freeCtr := rfl
theorem State.with_board_pending (y0 : Board) : ({ s with board := y0 } : State).pending = s.pending := rfl

/-! ## setReg -/

@[simp] theorem State.setReg_mem : (s.setReg r i v).mem = s.mem := State.with_regs_mem s _
@[simp] theorem State.setReg_bufs : (s.setReg r i v).bufs = s.bufs := State.with_regs_bufs s _
@[simp] theorem State.setReg_ft : (s.setReg r i v).ft = s.ft := State.with_regs_ft s _
@[simp] theorem State.setReg_skew : (s.setReg r i v).skew = s.skew := State.with_regs_skew s _
@[simp] theorem State.setReg_queues : (s.setReg r i v).queues = s.queues := State.with_regs_queues s _
@[simp] theorem State.setReg_nextId : (s.setReg r i v).nextId = s.nextId := State.with_regs_nextId s _
@[simp] theorem State.setReg_adds : (s.setReg r i v).adds = s.adds := State.with_regs_adds s _
@[simp] theorem State.setReg_markStamp : (s.setReg r i v).markStamp = s.markStamp := State.with_regs_markStamp s _
@[simp] theorem State.setReg_tallies : (s.setReg r i v).tallies = s.tallies := State.with_regs_tallies s _
@[simp] theorem State.setReg_msgNext : (s.setReg r i v).msgNext = s.msgNext := State.with_regs_msgNext s _
@[simp] theorem State.setReg_seqs : (s.setReg r i v).seqs = s.seqs := State.with_regs_seqs s _
@[simp] theorem State.setReg_rings : (s.setReg r i v).rings = s.rings := State.with_regs_rings s _
@[simp] theorem State.setReg_ringWaits : (s.setReg r i v).ringWaits = s.ringWaits := State.with_regs_ringWaits s _
@[simp] theorem State.setReg_ringResets : (s.setReg r i v).ringResets = s.ringResets := State.with_regs_ringResets s _
@[simp] theorem State.setReg_gangs : (s.setReg r i v).gangs = s.gangs := State.with_regs_gangs s _
@[simp] theorem State.setReg_launches : (s.setReg r i v).launches = s.launches := State.with_regs_launches s _
@[simp] theorem State.setReg_icache : (s.setReg r i v).icache = s.icache := State.with_regs_icache s _
@[simp] theorem State.setReg_ifills : (s.setReg r i v).ifills = s.ifills := State.with_regs_ifills s _
@[simp] theorem State.setReg_upd : (s.setReg r i v).upd = s.upd := State.with_regs_upd s _
@[simp] theorem State.setReg_updPend : (s.setReg r i v).updPend = s.updPend := State.with_regs_updPend s _
@[simp] theorem State.setReg_ctxs : (s.setReg r i v).ctxs = s.ctxs := State.with_regs_ctxs s _
@[simp] theorem State.setReg_seqSlots : (s.setReg r i v).seqSlots = s.seqSlots := State.with_regs_seqSlots s _
@[simp] theorem State.setReg_tlb : (s.setReg r i v).tlb = s.tlb := State.with_regs_tlb s _
@[simp] theorem State.setReg_xltInv : (s.setReg r i v).xltInv = s.xltInv := State.with_regs_xltInv s _
@[simp] theorem State.setReg_rdc : (s.setReg r i v).rdc = s.rdc := State.with_regs_rdc s _
@[simp] theorem State.setReg_rdcFills : (s.setReg r i v).rdcFills = s.rdcFills := State.with_regs_rdcFills s _
@[simp] theorem State.setReg_scrubHits : (s.setReg r i v).scrubHits = s.scrubHits := State.with_regs_scrubHits s _
@[simp] theorem State.setReg_carry : (s.setReg r i v).carry = s.carry := State.with_regs_carry s _
@[simp] theorem State.setReg_active : (s.setReg r i v).active = s.active := State.with_regs_active s _
@[simp] theorem State.setReg_roles : (s.setReg r i v).roles = s.roles := State.with_regs_roles s _
@[simp] theorem State.setReg_standby : (s.setReg r i v).standby = s.standby := State.with_regs_standby s _
@[simp] theorem State.setReg_swap : (s.setReg r i v).swap = s.swap := State.with_regs_swap s _
@[simp] theorem State.setReg_msix : (s.setReg r i v).msix = s.msix := State.with_regs_msix s _
@[simp] theorem State.setReg_msixPend : (s.setReg r i v).msixPend = s.msixPend := State.with_regs_msixPend s _
@[simp] theorem State.setReg_sent : (s.setReg r i v).sent = s.sent := State.with_regs_sent s _
@[simp] theorem State.setReg_load : (s.setReg r i v).load = s.load := State.with_regs_load s _
@[simp] theorem State.setReg_repairs : (s.setReg r i v).repairs = s.repairs := State.with_regs_repairs s _
@[simp] theorem State.setReg_sinceLoad : (s.setReg r i v).sinceLoad = s.sinceLoad := State.with_regs_sinceLoad s _
@[simp] theorem State.setReg_net : (s.setReg r i v).net = s.net := State.with_regs_net s _
@[simp] theorem State.setReg_clu : (s.setReg r i v).clu = s.clu := State.with_regs_clu s _
@[simp] theorem State.setReg_frameFails : (s.setReg r i v).frameFails = s.frameFails := State.with_regs_frameFails s _
@[simp] theorem State.setReg_nextShift : (s.setReg r i v).nextShift = s.nextShift := State.with_regs_nextShift s _
@[simp] theorem State.setReg_phaseOn : (s.setReg r i v).phaseOn = s.phaseOn := State.with_regs_phaseOn s _
@[simp] theorem State.setReg_plan : (s.setReg r i v).plan = s.plan := State.with_regs_plan s _
@[simp] theorem State.setReg_deputies : (s.setReg r i v).deputies = s.deputies := State.with_regs_deputies s _
@[simp] theorem State.setReg_transitHold : (s.setReg r i v).transitHold = s.transitHold := State.with_regs_transitHold s _
@[simp] theorem State.setReg_schedAt : (s.setReg r i v).schedAt = s.schedAt := State.with_regs_schedAt s _
@[simp] theorem State.setReg_schedPrev : (s.setReg r i v).schedPrev = s.schedPrev := State.with_regs_schedPrev s _
@[simp] theorem State.setReg_pps : (s.setReg r i v).pps = s.pps := State.with_regs_pps s _
@[simp] theorem State.setReg_syncAt : (s.setReg r i v).syncAt = s.syncAt := State.with_regs_syncAt s _
@[simp] theorem State.setReg_slackRuns : (s.setReg r i v).slackRuns = s.slackRuns := State.with_regs_slackRuns s _
@[simp] theorem State.setReg_slacks : (s.setReg r i v).slacks = s.slacks := State.with_regs_slacks s _
@[simp] theorem State.setReg_bulk : (s.setReg r i v).bulk = s.bulk := State.with_regs_bulk s _
@[simp] theorem State.setReg_bulkSeq : (s.setReg r i v).bulkSeq = s.bulkSeq := State.with_regs_bulkSeq s _
@[simp] theorem State.setReg_netWant : (s.setReg r i v).netWant = s.netWant := State.with_regs_netWant s _
@[simp] theorem State.setReg_ports : (s.setReg r i v).ports = s.ports := State.with_regs_ports s _
@[simp] theorem State.setReg_wire : (s.setReg r i v).wire = s.wire := State.with_regs_wire s _
@[simp] theorem State.setReg_lsdb : (s.setReg r i v).lsdb = s.lsdb := State.with_regs_lsdb s _
@[simp] theorem State.setReg_lsaSeq : (s.setReg r i v).lsaSeq = s.lsaSeq := State.with_regs_lsaSeq s _
@[simp] theorem State.setReg_lsaAt : (s.setReg r i v).lsaAt = s.lsaAt := State.with_regs_lsaAt s _
@[simp] theorem State.setReg_certs : (s.setReg r i v).certs = s.certs := State.with_regs_certs s _
@[simp] theorem State.setReg_bookAt : (s.setReg r i v).bookAt = s.bookAt := State.with_regs_bookAt s _
@[simp] theorem State.setReg_taken : (s.setReg r i v).taken = s.taken := State.with_regs_taken s _
@[simp] theorem State.setReg_xferNext : (s.setReg r i v).xferNext = s.xferNext := State.with_regs_xferNext s _
@[simp] theorem State.setReg_offers : (s.setReg r i v).offers = s.offers := State.with_regs_offers s _
@[simp] theorem State.setReg_transfers : (s.setReg r i v).transfers = s.transfers := State.with_regs_transfers s _
@[simp] theorem State.setReg_xferEnds : (s.setReg r i v).xferEnds = s.xferEnds := State.with_regs_xferEnds s _
@[simp] theorem State.setReg_incoming : (s.setReg r i v).incoming = s.incoming := State.with_regs_incoming s _
@[simp] theorem State.setReg_offerNext : (s.setReg r i v).offerNext = s.offerNext := State.with_regs_offerNext s _
@[simp] theorem State.setReg_elect : (s.setReg r i v).elect = s.elect := State.with_regs_elect s _
@[simp] theorem State.setReg_lands : (s.setReg r i v).lands = s.lands := State.with_regs_lands s _
@[simp] theorem State.setReg_colls : (s.setReg r i v).colls = s.colls := State.with_regs_colls s _
@[simp] theorem State.setReg_lamps : (s.setReg r i v).lamps = s.lamps := State.with_regs_lamps s _
@[simp] theorem State.setReg_tracked : (s.setReg r i v).tracked = s.tracked := State.with_regs_tracked s _
@[simp] theorem State.setReg_snoops : (s.setReg r i v).snoops = s.snoops := State.with_regs_snoops s _
@[simp] theorem State.setReg_snoopDead : (s.setReg r i v).snoopDead = s.snoopDead := State.with_regs_snoopDead s _
@[simp] theorem State.setReg_reply : (s.setReg r i v).reply = s.reply := State.with_regs_reply s _
@[simp] theorem State.setReg_mbox : (s.setReg r i v).mbox = s.mbox := State.with_regs_mbox s _
@[simp] theorem State.setReg_hdmBase : (s.setReg r i v).hdmBase = s.hdmBase := State.with_regs_hdmBase s _
@[simp] theorem State.setReg_ideKeys : (s.setReg r i v).ideKeys = s.ideKeys := State.with_regs_ideKeys s _
@[simp] theorem State.setReg_power : (s.setReg r i v).power = s.power := State.with_regs_power s _
@[simp] theorem State.setReg_samples : (s.setReg r i v).samples = s.samples := State.with_regs_samples s _
@[simp] theorem State.setReg_genState : (s.setReg r i v).genState = s.genState := State.with_regs_genState s _
@[simp] theorem State.setReg_genSeed : (s.setReg r i v).genSeed = s.genSeed := State.with_regs_genSeed s _
@[simp] theorem State.setReg_canaries : (s.setReg r i v).canaries = s.canaries := State.with_regs_canaries s _
@[simp] theorem State.setReg_canaryNext : (s.setReg r i v).canaryNext = s.canaryNext := State.with_regs_canaryNext s _
@[simp] theorem State.setReg_canaryCycle : (s.setReg r i v).canaryCycle = s.canaryCycle := State.with_regs_canaryCycle s _
@[simp] theorem State.setReg_transientTimes : (s.setReg r i v).transientTimes = s.transientTimes := State.with_regs_transientTimes s _
@[simp] theorem State.setReg_reports : (s.setReg r i v).reports = s.reports := State.with_regs_reports s _
@[simp] theorem State.setReg_reportCount : (s.setReg r i v).reportCount = s.reportCount := State.with_regs_reportCount s _
@[simp] theorem State.setReg_log : (s.setReg r i v).log = s.log := State.with_regs_log s _
@[simp] theorem State.setReg_retireFlash : (s.setReg r i v).retireFlash = s.retireFlash := State.with_regs_retireFlash s _
@[simp] theorem State.setReg_retirePend : (s.setReg r i v).retirePend = s.retirePend := State.with_regs_retirePend s _
@[simp] theorem State.setReg_softRepair : (s.setReg r i v).softRepair = s.softRepair := State.with_regs_softRepair s _
@[simp] theorem State.setReg_resets : (s.setReg r i v).resets = s.resets := State.with_regs_resets s _
@[simp] theorem State.setReg_board : (s.setReg r i v).board = s.board := State.with_regs_board s _
@[simp] theorem State.setReg_firstBoot : (s.setReg r i v).firstBoot = s.firstBoot := State.with_regs_firstBoot s _
@[simp] theorem State.setReg_flash : (s.setReg r i v).flash = s.flash := State.with_regs_flash s _
@[simp] theorem State.setReg_up : (s.setReg r i v).up = s.up := State.with_regs_up s _
@[simp] theorem State.setReg_onAt : (s.setReg r i v).onAt = s.onAt := State.with_regs_onAt s _
@[simp] theorem State.setReg_heldLoad : (s.setReg r i v).heldLoad = s.heldLoad := State.with_regs_heldLoad s _
@[simp] theorem State.setReg_bootAt : (s.setReg r i v).bootAt = s.bootAt := State.with_regs_bootAt s _
@[simp] theorem State.setReg_testDue : (s.setReg r i v).testDue = s.testDue := State.with_regs_testDue s _
@[simp] theorem State.setReg_lifeBase : (s.setReg r i v).lifeBase = s.lifeBase := State.with_regs_lifeBase s _
@[simp] theorem State.setReg_secBase : (s.setReg r i v).secBase = s.secBase := State.with_regs_secBase s _
@[simp] theorem State.setReg_resetWaits : (s.setReg r i v).resetWaits = s.resetWaits := State.with_regs_resetWaits s _
@[simp] theorem State.setReg_fw : (s.setReg r i v).fw = s.fw := State.with_regs_fw s _
@[simp] theorem State.setReg_fwWritten : (s.setReg r i v).fwWritten = s.fwWritten := State.with_regs_fwWritten s _
@[simp] theorem State.setReg_fwFresh : (s.setReg r i v).fwFresh = s.fwFresh := State.with_regs_fwFresh s _
@[simp] theorem State.setReg_mboxStage : (s.setReg r i v).mboxStage = s.mboxStage := State.with_regs_mboxStage s _
@[simp] theorem State.setReg_act : (s.setReg r i v).act = s.act := State.with_regs_act s _
@[simp] theorem State.setReg_roll : (s.setReg r i v).roll = s.roll := State.with_regs_roll s _
@[simp] theorem State.setReg_mpRestart : (s.setReg r i v).mpRestart = s.mpRestart := State.with_regs_mpRestart s _
@[simp] theorem State.setReg_pldm : (s.setReg r i v).pldm = s.pldm := State.with_regs_pldm s _
@[simp] theorem State.setReg_spdm : (s.setReg r i v).spdm = s.spdm := State.with_regs_spdm s _
@[simp] theorem State.setReg_sessions : (s.setReg r i v).sessions = s.sessions := State.with_regs_sessions s _
@[simp] theorem State.setReg_sessionNext : (s.setReg r i v).sessionNext = s.sessionNext := State.with_regs_sessionNext s _
@[simp] theorem State.setReg_signatures : (s.setReg r i v).signatures = s.signatures := State.with_regs_signatures s _
@[simp] theorem State.setReg_mgmt : (s.setReg r i v).mgmt = s.mgmt := State.with_regs_mgmt s _
@[simp] theorem State.setReg_fuses : (s.setReg r i v).fuses = s.fuses := State.with_regs_fuses s _
@[simp] theorem State.setReg_spares : (s.setReg r i v).spares = s.spares := State.with_regs_spares s _
@[simp] theorem State.setReg_freeCtr : (s.setReg r i v).freeCtr = s.freeCtr := State.with_regs_freeCtr s _
@[simp] theorem State.setReg_pending : (s.setReg r i v).pending = s.pending := State.with_regs_pending s _

/-! ## wr -/

@[simp] theorem State.wr_mem : (s.wr f i v).mem = s.mem := State.setReg_mem s _ _ _
@[simp] theorem State.wr_bufs : (s.wr f i v).bufs = s.bufs := State.setReg_bufs s _ _ _
@[simp] theorem State.wr_ft : (s.wr f i v).ft = s.ft := State.setReg_ft s _ _ _
@[simp] theorem State.wr_skew : (s.wr f i v).skew = s.skew := State.setReg_skew s _ _ _
@[simp] theorem State.wr_queues : (s.wr f i v).queues = s.queues := State.setReg_queues s _ _ _
@[simp] theorem State.wr_nextId : (s.wr f i v).nextId = s.nextId := State.setReg_nextId s _ _ _
@[simp] theorem State.wr_adds : (s.wr f i v).adds = s.adds := State.setReg_adds s _ _ _
@[simp] theorem State.wr_markStamp : (s.wr f i v).markStamp = s.markStamp := State.setReg_markStamp s _ _ _
@[simp] theorem State.wr_tallies : (s.wr f i v).tallies = s.tallies := State.setReg_tallies s _ _ _
@[simp] theorem State.wr_msgNext : (s.wr f i v).msgNext = s.msgNext := State.setReg_msgNext s _ _ _
@[simp] theorem State.wr_seqs : (s.wr f i v).seqs = s.seqs := State.setReg_seqs s _ _ _
@[simp] theorem State.wr_rings : (s.wr f i v).rings = s.rings := State.setReg_rings s _ _ _
@[simp] theorem State.wr_ringWaits : (s.wr f i v).ringWaits = s.ringWaits := State.setReg_ringWaits s _ _ _
@[simp] theorem State.wr_ringResets : (s.wr f i v).ringResets = s.ringResets := State.setReg_ringResets s _ _ _
@[simp] theorem State.wr_gangs : (s.wr f i v).gangs = s.gangs := State.setReg_gangs s _ _ _
@[simp] theorem State.wr_launches : (s.wr f i v).launches = s.launches := State.setReg_launches s _ _ _
@[simp] theorem State.wr_icache : (s.wr f i v).icache = s.icache := State.setReg_icache s _ _ _
@[simp] theorem State.wr_ifills : (s.wr f i v).ifills = s.ifills := State.setReg_ifills s _ _ _
@[simp] theorem State.wr_upd : (s.wr f i v).upd = s.upd := State.setReg_upd s _ _ _
@[simp] theorem State.wr_updPend : (s.wr f i v).updPend = s.updPend := State.setReg_updPend s _ _ _
@[simp] theorem State.wr_ctxs : (s.wr f i v).ctxs = s.ctxs := State.setReg_ctxs s _ _ _
@[simp] theorem State.wr_seqSlots : (s.wr f i v).seqSlots = s.seqSlots := State.setReg_seqSlots s _ _ _
@[simp] theorem State.wr_tlb : (s.wr f i v).tlb = s.tlb := State.setReg_tlb s _ _ _
@[simp] theorem State.wr_xltInv : (s.wr f i v).xltInv = s.xltInv := State.setReg_xltInv s _ _ _
@[simp] theorem State.wr_rdc : (s.wr f i v).rdc = s.rdc := State.setReg_rdc s _ _ _
@[simp] theorem State.wr_rdcFills : (s.wr f i v).rdcFills = s.rdcFills := State.setReg_rdcFills s _ _ _
@[simp] theorem State.wr_scrubHits : (s.wr f i v).scrubHits = s.scrubHits := State.setReg_scrubHits s _ _ _
@[simp] theorem State.wr_carry : (s.wr f i v).carry = s.carry := State.setReg_carry s _ _ _
@[simp] theorem State.wr_active : (s.wr f i v).active = s.active := State.setReg_active s _ _ _
@[simp] theorem State.wr_roles : (s.wr f i v).roles = s.roles := State.setReg_roles s _ _ _
@[simp] theorem State.wr_standby : (s.wr f i v).standby = s.standby := State.setReg_standby s _ _ _
@[simp] theorem State.wr_swap : (s.wr f i v).swap = s.swap := State.setReg_swap s _ _ _
@[simp] theorem State.wr_msix : (s.wr f i v).msix = s.msix := State.setReg_msix s _ _ _
@[simp] theorem State.wr_msixPend : (s.wr f i v).msixPend = s.msixPend := State.setReg_msixPend s _ _ _
@[simp] theorem State.wr_sent : (s.wr f i v).sent = s.sent := State.setReg_sent s _ _ _
@[simp] theorem State.wr_load : (s.wr f i v).load = s.load := State.setReg_load s _ _ _
@[simp] theorem State.wr_repairs : (s.wr f i v).repairs = s.repairs := State.setReg_repairs s _ _ _
@[simp] theorem State.wr_sinceLoad : (s.wr f i v).sinceLoad = s.sinceLoad := State.setReg_sinceLoad s _ _ _
@[simp] theorem State.wr_net : (s.wr f i v).net = s.net := State.setReg_net s _ _ _
@[simp] theorem State.wr_clu : (s.wr f i v).clu = s.clu := State.setReg_clu s _ _ _
@[simp] theorem State.wr_frameFails : (s.wr f i v).frameFails = s.frameFails := State.setReg_frameFails s _ _ _
@[simp] theorem State.wr_nextShift : (s.wr f i v).nextShift = s.nextShift := State.setReg_nextShift s _ _ _
@[simp] theorem State.wr_phaseOn : (s.wr f i v).phaseOn = s.phaseOn := State.setReg_phaseOn s _ _ _
@[simp] theorem State.wr_plan : (s.wr f i v).plan = s.plan := State.setReg_plan s _ _ _
@[simp] theorem State.wr_deputies : (s.wr f i v).deputies = s.deputies := State.setReg_deputies s _ _ _
@[simp] theorem State.wr_transitHold : (s.wr f i v).transitHold = s.transitHold := State.setReg_transitHold s _ _ _
@[simp] theorem State.wr_schedAt : (s.wr f i v).schedAt = s.schedAt := State.setReg_schedAt s _ _ _
@[simp] theorem State.wr_schedPrev : (s.wr f i v).schedPrev = s.schedPrev := State.setReg_schedPrev s _ _ _
@[simp] theorem State.wr_pps : (s.wr f i v).pps = s.pps := State.setReg_pps s _ _ _
@[simp] theorem State.wr_syncAt : (s.wr f i v).syncAt = s.syncAt := State.setReg_syncAt s _ _ _
@[simp] theorem State.wr_slackRuns : (s.wr f i v).slackRuns = s.slackRuns := State.setReg_slackRuns s _ _ _
@[simp] theorem State.wr_slacks : (s.wr f i v).slacks = s.slacks := State.setReg_slacks s _ _ _
@[simp] theorem State.wr_bulk : (s.wr f i v).bulk = s.bulk := State.setReg_bulk s _ _ _
@[simp] theorem State.wr_bulkSeq : (s.wr f i v).bulkSeq = s.bulkSeq := State.setReg_bulkSeq s _ _ _
@[simp] theorem State.wr_netWant : (s.wr f i v).netWant = s.netWant := State.setReg_netWant s _ _ _
@[simp] theorem State.wr_ports : (s.wr f i v).ports = s.ports := State.setReg_ports s _ _ _
@[simp] theorem State.wr_wire : (s.wr f i v).wire = s.wire := State.setReg_wire s _ _ _
@[simp] theorem State.wr_lsdb : (s.wr f i v).lsdb = s.lsdb := State.setReg_lsdb s _ _ _
@[simp] theorem State.wr_lsaSeq : (s.wr f i v).lsaSeq = s.lsaSeq := State.setReg_lsaSeq s _ _ _
@[simp] theorem State.wr_lsaAt : (s.wr f i v).lsaAt = s.lsaAt := State.setReg_lsaAt s _ _ _
@[simp] theorem State.wr_certs : (s.wr f i v).certs = s.certs := State.setReg_certs s _ _ _
@[simp] theorem State.wr_bookAt : (s.wr f i v).bookAt = s.bookAt := State.setReg_bookAt s _ _ _
@[simp] theorem State.wr_taken : (s.wr f i v).taken = s.taken := State.setReg_taken s _ _ _
@[simp] theorem State.wr_xferNext : (s.wr f i v).xferNext = s.xferNext := State.setReg_xferNext s _ _ _
@[simp] theorem State.wr_offers : (s.wr f i v).offers = s.offers := State.setReg_offers s _ _ _
@[simp] theorem State.wr_transfers : (s.wr f i v).transfers = s.transfers := State.setReg_transfers s _ _ _
@[simp] theorem State.wr_xferEnds : (s.wr f i v).xferEnds = s.xferEnds := State.setReg_xferEnds s _ _ _
@[simp] theorem State.wr_incoming : (s.wr f i v).incoming = s.incoming := State.setReg_incoming s _ _ _
@[simp] theorem State.wr_offerNext : (s.wr f i v).offerNext = s.offerNext := State.setReg_offerNext s _ _ _
@[simp] theorem State.wr_elect : (s.wr f i v).elect = s.elect := State.setReg_elect s _ _ _
@[simp] theorem State.wr_lands : (s.wr f i v).lands = s.lands := State.setReg_lands s _ _ _
@[simp] theorem State.wr_colls : (s.wr f i v).colls = s.colls := State.setReg_colls s _ _ _
@[simp] theorem State.wr_lamps : (s.wr f i v).lamps = s.lamps := State.setReg_lamps s _ _ _
@[simp] theorem State.wr_tracked : (s.wr f i v).tracked = s.tracked := State.setReg_tracked s _ _ _
@[simp] theorem State.wr_snoops : (s.wr f i v).snoops = s.snoops := State.setReg_snoops s _ _ _
@[simp] theorem State.wr_snoopDead : (s.wr f i v).snoopDead = s.snoopDead := State.setReg_snoopDead s _ _ _
@[simp] theorem State.wr_reply : (s.wr f i v).reply = s.reply := State.setReg_reply s _ _ _
@[simp] theorem State.wr_mbox : (s.wr f i v).mbox = s.mbox := State.setReg_mbox s _ _ _
@[simp] theorem State.wr_hdmBase : (s.wr f i v).hdmBase = s.hdmBase := State.setReg_hdmBase s _ _ _
@[simp] theorem State.wr_ideKeys : (s.wr f i v).ideKeys = s.ideKeys := State.setReg_ideKeys s _ _ _
@[simp] theorem State.wr_power : (s.wr f i v).power = s.power := State.setReg_power s _ _ _
@[simp] theorem State.wr_samples : (s.wr f i v).samples = s.samples := State.setReg_samples s _ _ _
@[simp] theorem State.wr_genState : (s.wr f i v).genState = s.genState := State.setReg_genState s _ _ _
@[simp] theorem State.wr_genSeed : (s.wr f i v).genSeed = s.genSeed := State.setReg_genSeed s _ _ _
@[simp] theorem State.wr_canaries : (s.wr f i v).canaries = s.canaries := State.setReg_canaries s _ _ _
@[simp] theorem State.wr_canaryNext : (s.wr f i v).canaryNext = s.canaryNext := State.setReg_canaryNext s _ _ _
@[simp] theorem State.wr_canaryCycle : (s.wr f i v).canaryCycle = s.canaryCycle := State.setReg_canaryCycle s _ _ _
@[simp] theorem State.wr_transientTimes : (s.wr f i v).transientTimes = s.transientTimes := State.setReg_transientTimes s _ _ _
@[simp] theorem State.wr_reports : (s.wr f i v).reports = s.reports := State.setReg_reports s _ _ _
@[simp] theorem State.wr_reportCount : (s.wr f i v).reportCount = s.reportCount := State.setReg_reportCount s _ _ _
@[simp] theorem State.wr_log : (s.wr f i v).log = s.log := State.setReg_log s _ _ _
@[simp] theorem State.wr_retireFlash : (s.wr f i v).retireFlash = s.retireFlash := State.setReg_retireFlash s _ _ _
@[simp] theorem State.wr_retirePend : (s.wr f i v).retirePend = s.retirePend := State.setReg_retirePend s _ _ _
@[simp] theorem State.wr_softRepair : (s.wr f i v).softRepair = s.softRepair := State.setReg_softRepair s _ _ _
@[simp] theorem State.wr_resets : (s.wr f i v).resets = s.resets := State.setReg_resets s _ _ _
@[simp] theorem State.wr_board : (s.wr f i v).board = s.board := State.setReg_board s _ _ _
@[simp] theorem State.wr_firstBoot : (s.wr f i v).firstBoot = s.firstBoot := State.setReg_firstBoot s _ _ _
@[simp] theorem State.wr_flash : (s.wr f i v).flash = s.flash := State.setReg_flash s _ _ _
@[simp] theorem State.wr_up : (s.wr f i v).up = s.up := State.setReg_up s _ _ _
@[simp] theorem State.wr_onAt : (s.wr f i v).onAt = s.onAt := State.setReg_onAt s _ _ _
@[simp] theorem State.wr_heldLoad : (s.wr f i v).heldLoad = s.heldLoad := State.setReg_heldLoad s _ _ _
@[simp] theorem State.wr_bootAt : (s.wr f i v).bootAt = s.bootAt := State.setReg_bootAt s _ _ _
@[simp] theorem State.wr_testDue : (s.wr f i v).testDue = s.testDue := State.setReg_testDue s _ _ _
@[simp] theorem State.wr_lifeBase : (s.wr f i v).lifeBase = s.lifeBase := State.setReg_lifeBase s _ _ _
@[simp] theorem State.wr_secBase : (s.wr f i v).secBase = s.secBase := State.setReg_secBase s _ _ _
@[simp] theorem State.wr_resetWaits : (s.wr f i v).resetWaits = s.resetWaits := State.setReg_resetWaits s _ _ _
@[simp] theorem State.wr_fw : (s.wr f i v).fw = s.fw := State.setReg_fw s _ _ _
@[simp] theorem State.wr_fwWritten : (s.wr f i v).fwWritten = s.fwWritten := State.setReg_fwWritten s _ _ _
@[simp] theorem State.wr_fwFresh : (s.wr f i v).fwFresh = s.fwFresh := State.setReg_fwFresh s _ _ _
@[simp] theorem State.wr_mboxStage : (s.wr f i v).mboxStage = s.mboxStage := State.setReg_mboxStage s _ _ _
@[simp] theorem State.wr_act : (s.wr f i v).act = s.act := State.setReg_act s _ _ _
@[simp] theorem State.wr_roll : (s.wr f i v).roll = s.roll := State.setReg_roll s _ _ _
@[simp] theorem State.wr_mpRestart : (s.wr f i v).mpRestart = s.mpRestart := State.setReg_mpRestart s _ _ _
@[simp] theorem State.wr_pldm : (s.wr f i v).pldm = s.pldm := State.setReg_pldm s _ _ _
@[simp] theorem State.wr_spdm : (s.wr f i v).spdm = s.spdm := State.setReg_spdm s _ _ _
@[simp] theorem State.wr_sessions : (s.wr f i v).sessions = s.sessions := State.setReg_sessions s _ _ _
@[simp] theorem State.wr_sessionNext : (s.wr f i v).sessionNext = s.sessionNext := State.setReg_sessionNext s _ _ _
@[simp] theorem State.wr_signatures : (s.wr f i v).signatures = s.signatures := State.setReg_signatures s _ _ _
@[simp] theorem State.wr_mgmt : (s.wr f i v).mgmt = s.mgmt := State.setReg_mgmt s _ _ _
@[simp] theorem State.wr_fuses : (s.wr f i v).fuses = s.fuses := State.setReg_fuses s _ _ _
@[simp] theorem State.wr_spares : (s.wr f i v).spares = s.spares := State.setReg_spares s _ _ _
@[simp] theorem State.wr_freeCtr : (s.wr f i v).freeCtr = s.freeCtr := State.setReg_freeCtr s _ _ _
@[simp] theorem State.wr_pending : (s.wr f i v).pending = s.pending := State.setReg_pending s _ _ _

/-! ## inc -/

@[simp] theorem State.inc_mem : (s.inc f i d).mem = s.mem := State.setReg_mem s _ _ _
@[simp] theorem State.inc_bufs : (s.inc f i d).bufs = s.bufs := State.setReg_bufs s _ _ _
@[simp] theorem State.inc_ft : (s.inc f i d).ft = s.ft := State.setReg_ft s _ _ _
@[simp] theorem State.inc_skew : (s.inc f i d).skew = s.skew := State.setReg_skew s _ _ _
@[simp] theorem State.inc_queues : (s.inc f i d).queues = s.queues := State.setReg_queues s _ _ _
@[simp] theorem State.inc_nextId : (s.inc f i d).nextId = s.nextId := State.setReg_nextId s _ _ _
@[simp] theorem State.inc_adds : (s.inc f i d).adds = s.adds := State.setReg_adds s _ _ _
@[simp] theorem State.inc_markStamp : (s.inc f i d).markStamp = s.markStamp := State.setReg_markStamp s _ _ _
@[simp] theorem State.inc_tallies : (s.inc f i d).tallies = s.tallies := State.setReg_tallies s _ _ _
@[simp] theorem State.inc_msgNext : (s.inc f i d).msgNext = s.msgNext := State.setReg_msgNext s _ _ _
@[simp] theorem State.inc_seqs : (s.inc f i d).seqs = s.seqs := State.setReg_seqs s _ _ _
@[simp] theorem State.inc_rings : (s.inc f i d).rings = s.rings := State.setReg_rings s _ _ _
@[simp] theorem State.inc_ringWaits : (s.inc f i d).ringWaits = s.ringWaits := State.setReg_ringWaits s _ _ _
@[simp] theorem State.inc_ringResets : (s.inc f i d).ringResets = s.ringResets := State.setReg_ringResets s _ _ _
@[simp] theorem State.inc_gangs : (s.inc f i d).gangs = s.gangs := State.setReg_gangs s _ _ _
@[simp] theorem State.inc_launches : (s.inc f i d).launches = s.launches := State.setReg_launches s _ _ _
@[simp] theorem State.inc_icache : (s.inc f i d).icache = s.icache := State.setReg_icache s _ _ _
@[simp] theorem State.inc_ifills : (s.inc f i d).ifills = s.ifills := State.setReg_ifills s _ _ _
@[simp] theorem State.inc_upd : (s.inc f i d).upd = s.upd := State.setReg_upd s _ _ _
@[simp] theorem State.inc_updPend : (s.inc f i d).updPend = s.updPend := State.setReg_updPend s _ _ _
@[simp] theorem State.inc_ctxs : (s.inc f i d).ctxs = s.ctxs := State.setReg_ctxs s _ _ _
@[simp] theorem State.inc_seqSlots : (s.inc f i d).seqSlots = s.seqSlots := State.setReg_seqSlots s _ _ _
@[simp] theorem State.inc_tlb : (s.inc f i d).tlb = s.tlb := State.setReg_tlb s _ _ _
@[simp] theorem State.inc_xltInv : (s.inc f i d).xltInv = s.xltInv := State.setReg_xltInv s _ _ _
@[simp] theorem State.inc_rdc : (s.inc f i d).rdc = s.rdc := State.setReg_rdc s _ _ _
@[simp] theorem State.inc_rdcFills : (s.inc f i d).rdcFills = s.rdcFills := State.setReg_rdcFills s _ _ _
@[simp] theorem State.inc_scrubHits : (s.inc f i d).scrubHits = s.scrubHits := State.setReg_scrubHits s _ _ _
@[simp] theorem State.inc_carry : (s.inc f i d).carry = s.carry := State.setReg_carry s _ _ _
@[simp] theorem State.inc_active : (s.inc f i d).active = s.active := State.setReg_active s _ _ _
@[simp] theorem State.inc_roles : (s.inc f i d).roles = s.roles := State.setReg_roles s _ _ _
@[simp] theorem State.inc_standby : (s.inc f i d).standby = s.standby := State.setReg_standby s _ _ _
@[simp] theorem State.inc_swap : (s.inc f i d).swap = s.swap := State.setReg_swap s _ _ _
@[simp] theorem State.inc_msix : (s.inc f i d).msix = s.msix := State.setReg_msix s _ _ _
@[simp] theorem State.inc_msixPend : (s.inc f i d).msixPend = s.msixPend := State.setReg_msixPend s _ _ _
@[simp] theorem State.inc_sent : (s.inc f i d).sent = s.sent := State.setReg_sent s _ _ _
@[simp] theorem State.inc_load : (s.inc f i d).load = s.load := State.setReg_load s _ _ _
@[simp] theorem State.inc_repairs : (s.inc f i d).repairs = s.repairs := State.setReg_repairs s _ _ _
@[simp] theorem State.inc_sinceLoad : (s.inc f i d).sinceLoad = s.sinceLoad := State.setReg_sinceLoad s _ _ _
@[simp] theorem State.inc_net : (s.inc f i d).net = s.net := State.setReg_net s _ _ _
@[simp] theorem State.inc_clu : (s.inc f i d).clu = s.clu := State.setReg_clu s _ _ _
@[simp] theorem State.inc_frameFails : (s.inc f i d).frameFails = s.frameFails := State.setReg_frameFails s _ _ _
@[simp] theorem State.inc_nextShift : (s.inc f i d).nextShift = s.nextShift := State.setReg_nextShift s _ _ _
@[simp] theorem State.inc_phaseOn : (s.inc f i d).phaseOn = s.phaseOn := State.setReg_phaseOn s _ _ _
@[simp] theorem State.inc_plan : (s.inc f i d).plan = s.plan := State.setReg_plan s _ _ _
@[simp] theorem State.inc_deputies : (s.inc f i d).deputies = s.deputies := State.setReg_deputies s _ _ _
@[simp] theorem State.inc_transitHold : (s.inc f i d).transitHold = s.transitHold := State.setReg_transitHold s _ _ _
@[simp] theorem State.inc_schedAt : (s.inc f i d).schedAt = s.schedAt := State.setReg_schedAt s _ _ _
@[simp] theorem State.inc_schedPrev : (s.inc f i d).schedPrev = s.schedPrev := State.setReg_schedPrev s _ _ _
@[simp] theorem State.inc_pps : (s.inc f i d).pps = s.pps := State.setReg_pps s _ _ _
@[simp] theorem State.inc_syncAt : (s.inc f i d).syncAt = s.syncAt := State.setReg_syncAt s _ _ _
@[simp] theorem State.inc_slackRuns : (s.inc f i d).slackRuns = s.slackRuns := State.setReg_slackRuns s _ _ _
@[simp] theorem State.inc_slacks : (s.inc f i d).slacks = s.slacks := State.setReg_slacks s _ _ _
@[simp] theorem State.inc_bulk : (s.inc f i d).bulk = s.bulk := State.setReg_bulk s _ _ _
@[simp] theorem State.inc_bulkSeq : (s.inc f i d).bulkSeq = s.bulkSeq := State.setReg_bulkSeq s _ _ _
@[simp] theorem State.inc_netWant : (s.inc f i d).netWant = s.netWant := State.setReg_netWant s _ _ _
@[simp] theorem State.inc_ports : (s.inc f i d).ports = s.ports := State.setReg_ports s _ _ _
@[simp] theorem State.inc_wire : (s.inc f i d).wire = s.wire := State.setReg_wire s _ _ _
@[simp] theorem State.inc_lsdb : (s.inc f i d).lsdb = s.lsdb := State.setReg_lsdb s _ _ _
@[simp] theorem State.inc_lsaSeq : (s.inc f i d).lsaSeq = s.lsaSeq := State.setReg_lsaSeq s _ _ _
@[simp] theorem State.inc_lsaAt : (s.inc f i d).lsaAt = s.lsaAt := State.setReg_lsaAt s _ _ _
@[simp] theorem State.inc_certs : (s.inc f i d).certs = s.certs := State.setReg_certs s _ _ _
@[simp] theorem State.inc_bookAt : (s.inc f i d).bookAt = s.bookAt := State.setReg_bookAt s _ _ _
@[simp] theorem State.inc_taken : (s.inc f i d).taken = s.taken := State.setReg_taken s _ _ _
@[simp] theorem State.inc_xferNext : (s.inc f i d).xferNext = s.xferNext := State.setReg_xferNext s _ _ _
@[simp] theorem State.inc_offers : (s.inc f i d).offers = s.offers := State.setReg_offers s _ _ _
@[simp] theorem State.inc_transfers : (s.inc f i d).transfers = s.transfers := State.setReg_transfers s _ _ _
@[simp] theorem State.inc_xferEnds : (s.inc f i d).xferEnds = s.xferEnds := State.setReg_xferEnds s _ _ _
@[simp] theorem State.inc_incoming : (s.inc f i d).incoming = s.incoming := State.setReg_incoming s _ _ _
@[simp] theorem State.inc_offerNext : (s.inc f i d).offerNext = s.offerNext := State.setReg_offerNext s _ _ _
@[simp] theorem State.inc_elect : (s.inc f i d).elect = s.elect := State.setReg_elect s _ _ _
@[simp] theorem State.inc_lands : (s.inc f i d).lands = s.lands := State.setReg_lands s _ _ _
@[simp] theorem State.inc_colls : (s.inc f i d).colls = s.colls := State.setReg_colls s _ _ _
@[simp] theorem State.inc_lamps : (s.inc f i d).lamps = s.lamps := State.setReg_lamps s _ _ _
@[simp] theorem State.inc_tracked : (s.inc f i d).tracked = s.tracked := State.setReg_tracked s _ _ _
@[simp] theorem State.inc_snoops : (s.inc f i d).snoops = s.snoops := State.setReg_snoops s _ _ _
@[simp] theorem State.inc_snoopDead : (s.inc f i d).snoopDead = s.snoopDead := State.setReg_snoopDead s _ _ _
@[simp] theorem State.inc_reply : (s.inc f i d).reply = s.reply := State.setReg_reply s _ _ _
@[simp] theorem State.inc_mbox : (s.inc f i d).mbox = s.mbox := State.setReg_mbox s _ _ _
@[simp] theorem State.inc_hdmBase : (s.inc f i d).hdmBase = s.hdmBase := State.setReg_hdmBase s _ _ _
@[simp] theorem State.inc_ideKeys : (s.inc f i d).ideKeys = s.ideKeys := State.setReg_ideKeys s _ _ _
@[simp] theorem State.inc_power : (s.inc f i d).power = s.power := State.setReg_power s _ _ _
@[simp] theorem State.inc_samples : (s.inc f i d).samples = s.samples := State.setReg_samples s _ _ _
@[simp] theorem State.inc_genState : (s.inc f i d).genState = s.genState := State.setReg_genState s _ _ _
@[simp] theorem State.inc_genSeed : (s.inc f i d).genSeed = s.genSeed := State.setReg_genSeed s _ _ _
@[simp] theorem State.inc_canaries : (s.inc f i d).canaries = s.canaries := State.setReg_canaries s _ _ _
@[simp] theorem State.inc_canaryNext : (s.inc f i d).canaryNext = s.canaryNext := State.setReg_canaryNext s _ _ _
@[simp] theorem State.inc_canaryCycle : (s.inc f i d).canaryCycle = s.canaryCycle := State.setReg_canaryCycle s _ _ _
@[simp] theorem State.inc_transientTimes : (s.inc f i d).transientTimes = s.transientTimes := State.setReg_transientTimes s _ _ _
@[simp] theorem State.inc_reports : (s.inc f i d).reports = s.reports := State.setReg_reports s _ _ _
@[simp] theorem State.inc_reportCount : (s.inc f i d).reportCount = s.reportCount := State.setReg_reportCount s _ _ _
@[simp] theorem State.inc_log : (s.inc f i d).log = s.log := State.setReg_log s _ _ _
@[simp] theorem State.inc_retireFlash : (s.inc f i d).retireFlash = s.retireFlash := State.setReg_retireFlash s _ _ _
@[simp] theorem State.inc_retirePend : (s.inc f i d).retirePend = s.retirePend := State.setReg_retirePend s _ _ _
@[simp] theorem State.inc_softRepair : (s.inc f i d).softRepair = s.softRepair := State.setReg_softRepair s _ _ _
@[simp] theorem State.inc_resets : (s.inc f i d).resets = s.resets := State.setReg_resets s _ _ _
@[simp] theorem State.inc_board : (s.inc f i d).board = s.board := State.setReg_board s _ _ _
@[simp] theorem State.inc_firstBoot : (s.inc f i d).firstBoot = s.firstBoot := State.setReg_firstBoot s _ _ _
@[simp] theorem State.inc_flash : (s.inc f i d).flash = s.flash := State.setReg_flash s _ _ _
@[simp] theorem State.inc_up : (s.inc f i d).up = s.up := State.setReg_up s _ _ _
@[simp] theorem State.inc_onAt : (s.inc f i d).onAt = s.onAt := State.setReg_onAt s _ _ _
@[simp] theorem State.inc_heldLoad : (s.inc f i d).heldLoad = s.heldLoad := State.setReg_heldLoad s _ _ _
@[simp] theorem State.inc_bootAt : (s.inc f i d).bootAt = s.bootAt := State.setReg_bootAt s _ _ _
@[simp] theorem State.inc_testDue : (s.inc f i d).testDue = s.testDue := State.setReg_testDue s _ _ _
@[simp] theorem State.inc_lifeBase : (s.inc f i d).lifeBase = s.lifeBase := State.setReg_lifeBase s _ _ _
@[simp] theorem State.inc_secBase : (s.inc f i d).secBase = s.secBase := State.setReg_secBase s _ _ _
@[simp] theorem State.inc_resetWaits : (s.inc f i d).resetWaits = s.resetWaits := State.setReg_resetWaits s _ _ _
@[simp] theorem State.inc_fw : (s.inc f i d).fw = s.fw := State.setReg_fw s _ _ _
@[simp] theorem State.inc_fwWritten : (s.inc f i d).fwWritten = s.fwWritten := State.setReg_fwWritten s _ _ _
@[simp] theorem State.inc_fwFresh : (s.inc f i d).fwFresh = s.fwFresh := State.setReg_fwFresh s _ _ _
@[simp] theorem State.inc_mboxStage : (s.inc f i d).mboxStage = s.mboxStage := State.setReg_mboxStage s _ _ _
@[simp] theorem State.inc_act : (s.inc f i d).act = s.act := State.setReg_act s _ _ _
@[simp] theorem State.inc_roll : (s.inc f i d).roll = s.roll := State.setReg_roll s _ _ _
@[simp] theorem State.inc_mpRestart : (s.inc f i d).mpRestart = s.mpRestart := State.setReg_mpRestart s _ _ _
@[simp] theorem State.inc_pldm : (s.inc f i d).pldm = s.pldm := State.setReg_pldm s _ _ _
@[simp] theorem State.inc_spdm : (s.inc f i d).spdm = s.spdm := State.setReg_spdm s _ _ _
@[simp] theorem State.inc_sessions : (s.inc f i d).sessions = s.sessions := State.setReg_sessions s _ _ _
@[simp] theorem State.inc_sessionNext : (s.inc f i d).sessionNext = s.sessionNext := State.setReg_sessionNext s _ _ _
@[simp] theorem State.inc_signatures : (s.inc f i d).signatures = s.signatures := State.setReg_signatures s _ _ _
@[simp] theorem State.inc_mgmt : (s.inc f i d).mgmt = s.mgmt := State.setReg_mgmt s _ _ _
@[simp] theorem State.inc_fuses : (s.inc f i d).fuses = s.fuses := State.setReg_fuses s _ _ _
@[simp] theorem State.inc_spares : (s.inc f i d).spares = s.spares := State.setReg_spares s _ _ _
@[simp] theorem State.inc_freeCtr : (s.inc f i d).freeCtr = s.freeCtr := State.setReg_freeCtr s _ _ _
@[simp] theorem State.inc_pending : (s.inc f i d).pending = s.pending := State.setReg_pending s _ _ _

/-! ## resetReg -/

@[simp] theorem State.resetReg_mem : (s.resetReg r i).mem = s.mem := State.with_regs_mem s _
@[simp] theorem State.resetReg_bufs : (s.resetReg r i).bufs = s.bufs := State.with_regs_bufs s _
@[simp] theorem State.resetReg_ft : (s.resetReg r i).ft = s.ft := State.with_regs_ft s _
@[simp] theorem State.resetReg_skew : (s.resetReg r i).skew = s.skew := State.with_regs_skew s _
@[simp] theorem State.resetReg_queues : (s.resetReg r i).queues = s.queues := State.with_regs_queues s _
@[simp] theorem State.resetReg_nextId : (s.resetReg r i).nextId = s.nextId := State.with_regs_nextId s _
@[simp] theorem State.resetReg_adds : (s.resetReg r i).adds = s.adds := State.with_regs_adds s _
@[simp] theorem State.resetReg_markStamp : (s.resetReg r i).markStamp = s.markStamp := State.with_regs_markStamp s _
@[simp] theorem State.resetReg_tallies : (s.resetReg r i).tallies = s.tallies := State.with_regs_tallies s _
@[simp] theorem State.resetReg_msgNext : (s.resetReg r i).msgNext = s.msgNext := State.with_regs_msgNext s _
@[simp] theorem State.resetReg_seqs : (s.resetReg r i).seqs = s.seqs := State.with_regs_seqs s _
@[simp] theorem State.resetReg_rings : (s.resetReg r i).rings = s.rings := State.with_regs_rings s _
@[simp] theorem State.resetReg_ringWaits : (s.resetReg r i).ringWaits = s.ringWaits := State.with_regs_ringWaits s _
@[simp] theorem State.resetReg_ringResets : (s.resetReg r i).ringResets = s.ringResets := State.with_regs_ringResets s _
@[simp] theorem State.resetReg_gangs : (s.resetReg r i).gangs = s.gangs := State.with_regs_gangs s _
@[simp] theorem State.resetReg_launches : (s.resetReg r i).launches = s.launches := State.with_regs_launches s _
@[simp] theorem State.resetReg_icache : (s.resetReg r i).icache = s.icache := State.with_regs_icache s _
@[simp] theorem State.resetReg_ifills : (s.resetReg r i).ifills = s.ifills := State.with_regs_ifills s _
@[simp] theorem State.resetReg_upd : (s.resetReg r i).upd = s.upd := State.with_regs_upd s _
@[simp] theorem State.resetReg_updPend : (s.resetReg r i).updPend = s.updPend := State.with_regs_updPend s _
@[simp] theorem State.resetReg_ctxs : (s.resetReg r i).ctxs = s.ctxs := State.with_regs_ctxs s _
@[simp] theorem State.resetReg_seqSlots : (s.resetReg r i).seqSlots = s.seqSlots := State.with_regs_seqSlots s _
@[simp] theorem State.resetReg_tlb : (s.resetReg r i).tlb = s.tlb := State.with_regs_tlb s _
@[simp] theorem State.resetReg_xltInv : (s.resetReg r i).xltInv = s.xltInv := State.with_regs_xltInv s _
@[simp] theorem State.resetReg_rdc : (s.resetReg r i).rdc = s.rdc := State.with_regs_rdc s _
@[simp] theorem State.resetReg_rdcFills : (s.resetReg r i).rdcFills = s.rdcFills := State.with_regs_rdcFills s _
@[simp] theorem State.resetReg_scrubHits : (s.resetReg r i).scrubHits = s.scrubHits := State.with_regs_scrubHits s _
@[simp] theorem State.resetReg_carry : (s.resetReg r i).carry = s.carry := State.with_regs_carry s _
@[simp] theorem State.resetReg_active : (s.resetReg r i).active = s.active := State.with_regs_active s _
@[simp] theorem State.resetReg_roles : (s.resetReg r i).roles = s.roles := State.with_regs_roles s _
@[simp] theorem State.resetReg_standby : (s.resetReg r i).standby = s.standby := State.with_regs_standby s _
@[simp] theorem State.resetReg_swap : (s.resetReg r i).swap = s.swap := State.with_regs_swap s _
@[simp] theorem State.resetReg_msix : (s.resetReg r i).msix = s.msix := State.with_regs_msix s _
@[simp] theorem State.resetReg_msixPend : (s.resetReg r i).msixPend = s.msixPend := State.with_regs_msixPend s _
@[simp] theorem State.resetReg_sent : (s.resetReg r i).sent = s.sent := State.with_regs_sent s _
@[simp] theorem State.resetReg_load : (s.resetReg r i).load = s.load := State.with_regs_load s _
@[simp] theorem State.resetReg_repairs : (s.resetReg r i).repairs = s.repairs := State.with_regs_repairs s _
@[simp] theorem State.resetReg_sinceLoad : (s.resetReg r i).sinceLoad = s.sinceLoad := State.with_regs_sinceLoad s _
@[simp] theorem State.resetReg_net : (s.resetReg r i).net = s.net := State.with_regs_net s _
@[simp] theorem State.resetReg_clu : (s.resetReg r i).clu = s.clu := State.with_regs_clu s _
@[simp] theorem State.resetReg_frameFails : (s.resetReg r i).frameFails = s.frameFails := State.with_regs_frameFails s _
@[simp] theorem State.resetReg_nextShift : (s.resetReg r i).nextShift = s.nextShift := State.with_regs_nextShift s _
@[simp] theorem State.resetReg_phaseOn : (s.resetReg r i).phaseOn = s.phaseOn := State.with_regs_phaseOn s _
@[simp] theorem State.resetReg_plan : (s.resetReg r i).plan = s.plan := State.with_regs_plan s _
@[simp] theorem State.resetReg_deputies : (s.resetReg r i).deputies = s.deputies := State.with_regs_deputies s _
@[simp] theorem State.resetReg_transitHold : (s.resetReg r i).transitHold = s.transitHold := State.with_regs_transitHold s _
@[simp] theorem State.resetReg_schedAt : (s.resetReg r i).schedAt = s.schedAt := State.with_regs_schedAt s _
@[simp] theorem State.resetReg_schedPrev : (s.resetReg r i).schedPrev = s.schedPrev := State.with_regs_schedPrev s _
@[simp] theorem State.resetReg_pps : (s.resetReg r i).pps = s.pps := State.with_regs_pps s _
@[simp] theorem State.resetReg_syncAt : (s.resetReg r i).syncAt = s.syncAt := State.with_regs_syncAt s _
@[simp] theorem State.resetReg_slackRuns : (s.resetReg r i).slackRuns = s.slackRuns := State.with_regs_slackRuns s _
@[simp] theorem State.resetReg_slacks : (s.resetReg r i).slacks = s.slacks := State.with_regs_slacks s _
@[simp] theorem State.resetReg_bulk : (s.resetReg r i).bulk = s.bulk := State.with_regs_bulk s _
@[simp] theorem State.resetReg_bulkSeq : (s.resetReg r i).bulkSeq = s.bulkSeq := State.with_regs_bulkSeq s _
@[simp] theorem State.resetReg_netWant : (s.resetReg r i).netWant = s.netWant := State.with_regs_netWant s _
@[simp] theorem State.resetReg_ports : (s.resetReg r i).ports = s.ports := State.with_regs_ports s _
@[simp] theorem State.resetReg_wire : (s.resetReg r i).wire = s.wire := State.with_regs_wire s _
@[simp] theorem State.resetReg_lsdb : (s.resetReg r i).lsdb = s.lsdb := State.with_regs_lsdb s _
@[simp] theorem State.resetReg_lsaSeq : (s.resetReg r i).lsaSeq = s.lsaSeq := State.with_regs_lsaSeq s _
@[simp] theorem State.resetReg_lsaAt : (s.resetReg r i).lsaAt = s.lsaAt := State.with_regs_lsaAt s _
@[simp] theorem State.resetReg_certs : (s.resetReg r i).certs = s.certs := State.with_regs_certs s _
@[simp] theorem State.resetReg_bookAt : (s.resetReg r i).bookAt = s.bookAt := State.with_regs_bookAt s _
@[simp] theorem State.resetReg_taken : (s.resetReg r i).taken = s.taken := State.with_regs_taken s _
@[simp] theorem State.resetReg_xferNext : (s.resetReg r i).xferNext = s.xferNext := State.with_regs_xferNext s _
@[simp] theorem State.resetReg_offers : (s.resetReg r i).offers = s.offers := State.with_regs_offers s _
@[simp] theorem State.resetReg_transfers : (s.resetReg r i).transfers = s.transfers := State.with_regs_transfers s _
@[simp] theorem State.resetReg_xferEnds : (s.resetReg r i).xferEnds = s.xferEnds := State.with_regs_xferEnds s _
@[simp] theorem State.resetReg_incoming : (s.resetReg r i).incoming = s.incoming := State.with_regs_incoming s _
@[simp] theorem State.resetReg_offerNext : (s.resetReg r i).offerNext = s.offerNext := State.with_regs_offerNext s _
@[simp] theorem State.resetReg_elect : (s.resetReg r i).elect = s.elect := State.with_regs_elect s _
@[simp] theorem State.resetReg_lands : (s.resetReg r i).lands = s.lands := State.with_regs_lands s _
@[simp] theorem State.resetReg_colls : (s.resetReg r i).colls = s.colls := State.with_regs_colls s _
@[simp] theorem State.resetReg_lamps : (s.resetReg r i).lamps = s.lamps := State.with_regs_lamps s _
@[simp] theorem State.resetReg_tracked : (s.resetReg r i).tracked = s.tracked := State.with_regs_tracked s _
@[simp] theorem State.resetReg_snoops : (s.resetReg r i).snoops = s.snoops := State.with_regs_snoops s _
@[simp] theorem State.resetReg_snoopDead : (s.resetReg r i).snoopDead = s.snoopDead := State.with_regs_snoopDead s _
@[simp] theorem State.resetReg_reply : (s.resetReg r i).reply = s.reply := State.with_regs_reply s _
@[simp] theorem State.resetReg_mbox : (s.resetReg r i).mbox = s.mbox := State.with_regs_mbox s _
@[simp] theorem State.resetReg_hdmBase : (s.resetReg r i).hdmBase = s.hdmBase := State.with_regs_hdmBase s _
@[simp] theorem State.resetReg_ideKeys : (s.resetReg r i).ideKeys = s.ideKeys := State.with_regs_ideKeys s _
@[simp] theorem State.resetReg_power : (s.resetReg r i).power = s.power := State.with_regs_power s _
@[simp] theorem State.resetReg_samples : (s.resetReg r i).samples = s.samples := State.with_regs_samples s _
@[simp] theorem State.resetReg_genState : (s.resetReg r i).genState = s.genState := State.with_regs_genState s _
@[simp] theorem State.resetReg_genSeed : (s.resetReg r i).genSeed = s.genSeed := State.with_regs_genSeed s _
@[simp] theorem State.resetReg_canaries : (s.resetReg r i).canaries = s.canaries := State.with_regs_canaries s _
@[simp] theorem State.resetReg_canaryNext : (s.resetReg r i).canaryNext = s.canaryNext := State.with_regs_canaryNext s _
@[simp] theorem State.resetReg_canaryCycle : (s.resetReg r i).canaryCycle = s.canaryCycle := State.with_regs_canaryCycle s _
@[simp] theorem State.resetReg_transientTimes : (s.resetReg r i).transientTimes = s.transientTimes := State.with_regs_transientTimes s _
@[simp] theorem State.resetReg_reports : (s.resetReg r i).reports = s.reports := State.with_regs_reports s _
@[simp] theorem State.resetReg_reportCount : (s.resetReg r i).reportCount = s.reportCount := State.with_regs_reportCount s _
@[simp] theorem State.resetReg_log : (s.resetReg r i).log = s.log := State.with_regs_log s _
@[simp] theorem State.resetReg_retireFlash : (s.resetReg r i).retireFlash = s.retireFlash := State.with_regs_retireFlash s _
@[simp] theorem State.resetReg_retirePend : (s.resetReg r i).retirePend = s.retirePend := State.with_regs_retirePend s _
@[simp] theorem State.resetReg_softRepair : (s.resetReg r i).softRepair = s.softRepair := State.with_regs_softRepair s _
@[simp] theorem State.resetReg_resets : (s.resetReg r i).resets = s.resets := State.with_regs_resets s _
@[simp] theorem State.resetReg_board : (s.resetReg r i).board = s.board := State.with_regs_board s _
@[simp] theorem State.resetReg_firstBoot : (s.resetReg r i).firstBoot = s.firstBoot := State.with_regs_firstBoot s _
@[simp] theorem State.resetReg_flash : (s.resetReg r i).flash = s.flash := State.with_regs_flash s _
@[simp] theorem State.resetReg_up : (s.resetReg r i).up = s.up := State.with_regs_up s _
@[simp] theorem State.resetReg_onAt : (s.resetReg r i).onAt = s.onAt := State.with_regs_onAt s _
@[simp] theorem State.resetReg_heldLoad : (s.resetReg r i).heldLoad = s.heldLoad := State.with_regs_heldLoad s _
@[simp] theorem State.resetReg_bootAt : (s.resetReg r i).bootAt = s.bootAt := State.with_regs_bootAt s _
@[simp] theorem State.resetReg_testDue : (s.resetReg r i).testDue = s.testDue := State.with_regs_testDue s _
@[simp] theorem State.resetReg_lifeBase : (s.resetReg r i).lifeBase = s.lifeBase := State.with_regs_lifeBase s _
@[simp] theorem State.resetReg_secBase : (s.resetReg r i).secBase = s.secBase := State.with_regs_secBase s _
@[simp] theorem State.resetReg_resetWaits : (s.resetReg r i).resetWaits = s.resetWaits := State.with_regs_resetWaits s _
@[simp] theorem State.resetReg_fw : (s.resetReg r i).fw = s.fw := State.with_regs_fw s _
@[simp] theorem State.resetReg_fwWritten : (s.resetReg r i).fwWritten = s.fwWritten := State.with_regs_fwWritten s _
@[simp] theorem State.resetReg_fwFresh : (s.resetReg r i).fwFresh = s.fwFresh := State.with_regs_fwFresh s _
@[simp] theorem State.resetReg_mboxStage : (s.resetReg r i).mboxStage = s.mboxStage := State.with_regs_mboxStage s _
@[simp] theorem State.resetReg_act : (s.resetReg r i).act = s.act := State.with_regs_act s _
@[simp] theorem State.resetReg_roll : (s.resetReg r i).roll = s.roll := State.with_regs_roll s _
@[simp] theorem State.resetReg_mpRestart : (s.resetReg r i).mpRestart = s.mpRestart := State.with_regs_mpRestart s _
@[simp] theorem State.resetReg_pldm : (s.resetReg r i).pldm = s.pldm := State.with_regs_pldm s _
@[simp] theorem State.resetReg_spdm : (s.resetReg r i).spdm = s.spdm := State.with_regs_spdm s _
@[simp] theorem State.resetReg_sessions : (s.resetReg r i).sessions = s.sessions := State.with_regs_sessions s _
@[simp] theorem State.resetReg_sessionNext : (s.resetReg r i).sessionNext = s.sessionNext := State.with_regs_sessionNext s _
@[simp] theorem State.resetReg_signatures : (s.resetReg r i).signatures = s.signatures := State.with_regs_signatures s _
@[simp] theorem State.resetReg_mgmt : (s.resetReg r i).mgmt = s.mgmt := State.with_regs_mgmt s _
@[simp] theorem State.resetReg_fuses : (s.resetReg r i).fuses = s.fuses := State.with_regs_fuses s _
@[simp] theorem State.resetReg_spares : (s.resetReg r i).spares = s.spares := State.with_regs_spares s _
@[simp] theorem State.resetReg_freeCtr : (s.resetReg r i).freeCtr = s.freeCtr := State.with_regs_freeCtr s _
@[simp] theorem State.resetReg_pending : (s.resetReg r i).pending = s.pending := State.with_regs_pending s _

/-! ## setClu -/

@[simp] theorem State.setClu_regs : (s.setClu c x).regs = s.regs := State.with_clu_regs s _
@[simp] theorem State.setClu_mem : (s.setClu c x).mem = s.mem := State.with_clu_mem s _
@[simp] theorem State.setClu_bufs : (s.setClu c x).bufs = s.bufs := State.with_clu_bufs s _
@[simp] theorem State.setClu_ft : (s.setClu c x).ft = s.ft := State.with_clu_ft s _
@[simp] theorem State.setClu_skew : (s.setClu c x).skew = s.skew := State.with_clu_skew s _
@[simp] theorem State.setClu_queues : (s.setClu c x).queues = s.queues := State.with_clu_queues s _
@[simp] theorem State.setClu_nextId : (s.setClu c x).nextId = s.nextId := State.with_clu_nextId s _
@[simp] theorem State.setClu_adds : (s.setClu c x).adds = s.adds := State.with_clu_adds s _
@[simp] theorem State.setClu_markStamp : (s.setClu c x).markStamp = s.markStamp := State.with_clu_markStamp s _
@[simp] theorem State.setClu_tallies : (s.setClu c x).tallies = s.tallies := State.with_clu_tallies s _
@[simp] theorem State.setClu_msgNext : (s.setClu c x).msgNext = s.msgNext := State.with_clu_msgNext s _
@[simp] theorem State.setClu_seqs : (s.setClu c x).seqs = s.seqs := State.with_clu_seqs s _
@[simp] theorem State.setClu_rings : (s.setClu c x).rings = s.rings := State.with_clu_rings s _
@[simp] theorem State.setClu_ringWaits : (s.setClu c x).ringWaits = s.ringWaits := State.with_clu_ringWaits s _
@[simp] theorem State.setClu_ringResets : (s.setClu c x).ringResets = s.ringResets := State.with_clu_ringResets s _
@[simp] theorem State.setClu_gangs : (s.setClu c x).gangs = s.gangs := State.with_clu_gangs s _
@[simp] theorem State.setClu_launches : (s.setClu c x).launches = s.launches := State.with_clu_launches s _
@[simp] theorem State.setClu_icache : (s.setClu c x).icache = s.icache := State.with_clu_icache s _
@[simp] theorem State.setClu_ifills : (s.setClu c x).ifills = s.ifills := State.with_clu_ifills s _
@[simp] theorem State.setClu_upd : (s.setClu c x).upd = s.upd := State.with_clu_upd s _
@[simp] theorem State.setClu_updPend : (s.setClu c x).updPend = s.updPend := State.with_clu_updPend s _
@[simp] theorem State.setClu_ctxs : (s.setClu c x).ctxs = s.ctxs := State.with_clu_ctxs s _
@[simp] theorem State.setClu_seqSlots : (s.setClu c x).seqSlots = s.seqSlots := State.with_clu_seqSlots s _
@[simp] theorem State.setClu_tlb : (s.setClu c x).tlb = s.tlb := State.with_clu_tlb s _
@[simp] theorem State.setClu_xltInv : (s.setClu c x).xltInv = s.xltInv := State.with_clu_xltInv s _
@[simp] theorem State.setClu_rdc : (s.setClu c x).rdc = s.rdc := State.with_clu_rdc s _
@[simp] theorem State.setClu_rdcFills : (s.setClu c x).rdcFills = s.rdcFills := State.with_clu_rdcFills s _
@[simp] theorem State.setClu_scrubHits : (s.setClu c x).scrubHits = s.scrubHits := State.with_clu_scrubHits s _
@[simp] theorem State.setClu_carry : (s.setClu c x).carry = s.carry := State.with_clu_carry s _
@[simp] theorem State.setClu_active : (s.setClu c x).active = s.active := State.with_clu_active s _
@[simp] theorem State.setClu_roles : (s.setClu c x).roles = s.roles := State.with_clu_roles s _
@[simp] theorem State.setClu_standby : (s.setClu c x).standby = s.standby := State.with_clu_standby s _
@[simp] theorem State.setClu_swap : (s.setClu c x).swap = s.swap := State.with_clu_swap s _
@[simp] theorem State.setClu_msix : (s.setClu c x).msix = s.msix := State.with_clu_msix s _
@[simp] theorem State.setClu_msixPend : (s.setClu c x).msixPend = s.msixPend := State.with_clu_msixPend s _
@[simp] theorem State.setClu_sent : (s.setClu c x).sent = s.sent := State.with_clu_sent s _
@[simp] theorem State.setClu_load : (s.setClu c x).load = s.load := State.with_clu_load s _
@[simp] theorem State.setClu_repairs : (s.setClu c x).repairs = s.repairs := State.with_clu_repairs s _
@[simp] theorem State.setClu_sinceLoad : (s.setClu c x).sinceLoad = s.sinceLoad := State.with_clu_sinceLoad s _
@[simp] theorem State.setClu_net : (s.setClu c x).net = s.net := State.with_clu_net s _
@[simp] theorem State.setClu_frameFails : (s.setClu c x).frameFails = s.frameFails := State.with_clu_frameFails s _
@[simp] theorem State.setClu_nextShift : (s.setClu c x).nextShift = s.nextShift := State.with_clu_nextShift s _
@[simp] theorem State.setClu_phaseOn : (s.setClu c x).phaseOn = s.phaseOn := State.with_clu_phaseOn s _
@[simp] theorem State.setClu_plan : (s.setClu c x).plan = s.plan := State.with_clu_plan s _
@[simp] theorem State.setClu_deputies : (s.setClu c x).deputies = s.deputies := State.with_clu_deputies s _
@[simp] theorem State.setClu_transitHold : (s.setClu c x).transitHold = s.transitHold := State.with_clu_transitHold s _
@[simp] theorem State.setClu_schedAt : (s.setClu c x).schedAt = s.schedAt := State.with_clu_schedAt s _
@[simp] theorem State.setClu_schedPrev : (s.setClu c x).schedPrev = s.schedPrev := State.with_clu_schedPrev s _
@[simp] theorem State.setClu_pps : (s.setClu c x).pps = s.pps := State.with_clu_pps s _
@[simp] theorem State.setClu_syncAt : (s.setClu c x).syncAt = s.syncAt := State.with_clu_syncAt s _
@[simp] theorem State.setClu_slackRuns : (s.setClu c x).slackRuns = s.slackRuns := State.with_clu_slackRuns s _
@[simp] theorem State.setClu_slacks : (s.setClu c x).slacks = s.slacks := State.with_clu_slacks s _
@[simp] theorem State.setClu_bulk : (s.setClu c x).bulk = s.bulk := State.with_clu_bulk s _
@[simp] theorem State.setClu_bulkSeq : (s.setClu c x).bulkSeq = s.bulkSeq := State.with_clu_bulkSeq s _
@[simp] theorem State.setClu_netWant : (s.setClu c x).netWant = s.netWant := State.with_clu_netWant s _
@[simp] theorem State.setClu_ports : (s.setClu c x).ports = s.ports := State.with_clu_ports s _
@[simp] theorem State.setClu_wire : (s.setClu c x).wire = s.wire := State.with_clu_wire s _
@[simp] theorem State.setClu_lsdb : (s.setClu c x).lsdb = s.lsdb := State.with_clu_lsdb s _
@[simp] theorem State.setClu_lsaSeq : (s.setClu c x).lsaSeq = s.lsaSeq := State.with_clu_lsaSeq s _
@[simp] theorem State.setClu_lsaAt : (s.setClu c x).lsaAt = s.lsaAt := State.with_clu_lsaAt s _
@[simp] theorem State.setClu_certs : (s.setClu c x).certs = s.certs := State.with_clu_certs s _
@[simp] theorem State.setClu_bookAt : (s.setClu c x).bookAt = s.bookAt := State.with_clu_bookAt s _
@[simp] theorem State.setClu_taken : (s.setClu c x).taken = s.taken := State.with_clu_taken s _
@[simp] theorem State.setClu_xferNext : (s.setClu c x).xferNext = s.xferNext := State.with_clu_xferNext s _
@[simp] theorem State.setClu_offers : (s.setClu c x).offers = s.offers := State.with_clu_offers s _
@[simp] theorem State.setClu_transfers : (s.setClu c x).transfers = s.transfers := State.with_clu_transfers s _
@[simp] theorem State.setClu_xferEnds : (s.setClu c x).xferEnds = s.xferEnds := State.with_clu_xferEnds s _
@[simp] theorem State.setClu_incoming : (s.setClu c x).incoming = s.incoming := State.with_clu_incoming s _
@[simp] theorem State.setClu_offerNext : (s.setClu c x).offerNext = s.offerNext := State.with_clu_offerNext s _
@[simp] theorem State.setClu_elect : (s.setClu c x).elect = s.elect := State.with_clu_elect s _
@[simp] theorem State.setClu_lands : (s.setClu c x).lands = s.lands := State.with_clu_lands s _
@[simp] theorem State.setClu_colls : (s.setClu c x).colls = s.colls := State.with_clu_colls s _
@[simp] theorem State.setClu_lamps : (s.setClu c x).lamps = s.lamps := State.with_clu_lamps s _
@[simp] theorem State.setClu_tracked : (s.setClu c x).tracked = s.tracked := State.with_clu_tracked s _
@[simp] theorem State.setClu_snoops : (s.setClu c x).snoops = s.snoops := State.with_clu_snoops s _
@[simp] theorem State.setClu_snoopDead : (s.setClu c x).snoopDead = s.snoopDead := State.with_clu_snoopDead s _
@[simp] theorem State.setClu_reply : (s.setClu c x).reply = s.reply := State.with_clu_reply s _
@[simp] theorem State.setClu_mbox : (s.setClu c x).mbox = s.mbox := State.with_clu_mbox s _
@[simp] theorem State.setClu_hdmBase : (s.setClu c x).hdmBase = s.hdmBase := State.with_clu_hdmBase s _
@[simp] theorem State.setClu_ideKeys : (s.setClu c x).ideKeys = s.ideKeys := State.with_clu_ideKeys s _
@[simp] theorem State.setClu_power : (s.setClu c x).power = s.power := State.with_clu_power s _
@[simp] theorem State.setClu_samples : (s.setClu c x).samples = s.samples := State.with_clu_samples s _
@[simp] theorem State.setClu_genState : (s.setClu c x).genState = s.genState := State.with_clu_genState s _
@[simp] theorem State.setClu_genSeed : (s.setClu c x).genSeed = s.genSeed := State.with_clu_genSeed s _
@[simp] theorem State.setClu_canaries : (s.setClu c x).canaries = s.canaries := State.with_clu_canaries s _
@[simp] theorem State.setClu_canaryNext : (s.setClu c x).canaryNext = s.canaryNext := State.with_clu_canaryNext s _
@[simp] theorem State.setClu_canaryCycle : (s.setClu c x).canaryCycle = s.canaryCycle := State.with_clu_canaryCycle s _
@[simp] theorem State.setClu_transientTimes : (s.setClu c x).transientTimes = s.transientTimes := State.with_clu_transientTimes s _
@[simp] theorem State.setClu_reports : (s.setClu c x).reports = s.reports := State.with_clu_reports s _
@[simp] theorem State.setClu_reportCount : (s.setClu c x).reportCount = s.reportCount := State.with_clu_reportCount s _
@[simp] theorem State.setClu_log : (s.setClu c x).log = s.log := State.with_clu_log s _
@[simp] theorem State.setClu_retireFlash : (s.setClu c x).retireFlash = s.retireFlash := State.with_clu_retireFlash s _
@[simp] theorem State.setClu_retirePend : (s.setClu c x).retirePend = s.retirePend := State.with_clu_retirePend s _
@[simp] theorem State.setClu_softRepair : (s.setClu c x).softRepair = s.softRepair := State.with_clu_softRepair s _
@[simp] theorem State.setClu_resets : (s.setClu c x).resets = s.resets := State.with_clu_resets s _
@[simp] theorem State.setClu_board : (s.setClu c x).board = s.board := State.with_clu_board s _
@[simp] theorem State.setClu_firstBoot : (s.setClu c x).firstBoot = s.firstBoot := State.with_clu_firstBoot s _
@[simp] theorem State.setClu_flash : (s.setClu c x).flash = s.flash := State.with_clu_flash s _
@[simp] theorem State.setClu_up : (s.setClu c x).up = s.up := State.with_clu_up s _
@[simp] theorem State.setClu_onAt : (s.setClu c x).onAt = s.onAt := State.with_clu_onAt s _
@[simp] theorem State.setClu_heldLoad : (s.setClu c x).heldLoad = s.heldLoad := State.with_clu_heldLoad s _
@[simp] theorem State.setClu_bootAt : (s.setClu c x).bootAt = s.bootAt := State.with_clu_bootAt s _
@[simp] theorem State.setClu_testDue : (s.setClu c x).testDue = s.testDue := State.with_clu_testDue s _
@[simp] theorem State.setClu_lifeBase : (s.setClu c x).lifeBase = s.lifeBase := State.with_clu_lifeBase s _
@[simp] theorem State.setClu_secBase : (s.setClu c x).secBase = s.secBase := State.with_clu_secBase s _
@[simp] theorem State.setClu_resetWaits : (s.setClu c x).resetWaits = s.resetWaits := State.with_clu_resetWaits s _
@[simp] theorem State.setClu_fw : (s.setClu c x).fw = s.fw := State.with_clu_fw s _
@[simp] theorem State.setClu_fwWritten : (s.setClu c x).fwWritten = s.fwWritten := State.with_clu_fwWritten s _
@[simp] theorem State.setClu_fwFresh : (s.setClu c x).fwFresh = s.fwFresh := State.with_clu_fwFresh s _
@[simp] theorem State.setClu_mboxStage : (s.setClu c x).mboxStage = s.mboxStage := State.with_clu_mboxStage s _
@[simp] theorem State.setClu_act : (s.setClu c x).act = s.act := State.with_clu_act s _
@[simp] theorem State.setClu_roll : (s.setClu c x).roll = s.roll := State.with_clu_roll s _
@[simp] theorem State.setClu_mpRestart : (s.setClu c x).mpRestart = s.mpRestart := State.with_clu_mpRestart s _
@[simp] theorem State.setClu_pldm : (s.setClu c x).pldm = s.pldm := State.with_clu_pldm s _
@[simp] theorem State.setClu_spdm : (s.setClu c x).spdm = s.spdm := State.with_clu_spdm s _
@[simp] theorem State.setClu_sessions : (s.setClu c x).sessions = s.sessions := State.with_clu_sessions s _
@[simp] theorem State.setClu_sessionNext : (s.setClu c x).sessionNext = s.sessionNext := State.with_clu_sessionNext s _
@[simp] theorem State.setClu_signatures : (s.setClu c x).signatures = s.signatures := State.with_clu_signatures s _
@[simp] theorem State.setClu_mgmt : (s.setClu c x).mgmt = s.mgmt := State.with_clu_mgmt s _
@[simp] theorem State.setClu_fuses : (s.setClu c x).fuses = s.fuses := State.with_clu_fuses s _
@[simp] theorem State.setClu_spares : (s.setClu c x).spares = s.spares := State.with_clu_spares s _
@[simp] theorem State.setClu_freeCtr : (s.setClu c x).freeCtr = s.freeCtr := State.with_clu_freeCtr s _
@[simp] theorem State.setClu_pending : (s.setClu c x).pending = s.pending := State.with_clu_pending s _

/-! ## tallyAt -/

@[simp] theorem State.tallyAt_regs : (s.tallyAt t p ring unit event status lo hi).regs = s.regs := State.with_tallies_regs s _ _ _
@[simp] theorem State.tallyAt_mem : (s.tallyAt t p ring unit event status lo hi).mem = s.mem := State.with_tallies_mem s _ _ _
@[simp] theorem State.tallyAt_bufs : (s.tallyAt t p ring unit event status lo hi).bufs = s.bufs := State.with_tallies_bufs s _ _ _
@[simp] theorem State.tallyAt_ft : (s.tallyAt t p ring unit event status lo hi).ft = s.ft := State.with_tallies_ft s _ _ _
@[simp] theorem State.tallyAt_skew : (s.tallyAt t p ring unit event status lo hi).skew = s.skew := State.with_tallies_skew s _ _ _
@[simp] theorem State.tallyAt_queues : (s.tallyAt t p ring unit event status lo hi).queues = s.queues := State.with_tallies_queues s _ _ _
@[simp] theorem State.tallyAt_nextId : (s.tallyAt t p ring unit event status lo hi).nextId = s.nextId := State.with_tallies_nextId s _ _ _
@[simp] theorem State.tallyAt_adds : (s.tallyAt t p ring unit event status lo hi).adds = s.adds := State.with_tallies_adds s _ _ _
@[simp] theorem State.tallyAt_markStamp : (s.tallyAt t p ring unit event status lo hi).markStamp = s.markStamp := State.with_tallies_markStamp s _ _ _
@[simp] theorem State.tallyAt_rings : (s.tallyAt t p ring unit event status lo hi).rings = s.rings := State.with_tallies_rings s _ _ _
@[simp] theorem State.tallyAt_ringWaits : (s.tallyAt t p ring unit event status lo hi).ringWaits = s.ringWaits := State.with_tallies_ringWaits s _ _ _
@[simp] theorem State.tallyAt_ringResets : (s.tallyAt t p ring unit event status lo hi).ringResets = s.ringResets := State.with_tallies_ringResets s _ _ _
@[simp] theorem State.tallyAt_gangs : (s.tallyAt t p ring unit event status lo hi).gangs = s.gangs := State.with_tallies_gangs s _ _ _
@[simp] theorem State.tallyAt_launches : (s.tallyAt t p ring unit event status lo hi).launches = s.launches := State.with_tallies_launches s _ _ _
@[simp] theorem State.tallyAt_icache : (s.tallyAt t p ring unit event status lo hi).icache = s.icache := State.with_tallies_icache s _ _ _
@[simp] theorem State.tallyAt_ifills : (s.tallyAt t p ring unit event status lo hi).ifills = s.ifills := State.with_tallies_ifills s _ _ _
@[simp] theorem State.tallyAt_upd : (s.tallyAt t p ring unit event status lo hi).upd = s.upd := State.with_tallies_upd s _ _ _
@[simp] theorem State.tallyAt_updPend : (s.tallyAt t p ring unit event status lo hi).updPend = s.updPend := State.with_tallies_updPend s _ _ _
@[simp] theorem State.tallyAt_ctxs : (s.tallyAt t p ring unit event status lo hi).ctxs = s.ctxs := State.with_tallies_ctxs s _ _ _
@[simp] theorem State.tallyAt_seqSlots : (s.tallyAt t p ring unit event status lo hi).seqSlots = s.seqSlots := State.with_tallies_seqSlots s _ _ _
@[simp] theorem State.tallyAt_tlb : (s.tallyAt t p ring unit event status lo hi).tlb = s.tlb := State.with_tallies_tlb s _ _ _
@[simp] theorem State.tallyAt_xltInv : (s.tallyAt t p ring unit event status lo hi).xltInv = s.xltInv := State.with_tallies_xltInv s _ _ _
@[simp] theorem State.tallyAt_rdc : (s.tallyAt t p ring unit event status lo hi).rdc = s.rdc := State.with_tallies_rdc s _ _ _
@[simp] theorem State.tallyAt_rdcFills : (s.tallyAt t p ring unit event status lo hi).rdcFills = s.rdcFills := State.with_tallies_rdcFills s _ _ _
@[simp] theorem State.tallyAt_scrubHits : (s.tallyAt t p ring unit event status lo hi).scrubHits = s.scrubHits := State.with_tallies_scrubHits s _ _ _
@[simp] theorem State.tallyAt_carry : (s.tallyAt t p ring unit event status lo hi).carry = s.carry := State.with_tallies_carry s _ _ _
@[simp] theorem State.tallyAt_active : (s.tallyAt t p ring unit event status lo hi).active = s.active := State.with_tallies_active s _ _ _
@[simp] theorem State.tallyAt_roles : (s.tallyAt t p ring unit event status lo hi).roles = s.roles := State.with_tallies_roles s _ _ _
@[simp] theorem State.tallyAt_standby : (s.tallyAt t p ring unit event status lo hi).standby = s.standby := State.with_tallies_standby s _ _ _
@[simp] theorem State.tallyAt_swap : (s.tallyAt t p ring unit event status lo hi).swap = s.swap := State.with_tallies_swap s _ _ _
@[simp] theorem State.tallyAt_msix : (s.tallyAt t p ring unit event status lo hi).msix = s.msix := State.with_tallies_msix s _ _ _
@[simp] theorem State.tallyAt_msixPend : (s.tallyAt t p ring unit event status lo hi).msixPend = s.msixPend := State.with_tallies_msixPend s _ _ _
@[simp] theorem State.tallyAt_sent : (s.tallyAt t p ring unit event status lo hi).sent = s.sent := State.with_tallies_sent s _ _ _
@[simp] theorem State.tallyAt_load : (s.tallyAt t p ring unit event status lo hi).load = s.load := State.with_tallies_load s _ _ _
@[simp] theorem State.tallyAt_repairs : (s.tallyAt t p ring unit event status lo hi).repairs = s.repairs := State.with_tallies_repairs s _ _ _
@[simp] theorem State.tallyAt_sinceLoad : (s.tallyAt t p ring unit event status lo hi).sinceLoad = s.sinceLoad := State.with_tallies_sinceLoad s _ _ _
@[simp] theorem State.tallyAt_net : (s.tallyAt t p ring unit event status lo hi).net = s.net := State.with_tallies_net s _ _ _
@[simp] theorem State.tallyAt_clu : (s.tallyAt t p ring unit event status lo hi).clu = s.clu := State.with_tallies_clu s _ _ _
@[simp] theorem State.tallyAt_frameFails : (s.tallyAt t p ring unit event status lo hi).frameFails = s.frameFails := State.with_tallies_frameFails s _ _ _
@[simp] theorem State.tallyAt_nextShift : (s.tallyAt t p ring unit event status lo hi).nextShift = s.nextShift := State.with_tallies_nextShift s _ _ _
@[simp] theorem State.tallyAt_phaseOn : (s.tallyAt t p ring unit event status lo hi).phaseOn = s.phaseOn := State.with_tallies_phaseOn s _ _ _
@[simp] theorem State.tallyAt_plan : (s.tallyAt t p ring unit event status lo hi).plan = s.plan := State.with_tallies_plan s _ _ _
@[simp] theorem State.tallyAt_deputies : (s.tallyAt t p ring unit event status lo hi).deputies = s.deputies := State.with_tallies_deputies s _ _ _
@[simp] theorem State.tallyAt_transitHold : (s.tallyAt t p ring unit event status lo hi).transitHold = s.transitHold := State.with_tallies_transitHold s _ _ _
@[simp] theorem State.tallyAt_schedAt : (s.tallyAt t p ring unit event status lo hi).schedAt = s.schedAt := State.with_tallies_schedAt s _ _ _
@[simp] theorem State.tallyAt_schedPrev : (s.tallyAt t p ring unit event status lo hi).schedPrev = s.schedPrev := State.with_tallies_schedPrev s _ _ _
@[simp] theorem State.tallyAt_pps : (s.tallyAt t p ring unit event status lo hi).pps = s.pps := State.with_tallies_pps s _ _ _
@[simp] theorem State.tallyAt_syncAt : (s.tallyAt t p ring unit event status lo hi).syncAt = s.syncAt := State.with_tallies_syncAt s _ _ _
@[simp] theorem State.tallyAt_slackRuns : (s.tallyAt t p ring unit event status lo hi).slackRuns = s.slackRuns := State.with_tallies_slackRuns s _ _ _
@[simp] theorem State.tallyAt_slacks : (s.tallyAt t p ring unit event status lo hi).slacks = s.slacks := State.with_tallies_slacks s _ _ _
@[simp] theorem State.tallyAt_bulk : (s.tallyAt t p ring unit event status lo hi).bulk = s.bulk := State.with_tallies_bulk s _ _ _
@[simp] theorem State.tallyAt_bulkSeq : (s.tallyAt t p ring unit event status lo hi).bulkSeq = s.bulkSeq := State.with_tallies_bulkSeq s _ _ _
@[simp] theorem State.tallyAt_netWant : (s.tallyAt t p ring unit event status lo hi).netWant = s.netWant := State.with_tallies_netWant s _ _ _
@[simp] theorem State.tallyAt_ports : (s.tallyAt t p ring unit event status lo hi).ports = s.ports := State.with_tallies_ports s _ _ _
@[simp] theorem State.tallyAt_wire : (s.tallyAt t p ring unit event status lo hi).wire = s.wire := State.with_tallies_wire s _ _ _
@[simp] theorem State.tallyAt_lsdb : (s.tallyAt t p ring unit event status lo hi).lsdb = s.lsdb := State.with_tallies_lsdb s _ _ _
@[simp] theorem State.tallyAt_lsaSeq : (s.tallyAt t p ring unit event status lo hi).lsaSeq = s.lsaSeq := State.with_tallies_lsaSeq s _ _ _
@[simp] theorem State.tallyAt_lsaAt : (s.tallyAt t p ring unit event status lo hi).lsaAt = s.lsaAt := State.with_tallies_lsaAt s _ _ _
@[simp] theorem State.tallyAt_certs : (s.tallyAt t p ring unit event status lo hi).certs = s.certs := State.with_tallies_certs s _ _ _
@[simp] theorem State.tallyAt_bookAt : (s.tallyAt t p ring unit event status lo hi).bookAt = s.bookAt := State.with_tallies_bookAt s _ _ _
@[simp] theorem State.tallyAt_taken : (s.tallyAt t p ring unit event status lo hi).taken = s.taken := State.with_tallies_taken s _ _ _
@[simp] theorem State.tallyAt_xferNext : (s.tallyAt t p ring unit event status lo hi).xferNext = s.xferNext := State.with_tallies_xferNext s _ _ _
@[simp] theorem State.tallyAt_offers : (s.tallyAt t p ring unit event status lo hi).offers = s.offers := State.with_tallies_offers s _ _ _
@[simp] theorem State.tallyAt_transfers : (s.tallyAt t p ring unit event status lo hi).transfers = s.transfers := State.with_tallies_transfers s _ _ _
@[simp] theorem State.tallyAt_xferEnds : (s.tallyAt t p ring unit event status lo hi).xferEnds = s.xferEnds := State.with_tallies_xferEnds s _ _ _
@[simp] theorem State.tallyAt_incoming : (s.tallyAt t p ring unit event status lo hi).incoming = s.incoming := State.with_tallies_incoming s _ _ _
@[simp] theorem State.tallyAt_offerNext : (s.tallyAt t p ring unit event status lo hi).offerNext = s.offerNext := State.with_tallies_offerNext s _ _ _
@[simp] theorem State.tallyAt_elect : (s.tallyAt t p ring unit event status lo hi).elect = s.elect := State.with_tallies_elect s _ _ _
@[simp] theorem State.tallyAt_lands : (s.tallyAt t p ring unit event status lo hi).lands = s.lands := State.with_tallies_lands s _ _ _
@[simp] theorem State.tallyAt_colls : (s.tallyAt t p ring unit event status lo hi).colls = s.colls := State.with_tallies_colls s _ _ _
@[simp] theorem State.tallyAt_lamps : (s.tallyAt t p ring unit event status lo hi).lamps = s.lamps := State.with_tallies_lamps s _ _ _
@[simp] theorem State.tallyAt_tracked : (s.tallyAt t p ring unit event status lo hi).tracked = s.tracked := State.with_tallies_tracked s _ _ _
@[simp] theorem State.tallyAt_snoops : (s.tallyAt t p ring unit event status lo hi).snoops = s.snoops := State.with_tallies_snoops s _ _ _
@[simp] theorem State.tallyAt_snoopDead : (s.tallyAt t p ring unit event status lo hi).snoopDead = s.snoopDead := State.with_tallies_snoopDead s _ _ _
@[simp] theorem State.tallyAt_reply : (s.tallyAt t p ring unit event status lo hi).reply = s.reply := State.with_tallies_reply s _ _ _
@[simp] theorem State.tallyAt_mbox : (s.tallyAt t p ring unit event status lo hi).mbox = s.mbox := State.with_tallies_mbox s _ _ _
@[simp] theorem State.tallyAt_hdmBase : (s.tallyAt t p ring unit event status lo hi).hdmBase = s.hdmBase := State.with_tallies_hdmBase s _ _ _
@[simp] theorem State.tallyAt_ideKeys : (s.tallyAt t p ring unit event status lo hi).ideKeys = s.ideKeys := State.with_tallies_ideKeys s _ _ _
@[simp] theorem State.tallyAt_power : (s.tallyAt t p ring unit event status lo hi).power = s.power := State.with_tallies_power s _ _ _
@[simp] theorem State.tallyAt_samples : (s.tallyAt t p ring unit event status lo hi).samples = s.samples := State.with_tallies_samples s _ _ _
@[simp] theorem State.tallyAt_genState : (s.tallyAt t p ring unit event status lo hi).genState = s.genState := State.with_tallies_genState s _ _ _
@[simp] theorem State.tallyAt_genSeed : (s.tallyAt t p ring unit event status lo hi).genSeed = s.genSeed := State.with_tallies_genSeed s _ _ _
@[simp] theorem State.tallyAt_canaries : (s.tallyAt t p ring unit event status lo hi).canaries = s.canaries := State.with_tallies_canaries s _ _ _
@[simp] theorem State.tallyAt_canaryNext : (s.tallyAt t p ring unit event status lo hi).canaryNext = s.canaryNext := State.with_tallies_canaryNext s _ _ _
@[simp] theorem State.tallyAt_canaryCycle : (s.tallyAt t p ring unit event status lo hi).canaryCycle = s.canaryCycle := State.with_tallies_canaryCycle s _ _ _
@[simp] theorem State.tallyAt_transientTimes : (s.tallyAt t p ring unit event status lo hi).transientTimes = s.transientTimes := State.with_tallies_transientTimes s _ _ _
@[simp] theorem State.tallyAt_reports : (s.tallyAt t p ring unit event status lo hi).reports = s.reports := State.with_tallies_reports s _ _ _
@[simp] theorem State.tallyAt_reportCount : (s.tallyAt t p ring unit event status lo hi).reportCount = s.reportCount := State.with_tallies_reportCount s _ _ _
@[simp] theorem State.tallyAt_log : (s.tallyAt t p ring unit event status lo hi).log = s.log := State.with_tallies_log s _ _ _
@[simp] theorem State.tallyAt_retireFlash : (s.tallyAt t p ring unit event status lo hi).retireFlash = s.retireFlash := State.with_tallies_retireFlash s _ _ _
@[simp] theorem State.tallyAt_retirePend : (s.tallyAt t p ring unit event status lo hi).retirePend = s.retirePend := State.with_tallies_retirePend s _ _ _
@[simp] theorem State.tallyAt_softRepair : (s.tallyAt t p ring unit event status lo hi).softRepair = s.softRepair := State.with_tallies_softRepair s _ _ _
@[simp] theorem State.tallyAt_resets : (s.tallyAt t p ring unit event status lo hi).resets = s.resets := State.with_tallies_resets s _ _ _
@[simp] theorem State.tallyAt_board : (s.tallyAt t p ring unit event status lo hi).board = s.board := State.with_tallies_board s _ _ _
@[simp] theorem State.tallyAt_firstBoot : (s.tallyAt t p ring unit event status lo hi).firstBoot = s.firstBoot := State.with_tallies_firstBoot s _ _ _
@[simp] theorem State.tallyAt_flash : (s.tallyAt t p ring unit event status lo hi).flash = s.flash := State.with_tallies_flash s _ _ _
@[simp] theorem State.tallyAt_up : (s.tallyAt t p ring unit event status lo hi).up = s.up := State.with_tallies_up s _ _ _
@[simp] theorem State.tallyAt_onAt : (s.tallyAt t p ring unit event status lo hi).onAt = s.onAt := State.with_tallies_onAt s _ _ _
@[simp] theorem State.tallyAt_heldLoad : (s.tallyAt t p ring unit event status lo hi).heldLoad = s.heldLoad := State.with_tallies_heldLoad s _ _ _
@[simp] theorem State.tallyAt_bootAt : (s.tallyAt t p ring unit event status lo hi).bootAt = s.bootAt := State.with_tallies_bootAt s _ _ _
@[simp] theorem State.tallyAt_testDue : (s.tallyAt t p ring unit event status lo hi).testDue = s.testDue := State.with_tallies_testDue s _ _ _
@[simp] theorem State.tallyAt_lifeBase : (s.tallyAt t p ring unit event status lo hi).lifeBase = s.lifeBase := State.with_tallies_lifeBase s _ _ _
@[simp] theorem State.tallyAt_secBase : (s.tallyAt t p ring unit event status lo hi).secBase = s.secBase := State.with_tallies_secBase s _ _ _
@[simp] theorem State.tallyAt_resetWaits : (s.tallyAt t p ring unit event status lo hi).resetWaits = s.resetWaits := State.with_tallies_resetWaits s _ _ _
@[simp] theorem State.tallyAt_fw : (s.tallyAt t p ring unit event status lo hi).fw = s.fw := State.with_tallies_fw s _ _ _
@[simp] theorem State.tallyAt_fwWritten : (s.tallyAt t p ring unit event status lo hi).fwWritten = s.fwWritten := State.with_tallies_fwWritten s _ _ _
@[simp] theorem State.tallyAt_fwFresh : (s.tallyAt t p ring unit event status lo hi).fwFresh = s.fwFresh := State.with_tallies_fwFresh s _ _ _
@[simp] theorem State.tallyAt_mboxStage : (s.tallyAt t p ring unit event status lo hi).mboxStage = s.mboxStage := State.with_tallies_mboxStage s _ _ _
@[simp] theorem State.tallyAt_act : (s.tallyAt t p ring unit event status lo hi).act = s.act := State.with_tallies_act s _ _ _
@[simp] theorem State.tallyAt_roll : (s.tallyAt t p ring unit event status lo hi).roll = s.roll := State.with_tallies_roll s _ _ _
@[simp] theorem State.tallyAt_mpRestart : (s.tallyAt t p ring unit event status lo hi).mpRestart = s.mpRestart := State.with_tallies_mpRestart s _ _ _
@[simp] theorem State.tallyAt_pldm : (s.tallyAt t p ring unit event status lo hi).pldm = s.pldm := State.with_tallies_pldm s _ _ _
@[simp] theorem State.tallyAt_spdm : (s.tallyAt t p ring unit event status lo hi).spdm = s.spdm := State.with_tallies_spdm s _ _ _
@[simp] theorem State.tallyAt_sessions : (s.tallyAt t p ring unit event status lo hi).sessions = s.sessions := State.with_tallies_sessions s _ _ _
@[simp] theorem State.tallyAt_sessionNext : (s.tallyAt t p ring unit event status lo hi).sessionNext = s.sessionNext := State.with_tallies_sessionNext s _ _ _
@[simp] theorem State.tallyAt_signatures : (s.tallyAt t p ring unit event status lo hi).signatures = s.signatures := State.with_tallies_signatures s _ _ _
@[simp] theorem State.tallyAt_mgmt : (s.tallyAt t p ring unit event status lo hi).mgmt = s.mgmt := State.with_tallies_mgmt s _ _ _
@[simp] theorem State.tallyAt_fuses : (s.tallyAt t p ring unit event status lo hi).fuses = s.fuses := State.with_tallies_fuses s _ _ _
@[simp] theorem State.tallyAt_spares : (s.tallyAt t p ring unit event status lo hi).spares = s.spares := State.with_tallies_spares s _ _ _
@[simp] theorem State.tallyAt_freeCtr : (s.tallyAt t p ring unit event status lo hi).freeCtr = s.freeCtr := State.with_tallies_freeCtr s _ _ _
@[simp] theorem State.tallyAt_pending : (s.tallyAt t p ring unit event status lo hi).pending = s.pending := State.with_tallies_pending s _ _ _

/-! ## setQ -/

@[simp] theorem State.setQ_mem : (s.setQ u q).mem = s.mem := (State.setReg_mem _ _ _ _).trans (State.with_queues_mem s _)
@[simp] theorem State.setQ_bufs : (s.setQ u q).bufs = s.bufs := (State.setReg_bufs _ _ _ _).trans (State.with_queues_bufs s _)
@[simp] theorem State.setQ_ft : (s.setQ u q).ft = s.ft := (State.setReg_ft _ _ _ _).trans (State.with_queues_ft s _)
@[simp] theorem State.setQ_skew : (s.setQ u q).skew = s.skew := (State.setReg_skew _ _ _ _).trans (State.with_queues_skew s _)
@[simp] theorem State.setQ_nextId : (s.setQ u q).nextId = s.nextId := (State.setReg_nextId _ _ _ _).trans (State.with_queues_nextId s _)
@[simp] theorem State.setQ_adds : (s.setQ u q).adds = s.adds := (State.setReg_adds _ _ _ _).trans (State.with_queues_adds s _)
@[simp] theorem State.setQ_markStamp : (s.setQ u q).markStamp = s.markStamp := (State.setReg_markStamp _ _ _ _).trans (State.with_queues_markStamp s _)
@[simp] theorem State.setQ_tallies : (s.setQ u q).tallies = s.tallies := (State.setReg_tallies _ _ _ _).trans (State.with_queues_tallies s _)
@[simp] theorem State.setQ_msgNext : (s.setQ u q).msgNext = s.msgNext := (State.setReg_msgNext _ _ _ _).trans (State.with_queues_msgNext s _)
@[simp] theorem State.setQ_seqs : (s.setQ u q).seqs = s.seqs := (State.setReg_seqs _ _ _ _).trans (State.with_queues_seqs s _)
@[simp] theorem State.setQ_rings : (s.setQ u q).rings = s.rings := (State.setReg_rings _ _ _ _).trans (State.with_queues_rings s _)
@[simp] theorem State.setQ_ringWaits : (s.setQ u q).ringWaits = s.ringWaits := (State.setReg_ringWaits _ _ _ _).trans (State.with_queues_ringWaits s _)
@[simp] theorem State.setQ_ringResets : (s.setQ u q).ringResets = s.ringResets := (State.setReg_ringResets _ _ _ _).trans (State.with_queues_ringResets s _)
@[simp] theorem State.setQ_gangs : (s.setQ u q).gangs = s.gangs := (State.setReg_gangs _ _ _ _).trans (State.with_queues_gangs s _)
@[simp] theorem State.setQ_launches : (s.setQ u q).launches = s.launches := (State.setReg_launches _ _ _ _).trans (State.with_queues_launches s _)
@[simp] theorem State.setQ_icache : (s.setQ u q).icache = s.icache := (State.setReg_icache _ _ _ _).trans (State.with_queues_icache s _)
@[simp] theorem State.setQ_ifills : (s.setQ u q).ifills = s.ifills := (State.setReg_ifills _ _ _ _).trans (State.with_queues_ifills s _)
@[simp] theorem State.setQ_upd : (s.setQ u q).upd = s.upd := (State.setReg_upd _ _ _ _).trans (State.with_queues_upd s _)
@[simp] theorem State.setQ_updPend : (s.setQ u q).updPend = s.updPend := (State.setReg_updPend _ _ _ _).trans (State.with_queues_updPend s _)
@[simp] theorem State.setQ_ctxs : (s.setQ u q).ctxs = s.ctxs := (State.setReg_ctxs _ _ _ _).trans (State.with_queues_ctxs s _)
@[simp] theorem State.setQ_seqSlots : (s.setQ u q).seqSlots = s.seqSlots := (State.setReg_seqSlots _ _ _ _).trans (State.with_queues_seqSlots s _)
@[simp] theorem State.setQ_tlb : (s.setQ u q).tlb = s.tlb := (State.setReg_tlb _ _ _ _).trans (State.with_queues_tlb s _)
@[simp] theorem State.setQ_xltInv : (s.setQ u q).xltInv = s.xltInv := (State.setReg_xltInv _ _ _ _).trans (State.with_queues_xltInv s _)
@[simp] theorem State.setQ_rdc : (s.setQ u q).rdc = s.rdc := (State.setReg_rdc _ _ _ _).trans (State.with_queues_rdc s _)
@[simp] theorem State.setQ_rdcFills : (s.setQ u q).rdcFills = s.rdcFills := (State.setReg_rdcFills _ _ _ _).trans (State.with_queues_rdcFills s _)
@[simp] theorem State.setQ_scrubHits : (s.setQ u q).scrubHits = s.scrubHits := (State.setReg_scrubHits _ _ _ _).trans (State.with_queues_scrubHits s _)
@[simp] theorem State.setQ_carry : (s.setQ u q).carry = s.carry := (State.setReg_carry _ _ _ _).trans (State.with_queues_carry s _)
@[simp] theorem State.setQ_active : (s.setQ u q).active = s.active := (State.setReg_active _ _ _ _).trans (State.with_queues_active s _)
@[simp] theorem State.setQ_roles : (s.setQ u q).roles = s.roles := (State.setReg_roles _ _ _ _).trans (State.with_queues_roles s _)
@[simp] theorem State.setQ_standby : (s.setQ u q).standby = s.standby := (State.setReg_standby _ _ _ _).trans (State.with_queues_standby s _)
@[simp] theorem State.setQ_swap : (s.setQ u q).swap = s.swap := (State.setReg_swap _ _ _ _).trans (State.with_queues_swap s _)
@[simp] theorem State.setQ_msix : (s.setQ u q).msix = s.msix := (State.setReg_msix _ _ _ _).trans (State.with_queues_msix s _)
@[simp] theorem State.setQ_msixPend : (s.setQ u q).msixPend = s.msixPend := (State.setReg_msixPend _ _ _ _).trans (State.with_queues_msixPend s _)
@[simp] theorem State.setQ_sent : (s.setQ u q).sent = s.sent := (State.setReg_sent _ _ _ _).trans (State.with_queues_sent s _)
@[simp] theorem State.setQ_load : (s.setQ u q).load = s.load := (State.setReg_load _ _ _ _).trans (State.with_queues_load s _)
@[simp] theorem State.setQ_repairs : (s.setQ u q).repairs = s.repairs := (State.setReg_repairs _ _ _ _).trans (State.with_queues_repairs s _)
@[simp] theorem State.setQ_sinceLoad : (s.setQ u q).sinceLoad = s.sinceLoad := (State.setReg_sinceLoad _ _ _ _).trans (State.with_queues_sinceLoad s _)
@[simp] theorem State.setQ_net : (s.setQ u q).net = s.net := (State.setReg_net _ _ _ _).trans (State.with_queues_net s _)
@[simp] theorem State.setQ_clu : (s.setQ u q).clu = s.clu := (State.setReg_clu _ _ _ _).trans (State.with_queues_clu s _)
@[simp] theorem State.setQ_frameFails : (s.setQ u q).frameFails = s.frameFails := (State.setReg_frameFails _ _ _ _).trans (State.with_queues_frameFails s _)
@[simp] theorem State.setQ_nextShift : (s.setQ u q).nextShift = s.nextShift := (State.setReg_nextShift _ _ _ _).trans (State.with_queues_nextShift s _)
@[simp] theorem State.setQ_phaseOn : (s.setQ u q).phaseOn = s.phaseOn := (State.setReg_phaseOn _ _ _ _).trans (State.with_queues_phaseOn s _)
@[simp] theorem State.setQ_plan : (s.setQ u q).plan = s.plan := (State.setReg_plan _ _ _ _).trans (State.with_queues_plan s _)
@[simp] theorem State.setQ_deputies : (s.setQ u q).deputies = s.deputies := (State.setReg_deputies _ _ _ _).trans (State.with_queues_deputies s _)
@[simp] theorem State.setQ_transitHold : (s.setQ u q).transitHold = s.transitHold := (State.setReg_transitHold _ _ _ _).trans (State.with_queues_transitHold s _)
@[simp] theorem State.setQ_schedAt : (s.setQ u q).schedAt = s.schedAt := (State.setReg_schedAt _ _ _ _).trans (State.with_queues_schedAt s _)
@[simp] theorem State.setQ_schedPrev : (s.setQ u q).schedPrev = s.schedPrev := (State.setReg_schedPrev _ _ _ _).trans (State.with_queues_schedPrev s _)
@[simp] theorem State.setQ_pps : (s.setQ u q).pps = s.pps := (State.setReg_pps _ _ _ _).trans (State.with_queues_pps s _)
@[simp] theorem State.setQ_syncAt : (s.setQ u q).syncAt = s.syncAt := (State.setReg_syncAt _ _ _ _).trans (State.with_queues_syncAt s _)
@[simp] theorem State.setQ_slackRuns : (s.setQ u q).slackRuns = s.slackRuns := (State.setReg_slackRuns _ _ _ _).trans (State.with_queues_slackRuns s _)
@[simp] theorem State.setQ_slacks : (s.setQ u q).slacks = s.slacks := (State.setReg_slacks _ _ _ _).trans (State.with_queues_slacks s _)
@[simp] theorem State.setQ_bulk : (s.setQ u q).bulk = s.bulk := (State.setReg_bulk _ _ _ _).trans (State.with_queues_bulk s _)
@[simp] theorem State.setQ_bulkSeq : (s.setQ u q).bulkSeq = s.bulkSeq := (State.setReg_bulkSeq _ _ _ _).trans (State.with_queues_bulkSeq s _)
@[simp] theorem State.setQ_netWant : (s.setQ u q).netWant = s.netWant := (State.setReg_netWant _ _ _ _).trans (State.with_queues_netWant s _)
@[simp] theorem State.setQ_ports : (s.setQ u q).ports = s.ports := (State.setReg_ports _ _ _ _).trans (State.with_queues_ports s _)
@[simp] theorem State.setQ_wire : (s.setQ u q).wire = s.wire := (State.setReg_wire _ _ _ _).trans (State.with_queues_wire s _)
@[simp] theorem State.setQ_lsdb : (s.setQ u q).lsdb = s.lsdb := (State.setReg_lsdb _ _ _ _).trans (State.with_queues_lsdb s _)
@[simp] theorem State.setQ_lsaSeq : (s.setQ u q).lsaSeq = s.lsaSeq := (State.setReg_lsaSeq _ _ _ _).trans (State.with_queues_lsaSeq s _)
@[simp] theorem State.setQ_lsaAt : (s.setQ u q).lsaAt = s.lsaAt := (State.setReg_lsaAt _ _ _ _).trans (State.with_queues_lsaAt s _)
@[simp] theorem State.setQ_certs : (s.setQ u q).certs = s.certs := (State.setReg_certs _ _ _ _).trans (State.with_queues_certs s _)
@[simp] theorem State.setQ_bookAt : (s.setQ u q).bookAt = s.bookAt := (State.setReg_bookAt _ _ _ _).trans (State.with_queues_bookAt s _)
@[simp] theorem State.setQ_taken : (s.setQ u q).taken = s.taken := (State.setReg_taken _ _ _ _).trans (State.with_queues_taken s _)
@[simp] theorem State.setQ_xferNext : (s.setQ u q).xferNext = s.xferNext := (State.setReg_xferNext _ _ _ _).trans (State.with_queues_xferNext s _)
@[simp] theorem State.setQ_offers : (s.setQ u q).offers = s.offers := (State.setReg_offers _ _ _ _).trans (State.with_queues_offers s _)
@[simp] theorem State.setQ_transfers : (s.setQ u q).transfers = s.transfers := (State.setReg_transfers _ _ _ _).trans (State.with_queues_transfers s _)
@[simp] theorem State.setQ_xferEnds : (s.setQ u q).xferEnds = s.xferEnds := (State.setReg_xferEnds _ _ _ _).trans (State.with_queues_xferEnds s _)
@[simp] theorem State.setQ_incoming : (s.setQ u q).incoming = s.incoming := (State.setReg_incoming _ _ _ _).trans (State.with_queues_incoming s _)
@[simp] theorem State.setQ_offerNext : (s.setQ u q).offerNext = s.offerNext := (State.setReg_offerNext _ _ _ _).trans (State.with_queues_offerNext s _)
@[simp] theorem State.setQ_elect : (s.setQ u q).elect = s.elect := (State.setReg_elect _ _ _ _).trans (State.with_queues_elect s _)
@[simp] theorem State.setQ_lands : (s.setQ u q).lands = s.lands := (State.setReg_lands _ _ _ _).trans (State.with_queues_lands s _)
@[simp] theorem State.setQ_colls : (s.setQ u q).colls = s.colls := (State.setReg_colls _ _ _ _).trans (State.with_queues_colls s _)
@[simp] theorem State.setQ_lamps : (s.setQ u q).lamps = s.lamps := (State.setReg_lamps _ _ _ _).trans (State.with_queues_lamps s _)
@[simp] theorem State.setQ_tracked : (s.setQ u q).tracked = s.tracked := (State.setReg_tracked _ _ _ _).trans (State.with_queues_tracked s _)
@[simp] theorem State.setQ_snoops : (s.setQ u q).snoops = s.snoops := (State.setReg_snoops _ _ _ _).trans (State.with_queues_snoops s _)
@[simp] theorem State.setQ_snoopDead : (s.setQ u q).snoopDead = s.snoopDead := (State.setReg_snoopDead _ _ _ _).trans (State.with_queues_snoopDead s _)
@[simp] theorem State.setQ_reply : (s.setQ u q).reply = s.reply := (State.setReg_reply _ _ _ _).trans (State.with_queues_reply s _)
@[simp] theorem State.setQ_mbox : (s.setQ u q).mbox = s.mbox := (State.setReg_mbox _ _ _ _).trans (State.with_queues_mbox s _)
@[simp] theorem State.setQ_hdmBase : (s.setQ u q).hdmBase = s.hdmBase := (State.setReg_hdmBase _ _ _ _).trans (State.with_queues_hdmBase s _)
@[simp] theorem State.setQ_ideKeys : (s.setQ u q).ideKeys = s.ideKeys := (State.setReg_ideKeys _ _ _ _).trans (State.with_queues_ideKeys s _)
@[simp] theorem State.setQ_power : (s.setQ u q).power = s.power := (State.setReg_power _ _ _ _).trans (State.with_queues_power s _)
@[simp] theorem State.setQ_samples : (s.setQ u q).samples = s.samples := (State.setReg_samples _ _ _ _).trans (State.with_queues_samples s _)
@[simp] theorem State.setQ_genState : (s.setQ u q).genState = s.genState := (State.setReg_genState _ _ _ _).trans (State.with_queues_genState s _)
@[simp] theorem State.setQ_genSeed : (s.setQ u q).genSeed = s.genSeed := (State.setReg_genSeed _ _ _ _).trans (State.with_queues_genSeed s _)
@[simp] theorem State.setQ_canaries : (s.setQ u q).canaries = s.canaries := (State.setReg_canaries _ _ _ _).trans (State.with_queues_canaries s _)
@[simp] theorem State.setQ_canaryNext : (s.setQ u q).canaryNext = s.canaryNext := (State.setReg_canaryNext _ _ _ _).trans (State.with_queues_canaryNext s _)
@[simp] theorem State.setQ_canaryCycle : (s.setQ u q).canaryCycle = s.canaryCycle := (State.setReg_canaryCycle _ _ _ _).trans (State.with_queues_canaryCycle s _)
@[simp] theorem State.setQ_transientTimes : (s.setQ u q).transientTimes = s.transientTimes := (State.setReg_transientTimes _ _ _ _).trans (State.with_queues_transientTimes s _)
@[simp] theorem State.setQ_reports : (s.setQ u q).reports = s.reports := (State.setReg_reports _ _ _ _).trans (State.with_queues_reports s _)
@[simp] theorem State.setQ_reportCount : (s.setQ u q).reportCount = s.reportCount := (State.setReg_reportCount _ _ _ _).trans (State.with_queues_reportCount s _)
@[simp] theorem State.setQ_log : (s.setQ u q).log = s.log := (State.setReg_log _ _ _ _).trans (State.with_queues_log s _)
@[simp] theorem State.setQ_retireFlash : (s.setQ u q).retireFlash = s.retireFlash := (State.setReg_retireFlash _ _ _ _).trans (State.with_queues_retireFlash s _)
@[simp] theorem State.setQ_retirePend : (s.setQ u q).retirePend = s.retirePend := (State.setReg_retirePend _ _ _ _).trans (State.with_queues_retirePend s _)
@[simp] theorem State.setQ_softRepair : (s.setQ u q).softRepair = s.softRepair := (State.setReg_softRepair _ _ _ _).trans (State.with_queues_softRepair s _)
@[simp] theorem State.setQ_resets : (s.setQ u q).resets = s.resets := (State.setReg_resets _ _ _ _).trans (State.with_queues_resets s _)
@[simp] theorem State.setQ_board : (s.setQ u q).board = s.board := (State.setReg_board _ _ _ _).trans (State.with_queues_board s _)
@[simp] theorem State.setQ_firstBoot : (s.setQ u q).firstBoot = s.firstBoot := (State.setReg_firstBoot _ _ _ _).trans (State.with_queues_firstBoot s _)
@[simp] theorem State.setQ_flash : (s.setQ u q).flash = s.flash := (State.setReg_flash _ _ _ _).trans (State.with_queues_flash s _)
@[simp] theorem State.setQ_up : (s.setQ u q).up = s.up := (State.setReg_up _ _ _ _).trans (State.with_queues_up s _)
@[simp] theorem State.setQ_onAt : (s.setQ u q).onAt = s.onAt := (State.setReg_onAt _ _ _ _).trans (State.with_queues_onAt s _)
@[simp] theorem State.setQ_heldLoad : (s.setQ u q).heldLoad = s.heldLoad := (State.setReg_heldLoad _ _ _ _).trans (State.with_queues_heldLoad s _)
@[simp] theorem State.setQ_bootAt : (s.setQ u q).bootAt = s.bootAt := (State.setReg_bootAt _ _ _ _).trans (State.with_queues_bootAt s _)
@[simp] theorem State.setQ_testDue : (s.setQ u q).testDue = s.testDue := (State.setReg_testDue _ _ _ _).trans (State.with_queues_testDue s _)
@[simp] theorem State.setQ_lifeBase : (s.setQ u q).lifeBase = s.lifeBase := (State.setReg_lifeBase _ _ _ _).trans (State.with_queues_lifeBase s _)
@[simp] theorem State.setQ_secBase : (s.setQ u q).secBase = s.secBase := (State.setReg_secBase _ _ _ _).trans (State.with_queues_secBase s _)
@[simp] theorem State.setQ_resetWaits : (s.setQ u q).resetWaits = s.resetWaits := (State.setReg_resetWaits _ _ _ _).trans (State.with_queues_resetWaits s _)
@[simp] theorem State.setQ_fw : (s.setQ u q).fw = s.fw := (State.setReg_fw _ _ _ _).trans (State.with_queues_fw s _)
@[simp] theorem State.setQ_fwWritten : (s.setQ u q).fwWritten = s.fwWritten := (State.setReg_fwWritten _ _ _ _).trans (State.with_queues_fwWritten s _)
@[simp] theorem State.setQ_fwFresh : (s.setQ u q).fwFresh = s.fwFresh := (State.setReg_fwFresh _ _ _ _).trans (State.with_queues_fwFresh s _)
@[simp] theorem State.setQ_mboxStage : (s.setQ u q).mboxStage = s.mboxStage := (State.setReg_mboxStage _ _ _ _).trans (State.with_queues_mboxStage s _)
@[simp] theorem State.setQ_act : (s.setQ u q).act = s.act := (State.setReg_act _ _ _ _).trans (State.with_queues_act s _)
@[simp] theorem State.setQ_roll : (s.setQ u q).roll = s.roll := (State.setReg_roll _ _ _ _).trans (State.with_queues_roll s _)
@[simp] theorem State.setQ_mpRestart : (s.setQ u q).mpRestart = s.mpRestart := (State.setReg_mpRestart _ _ _ _).trans (State.with_queues_mpRestart s _)
@[simp] theorem State.setQ_pldm : (s.setQ u q).pldm = s.pldm := (State.setReg_pldm _ _ _ _).trans (State.with_queues_pldm s _)
@[simp] theorem State.setQ_spdm : (s.setQ u q).spdm = s.spdm := (State.setReg_spdm _ _ _ _).trans (State.with_queues_spdm s _)
@[simp] theorem State.setQ_sessions : (s.setQ u q).sessions = s.sessions := (State.setReg_sessions _ _ _ _).trans (State.with_queues_sessions s _)
@[simp] theorem State.setQ_sessionNext : (s.setQ u q).sessionNext = s.sessionNext := (State.setReg_sessionNext _ _ _ _).trans (State.with_queues_sessionNext s _)
@[simp] theorem State.setQ_signatures : (s.setQ u q).signatures = s.signatures := (State.setReg_signatures _ _ _ _).trans (State.with_queues_signatures s _)
@[simp] theorem State.setQ_mgmt : (s.setQ u q).mgmt = s.mgmt := (State.setReg_mgmt _ _ _ _).trans (State.with_queues_mgmt s _)
@[simp] theorem State.setQ_fuses : (s.setQ u q).fuses = s.fuses := (State.setReg_fuses _ _ _ _).trans (State.with_queues_fuses s _)
@[simp] theorem State.setQ_spares : (s.setQ u q).spares = s.spares := (State.setReg_spares _ _ _ _).trans (State.with_queues_spares s _)
@[simp] theorem State.setQ_freeCtr : (s.setQ u q).freeCtr = s.freeCtr := (State.setReg_freeCtr _ _ _ _).trans (State.with_queues_freeCtr s _)
@[simp] theorem State.setQ_pending : (s.setQ u q).pending = s.pending := (State.setReg_pending _ _ _ _).trans (State.with_queues_pending s _)

/-! ## settle -/

@[simp] theorem settle_mem : (settle s).mem = s.mem := (State.with_board_mem _ _).trans (State.setReg_mem s _ _ _)
@[simp] theorem settle_bufs : (settle s).bufs = s.bufs := (State.with_board_bufs _ _).trans (State.setReg_bufs s _ _ _)
@[simp] theorem settle_ft : (settle s).ft = s.ft := (State.with_board_ft _ _).trans (State.setReg_ft s _ _ _)
@[simp] theorem settle_skew : (settle s).skew = s.skew := (State.with_board_skew _ _).trans (State.setReg_skew s _ _ _)
@[simp] theorem settle_queues : (settle s).queues = s.queues := (State.with_board_queues _ _).trans (State.setReg_queues s _ _ _)
@[simp] theorem settle_nextId : (settle s).nextId = s.nextId := (State.with_board_nextId _ _).trans (State.setReg_nextId s _ _ _)
@[simp] theorem settle_adds : (settle s).adds = s.adds := (State.with_board_adds _ _).trans (State.setReg_adds s _ _ _)
@[simp] theorem settle_markStamp : (settle s).markStamp = s.markStamp := (State.with_board_markStamp _ _).trans (State.setReg_markStamp s _ _ _)
@[simp] theorem settle_tallies : (settle s).tallies = s.tallies := (State.with_board_tallies _ _).trans (State.setReg_tallies s _ _ _)
@[simp] theorem settle_msgNext : (settle s).msgNext = s.msgNext := (State.with_board_msgNext _ _).trans (State.setReg_msgNext s _ _ _)
@[simp] theorem settle_seqs : (settle s).seqs = s.seqs := (State.with_board_seqs _ _).trans (State.setReg_seqs s _ _ _)
@[simp] theorem settle_rings : (settle s).rings = s.rings := (State.with_board_rings _ _).trans (State.setReg_rings s _ _ _)
@[simp] theorem settle_ringWaits : (settle s).ringWaits = s.ringWaits := (State.with_board_ringWaits _ _).trans (State.setReg_ringWaits s _ _ _)
@[simp] theorem settle_ringResets : (settle s).ringResets = s.ringResets := (State.with_board_ringResets _ _).trans (State.setReg_ringResets s _ _ _)
@[simp] theorem settle_gangs : (settle s).gangs = s.gangs := (State.with_board_gangs _ _).trans (State.setReg_gangs s _ _ _)
@[simp] theorem settle_launches : (settle s).launches = s.launches := (State.with_board_launches _ _).trans (State.setReg_launches s _ _ _)
@[simp] theorem settle_icache : (settle s).icache = s.icache := (State.with_board_icache _ _).trans (State.setReg_icache s _ _ _)
@[simp] theorem settle_ifills : (settle s).ifills = s.ifills := (State.with_board_ifills _ _).trans (State.setReg_ifills s _ _ _)
@[simp] theorem settle_upd : (settle s).upd = s.upd := (State.with_board_upd _ _).trans (State.setReg_upd s _ _ _)
@[simp] theorem settle_updPend : (settle s).updPend = s.updPend := (State.with_board_updPend _ _).trans (State.setReg_updPend s _ _ _)
@[simp] theorem settle_ctxs : (settle s).ctxs = s.ctxs := (State.with_board_ctxs _ _).trans (State.setReg_ctxs s _ _ _)
@[simp] theorem settle_seqSlots : (settle s).seqSlots = s.seqSlots := (State.with_board_seqSlots _ _).trans (State.setReg_seqSlots s _ _ _)
@[simp] theorem settle_tlb : (settle s).tlb = s.tlb := (State.with_board_tlb _ _).trans (State.setReg_tlb s _ _ _)
@[simp] theorem settle_xltInv : (settle s).xltInv = s.xltInv := (State.with_board_xltInv _ _).trans (State.setReg_xltInv s _ _ _)
@[simp] theorem settle_rdc : (settle s).rdc = s.rdc := (State.with_board_rdc _ _).trans (State.setReg_rdc s _ _ _)
@[simp] theorem settle_rdcFills : (settle s).rdcFills = s.rdcFills := (State.with_board_rdcFills _ _).trans (State.setReg_rdcFills s _ _ _)
@[simp] theorem settle_scrubHits : (settle s).scrubHits = s.scrubHits := (State.with_board_scrubHits _ _).trans (State.setReg_scrubHits s _ _ _)
@[simp] theorem settle_carry : (settle s).carry = s.carry := (State.with_board_carry _ _).trans (State.setReg_carry s _ _ _)
@[simp] theorem settle_active : (settle s).active = s.active := (State.with_board_active _ _).trans (State.setReg_active s _ _ _)
@[simp] theorem settle_roles : (settle s).roles = s.roles := (State.with_board_roles _ _).trans (State.setReg_roles s _ _ _)
@[simp] theorem settle_standby : (settle s).standby = s.standby := (State.with_board_standby _ _).trans (State.setReg_standby s _ _ _)
@[simp] theorem settle_swap : (settle s).swap = s.swap := (State.with_board_swap _ _).trans (State.setReg_swap s _ _ _)
@[simp] theorem settle_msix : (settle s).msix = s.msix := (State.with_board_msix _ _).trans (State.setReg_msix s _ _ _)
@[simp] theorem settle_msixPend : (settle s).msixPend = s.msixPend := (State.with_board_msixPend _ _).trans (State.setReg_msixPend s _ _ _)
@[simp] theorem settle_sent : (settle s).sent = s.sent := (State.with_board_sent _ _).trans (State.setReg_sent s _ _ _)
@[simp] theorem settle_load : (settle s).load = s.load := (State.with_board_load _ _).trans (State.setReg_load s _ _ _)
@[simp] theorem settle_repairs : (settle s).repairs = s.repairs := (State.with_board_repairs _ _).trans (State.setReg_repairs s _ _ _)
@[simp] theorem settle_sinceLoad : (settle s).sinceLoad = s.sinceLoad := (State.with_board_sinceLoad _ _).trans (State.setReg_sinceLoad s _ _ _)
@[simp] theorem settle_net : (settle s).net = s.net := (State.with_board_net _ _).trans (State.setReg_net s _ _ _)
@[simp] theorem settle_clu : (settle s).clu = s.clu := (State.with_board_clu _ _).trans (State.setReg_clu s _ _ _)
@[simp] theorem settle_frameFails : (settle s).frameFails = s.frameFails := (State.with_board_frameFails _ _).trans (State.setReg_frameFails s _ _ _)
@[simp] theorem settle_nextShift : (settle s).nextShift = s.nextShift := (State.with_board_nextShift _ _).trans (State.setReg_nextShift s _ _ _)
@[simp] theorem settle_phaseOn : (settle s).phaseOn = s.phaseOn := (State.with_board_phaseOn _ _).trans (State.setReg_phaseOn s _ _ _)
@[simp] theorem settle_plan : (settle s).plan = s.plan := (State.with_board_plan _ _).trans (State.setReg_plan s _ _ _)
@[simp] theorem settle_deputies : (settle s).deputies = s.deputies := (State.with_board_deputies _ _).trans (State.setReg_deputies s _ _ _)
@[simp] theorem settle_transitHold : (settle s).transitHold = s.transitHold := (State.with_board_transitHold _ _).trans (State.setReg_transitHold s _ _ _)
@[simp] theorem settle_schedAt : (settle s).schedAt = s.schedAt := (State.with_board_schedAt _ _).trans (State.setReg_schedAt s _ _ _)
@[simp] theorem settle_schedPrev : (settle s).schedPrev = s.schedPrev := (State.with_board_schedPrev _ _).trans (State.setReg_schedPrev s _ _ _)
@[simp] theorem settle_pps : (settle s).pps = s.pps := (State.with_board_pps _ _).trans (State.setReg_pps s _ _ _)
@[simp] theorem settle_syncAt : (settle s).syncAt = s.syncAt := (State.with_board_syncAt _ _).trans (State.setReg_syncAt s _ _ _)
@[simp] theorem settle_slackRuns : (settle s).slackRuns = s.slackRuns := (State.with_board_slackRuns _ _).trans (State.setReg_slackRuns s _ _ _)
@[simp] theorem settle_slacks : (settle s).slacks = s.slacks := (State.with_board_slacks _ _).trans (State.setReg_slacks s _ _ _)
@[simp] theorem settle_bulk : (settle s).bulk = s.bulk := (State.with_board_bulk _ _).trans (State.setReg_bulk s _ _ _)
@[simp] theorem settle_bulkSeq : (settle s).bulkSeq = s.bulkSeq := (State.with_board_bulkSeq _ _).trans (State.setReg_bulkSeq s _ _ _)
@[simp] theorem settle_netWant : (settle s).netWant = s.netWant := (State.with_board_netWant _ _).trans (State.setReg_netWant s _ _ _)
@[simp] theorem settle_ports : (settle s).ports = s.ports := (State.with_board_ports _ _).trans (State.setReg_ports s _ _ _)
@[simp] theorem settle_wire : (settle s).wire = s.wire := (State.with_board_wire _ _).trans (State.setReg_wire s _ _ _)
@[simp] theorem settle_lsdb : (settle s).lsdb = s.lsdb := (State.with_board_lsdb _ _).trans (State.setReg_lsdb s _ _ _)
@[simp] theorem settle_lsaSeq : (settle s).lsaSeq = s.lsaSeq := (State.with_board_lsaSeq _ _).trans (State.setReg_lsaSeq s _ _ _)
@[simp] theorem settle_lsaAt : (settle s).lsaAt = s.lsaAt := (State.with_board_lsaAt _ _).trans (State.setReg_lsaAt s _ _ _)
@[simp] theorem settle_certs : (settle s).certs = s.certs := (State.with_board_certs _ _).trans (State.setReg_certs s _ _ _)
@[simp] theorem settle_bookAt : (settle s).bookAt = s.bookAt := (State.with_board_bookAt _ _).trans (State.setReg_bookAt s _ _ _)
@[simp] theorem settle_taken : (settle s).taken = s.taken := (State.with_board_taken _ _).trans (State.setReg_taken s _ _ _)
@[simp] theorem settle_xferNext : (settle s).xferNext = s.xferNext := (State.with_board_xferNext _ _).trans (State.setReg_xferNext s _ _ _)
@[simp] theorem settle_offers : (settle s).offers = s.offers := (State.with_board_offers _ _).trans (State.setReg_offers s _ _ _)
@[simp] theorem settle_transfers : (settle s).transfers = s.transfers := (State.with_board_transfers _ _).trans (State.setReg_transfers s _ _ _)
@[simp] theorem settle_xferEnds : (settle s).xferEnds = s.xferEnds := (State.with_board_xferEnds _ _).trans (State.setReg_xferEnds s _ _ _)
@[simp] theorem settle_incoming : (settle s).incoming = s.incoming := (State.with_board_incoming _ _).trans (State.setReg_incoming s _ _ _)
@[simp] theorem settle_offerNext : (settle s).offerNext = s.offerNext := (State.with_board_offerNext _ _).trans (State.setReg_offerNext s _ _ _)
@[simp] theorem settle_elect : (settle s).elect = s.elect := (State.with_board_elect _ _).trans (State.setReg_elect s _ _ _)
@[simp] theorem settle_lands : (settle s).lands = s.lands := (State.with_board_lands _ _).trans (State.setReg_lands s _ _ _)
@[simp] theorem settle_colls : (settle s).colls = s.colls := (State.with_board_colls _ _).trans (State.setReg_colls s _ _ _)
@[simp] theorem settle_lamps : (settle s).lamps = s.lamps := (State.with_board_lamps _ _).trans (State.setReg_lamps s _ _ _)
@[simp] theorem settle_tracked : (settle s).tracked = s.tracked := (State.with_board_tracked _ _).trans (State.setReg_tracked s _ _ _)
@[simp] theorem settle_snoops : (settle s).snoops = s.snoops := (State.with_board_snoops _ _).trans (State.setReg_snoops s _ _ _)
@[simp] theorem settle_snoopDead : (settle s).snoopDead = s.snoopDead := (State.with_board_snoopDead _ _).trans (State.setReg_snoopDead s _ _ _)
@[simp] theorem settle_reply : (settle s).reply = s.reply := (State.with_board_reply _ _).trans (State.setReg_reply s _ _ _)
@[simp] theorem settle_mbox : (settle s).mbox = s.mbox := (State.with_board_mbox _ _).trans (State.setReg_mbox s _ _ _)
@[simp] theorem settle_hdmBase : (settle s).hdmBase = s.hdmBase := (State.with_board_hdmBase _ _).trans (State.setReg_hdmBase s _ _ _)
@[simp] theorem settle_ideKeys : (settle s).ideKeys = s.ideKeys := (State.with_board_ideKeys _ _).trans (State.setReg_ideKeys s _ _ _)
@[simp] theorem settle_power : (settle s).power = s.power := (State.with_board_power _ _).trans (State.setReg_power s _ _ _)
@[simp] theorem settle_samples : (settle s).samples = s.samples := (State.with_board_samples _ _).trans (State.setReg_samples s _ _ _)
@[simp] theorem settle_genState : (settle s).genState = s.genState := (State.with_board_genState _ _).trans (State.setReg_genState s _ _ _)
@[simp] theorem settle_genSeed : (settle s).genSeed = s.genSeed := (State.with_board_genSeed _ _).trans (State.setReg_genSeed s _ _ _)
@[simp] theorem settle_canaries : (settle s).canaries = s.canaries := (State.with_board_canaries _ _).trans (State.setReg_canaries s _ _ _)
@[simp] theorem settle_canaryNext : (settle s).canaryNext = s.canaryNext := (State.with_board_canaryNext _ _).trans (State.setReg_canaryNext s _ _ _)
@[simp] theorem settle_canaryCycle : (settle s).canaryCycle = s.canaryCycle := (State.with_board_canaryCycle _ _).trans (State.setReg_canaryCycle s _ _ _)
@[simp] theorem settle_transientTimes : (settle s).transientTimes = s.transientTimes := (State.with_board_transientTimes _ _).trans (State.setReg_transientTimes s _ _ _)
@[simp] theorem settle_reports : (settle s).reports = s.reports := (State.with_board_reports _ _).trans (State.setReg_reports s _ _ _)
@[simp] theorem settle_reportCount : (settle s).reportCount = s.reportCount := (State.with_board_reportCount _ _).trans (State.setReg_reportCount s _ _ _)
@[simp] theorem settle_log : (settle s).log = s.log := (State.with_board_log _ _).trans (State.setReg_log s _ _ _)
@[simp] theorem settle_retireFlash : (settle s).retireFlash = s.retireFlash := (State.with_board_retireFlash _ _).trans (State.setReg_retireFlash s _ _ _)
@[simp] theorem settle_retirePend : (settle s).retirePend = s.retirePend := (State.with_board_retirePend _ _).trans (State.setReg_retirePend s _ _ _)
@[simp] theorem settle_softRepair : (settle s).softRepair = s.softRepair := (State.with_board_softRepair _ _).trans (State.setReg_softRepair s _ _ _)
@[simp] theorem settle_resets : (settle s).resets = s.resets := (State.with_board_resets _ _).trans (State.setReg_resets s _ _ _)
@[simp] theorem settle_firstBoot : (settle s).firstBoot = s.firstBoot := (State.with_board_firstBoot _ _).trans (State.setReg_firstBoot s _ _ _)
@[simp] theorem settle_flash : (settle s).flash = s.flash := (State.with_board_flash _ _).trans (State.setReg_flash s _ _ _)
@[simp] theorem settle_up : (settle s).up = s.up := (State.with_board_up _ _).trans (State.setReg_up s _ _ _)
@[simp] theorem settle_onAt : (settle s).onAt = s.onAt := (State.with_board_onAt _ _).trans (State.setReg_onAt s _ _ _)
@[simp] theorem settle_heldLoad : (settle s).heldLoad = s.heldLoad := (State.with_board_heldLoad _ _).trans (State.setReg_heldLoad s _ _ _)
@[simp] theorem settle_bootAt : (settle s).bootAt = s.bootAt := (State.with_board_bootAt _ _).trans (State.setReg_bootAt s _ _ _)
@[simp] theorem settle_testDue : (settle s).testDue = s.testDue := (State.with_board_testDue _ _).trans (State.setReg_testDue s _ _ _)
@[simp] theorem settle_lifeBase : (settle s).lifeBase = s.lifeBase := (State.with_board_lifeBase _ _).trans (State.setReg_lifeBase s _ _ _)
@[simp] theorem settle_secBase : (settle s).secBase = s.secBase := (State.with_board_secBase _ _).trans (State.setReg_secBase s _ _ _)
@[simp] theorem settle_resetWaits : (settle s).resetWaits = s.resetWaits := (State.with_board_resetWaits _ _).trans (State.setReg_resetWaits s _ _ _)
@[simp] theorem settle_fw : (settle s).fw = s.fw := (State.with_board_fw _ _).trans (State.setReg_fw s _ _ _)
@[simp] theorem settle_fwWritten : (settle s).fwWritten = s.fwWritten := (State.with_board_fwWritten _ _).trans (State.setReg_fwWritten s _ _ _)
@[simp] theorem settle_fwFresh : (settle s).fwFresh = s.fwFresh := (State.with_board_fwFresh _ _).trans (State.setReg_fwFresh s _ _ _)
@[simp] theorem settle_mboxStage : (settle s).mboxStage = s.mboxStage := (State.with_board_mboxStage _ _).trans (State.setReg_mboxStage s _ _ _)
@[simp] theorem settle_act : (settle s).act = s.act := (State.with_board_act _ _).trans (State.setReg_act s _ _ _)
@[simp] theorem settle_roll : (settle s).roll = s.roll := (State.with_board_roll _ _).trans (State.setReg_roll s _ _ _)
@[simp] theorem settle_mpRestart : (settle s).mpRestart = s.mpRestart := (State.with_board_mpRestart _ _).trans (State.setReg_mpRestart s _ _ _)
@[simp] theorem settle_pldm : (settle s).pldm = s.pldm := (State.with_board_pldm _ _).trans (State.setReg_pldm s _ _ _)
@[simp] theorem settle_spdm : (settle s).spdm = s.spdm := (State.with_board_spdm _ _).trans (State.setReg_spdm s _ _ _)
@[simp] theorem settle_sessions : (settle s).sessions = s.sessions := (State.with_board_sessions _ _).trans (State.setReg_sessions s _ _ _)
@[simp] theorem settle_sessionNext : (settle s).sessionNext = s.sessionNext := (State.with_board_sessionNext _ _).trans (State.setReg_sessionNext s _ _ _)
@[simp] theorem settle_signatures : (settle s).signatures = s.signatures := (State.with_board_signatures _ _).trans (State.setReg_signatures s _ _ _)
@[simp] theorem settle_mgmt : (settle s).mgmt = s.mgmt := (State.with_board_mgmt _ _).trans (State.setReg_mgmt s _ _ _)
@[simp] theorem settle_fuses : (settle s).fuses = s.fuses := (State.with_board_fuses _ _).trans (State.setReg_fuses s _ _ _)
@[simp] theorem settle_spares : (settle s).spares = s.spares := (State.with_board_spares _ _).trans (State.setReg_spares s _ _ _)
@[simp] theorem settle_freeCtr : (settle s).freeCtr = s.freeCtr := (State.with_board_freeCtr _ _).trans (State.setReg_freeCtr s _ _ _)
@[simp] theorem settle_pending : (settle s).pending = s.pending := (State.with_board_pending _ _).trans (State.setReg_pending s _ _ _)

end Sys2Proof.Machine
end

