-- ==== Sys2Proof/Laws/Ops.lean ====
section
/-! SUPPORT. For each shared operation, once, all that it can do: interrupts, sticky records, reports, free values, the board
outputs that end every event, and the outcome of an event. -/

namespace Sys2Proof.Machine

/-! ## Interrupts -/

/-- A message on a vector is sent or kept pending; nothing else happens. -/
theorem sendVector_eq (s : State) (func vec : Nat) :
    ∃ mp st, s.sendVector func vec = { s with msixPend := mp, sent := st } := by
  unfold State.sendVector
  dsimp only
  split
  · exact ⟨_, s.sent, rfl⟩
  · exact ⟨s.msixPend, _, rfl⟩

/-- An interrupt source reaches the host or is dropped; nothing else happens. -/
theorem raise_eq (s : State) (src : Nat) : ∃ mp st, s.raise src = { s with msixPend := mp, sent := st } := by
  unfold State.raise
  split
  · exact sendVector_eq s _ _
  · exact ⟨s.msixPend, s.sent, rfl⟩

@[simp] theorem raise_reg (s : State) (src : Nat) (r : RegName) (i : Nat) : (s.raise src).reg r i = s.reg r i := by
  obtain ⟨mp, st, h⟩ := raise_eq s src; rw [h]; rfl

@[simp] theorem raise_rd (s : State) (src : Nat) (f : Fld) (i : Nat) : (s.raise src).rd f i = s.rd f i := by
  unfold State.rd; rw [raise_reg]

@[simp] theorem raise_mem (s : State) (src : Nat) : (s.raise src).mem = s.mem := by
  obtain ⟨mp, st, h⟩ := raise_eq s src; rw [h]

@[simp] theorem raise_queues (s : State) (src : Nat) : (s.raise src).queues = s.queues := by
  obtain ⟨mp, st, h⟩ := raise_eq s src; rw [h]

@[simp] theorem raise_tallies (s : State) (src : Nat) : (s.raise src).tallies = s.tallies := by
  obtain ⟨mp, st, h⟩ := raise_eq s src; rw [h]

@[simp] theorem raise_pending (s : State) (src : Nat) : (s.raise src).pending = s.pending := by
  obtain ⟨mp, st, h⟩ := raise_eq s src; rw [h]

/-! ## Reads through updates of other parts -/

theorem reg_of_regs {s t : State} (h : t.regs = s.regs) (r : RegName) (i : Nat) : t.reg r i = s.reg r i := by
  unfold State.reg; rw [h]

theorem rd_of_regs {s t : State} (h : t.regs = s.regs) (f : Fld) (i : Nat) : t.rd f i = s.rd f i := by
  unfold State.rd; rw [reg_of_regs h]

@[simp] theorem tallyAt_reg (s : State) (t p ring unit event status lo hi : Nat) (r : RegName) (i : Nat) :
    (s.tallyAt t p ring unit event status lo hi).reg r i = s.reg r i := reg_of_regs rfl r i

@[simp] theorem tallyAt_rd (s : State) (t p ring unit event status lo hi : Nat) (f : Fld) (i : Nat) :
    (s.tallyAt t p ring unit event status lo hi).rd f i = s.rd f i := rd_of_regs rfl f i

@[simp] theorem setClu_reg (s : State) (c : Nat) (x : Clu) (r : RegName) (i : Nat) : (s.setClu c x).reg r i = s.reg r i :=
  reg_of_regs rfl r i

@[simp] theorem setClu_rd (s : State) (c : Nat) (x : Clu) (f : Fld) (i : Nat) : (s.setClu c x).rd f i = s.rd f i :=
  rd_of_regs rfl f i

/-- A counter in units changes its register alone. -/
theorem reg_incUnit_ne (s : State) (f : Fld) (i u d : Nat) {r : RegName} {j : Nat} (h : r ≠ f.reg ∨ j ≠ i) :
    (s.incUnit f i u d).reg r j = s.reg r j := reg_inc_ne s f i _ h

/-- A queue's content changes its idle bit alone among the registers. -/
theorem reg_setQ_ne (s : State) (u : Nat) (q : Queue) {r : RegName} {j : Nat} (h : r ≠ .qState ∨ j ≠ u) :
    (s.setQ u q).reg r j = s.reg r j := reg_wr_ne _ F.qState_idle u _ h

theorem rd_setQ_of_reg (s : State) (u : Nat) (q : Queue) (f : Fld) (j : Nat) (h : f.reg ≠ .qState) :
    (s.setQ u q).rd f j = s.rd f j := rd_wr_of_reg _ F.qState_idle f u j _ h

theorem rd_setQ_of_bits (s : State) (u : Nat) (q : Queue) (f : Fld) (j : Nat) (h : f.lo + f.len ≤ 2 ∨ 3 ≤ f.lo) :
    (s.setQ u q).rd f j = s.rd f j := rd_wr_of_bits _ F.qState_idle f u j _ (by decide) h

@[simp] theorem q_wr (s : State) (f : Fld) (i v u : Nat) : (s.wr f i v).q u = s.q u := by
  unfold State.q; rw [State.wr_queues]

@[simp] theorem q_setQ_same (s : State) (u : Nat) (q : Queue) : (s.setQ u q).q u = q := by
  unfold State.q
  show mgetD (mputD s.queues u q {}) u {} = q
  simp

theorem q_setQ_ne (s : State) {u u' : Nat} (q : Queue) (h : u' ≠ u) : (s.setQ u q).q u' = s.q u' := by
  unfold State.q
  exact mgetD_mputD_ne _ _ _ _ h

/-! ## Sticky records and reports -/

/-- A chain of field writes changes the register map alone. -/
theorem onlyRegs_wr {s t : State} (h : ∃ rg, t = { s with regs := rg }) (f : Fld) (i v : Nat) :
    ∃ rg, t.wr f i v = { s with regs := rg } := by
  obtain ⟨rg, rfl⟩ := h
  exact ⟨_, by unfold State.wr State.setReg; rfl⟩

theorem onlyRegs_refl (s : State) : ∃ rg, s = { s with regs := rg } := ⟨s.regs, rfl⟩

theorem stick_eq (s : State) (f : Fld) (i p : Nat) :
    ∃ rg mp st, s.stick f i p = { s with regs := rg, msixPend := mp, sent := st } := by
  unfold State.stick
  split
  · exact ⟨s.regs, s.msixPend, s.sent, rfl⟩
  · obtain ⟨mp, st, h⟩ := raise_eq (s.wr f i 1) (72 + p)
    obtain ⟨rg, h'⟩ := onlyRegs_wr (onlyRegs_refl s) f i 1
    exact ⟨rg, mp, st, by rw [h, h']⟩

theorem hfErr_eq (s : State) (bit stack : Nat) : ∃ rg, s.hfErr bit stack = { s with regs := rg } := by
  unfold State.hfErr
  dsimp only
  split
  · exact onlyRegs_wr (onlyRegs_refl s) _ _ _
  · exact onlyRegs_wr (onlyRegs_wr (onlyRegs_wr (onlyRegs_wr (onlyRegs_wr (onlyRegs_refl s) _ _ _) _ _ _) _ _ _) _ _ _) _ _ _

/-- A report of an event gets the next number and stands behind those before it. -/
theorem report_number (s : State) (cause : Nat) (r : Report) :
    (s.report cause r).reportCount = s.reportCount + 1
    ∧ ∃ x, (s.report cause r).reports = s.reports ++ [x] ∧ x.number = s.reportCount + 1 ∧ x.cause = cause
      ∧ x.severity = severityOf cause ∧ x.unit = r.unit ∧ x.ft = r.ft := by
  unfold State.report
  exact ⟨rfl, _, rfl, rfl, rfl, rfl, rfl, rfl⟩

/-- A fresh value comes from the counter, which passes it. -/
@[simp] theorem fresh_fst (s : State) : s.fresh.1 = Config.free s.freeCtr := rfl
@[simp] theorem fresh_snd (s : State) : s.fresh.2 = { s with freeCtr := s.freeCtr + 1 } := rfl

/-! ## The end of an event -/

/-- Every event answers a next state (no event of this block stops). -/
@[simp] theorem finish_eq (s : State) : finish s = .next (settle s) := rfl

/-- The board outputs change HF_BOARD alone among the registers. -/
theorem settle_regs (s : State) : (settle s).regs = (s.setReg .hfBoard 0 s.boardWord).regs := State.with_board_regs _ _

theorem settle_reg (s : State) {r : RegName} (i : Nat) (h : r ≠ .hfBoard) : (settle s).reg r i = s.reg r i := by
  rw [reg_of_regs (settle_regs s)]
  exact reg_setReg_ne s s.boardWord (.inl h)

theorem settle_rd (s : State) (f : Fld) (i : Nat) (h : f.reg ≠ .hfBoard) : (settle s).rd f i = s.rd f i := by
  unfold State.rd; rw [settle_reg s i h]

theorem settle_q (s : State) (u : Nat) : (settle s).q u = s.q u := by unfold State.q; simp

theorem settle_gang (s : State) (k : Nat) : mget (settle s).gangs k = mget s.gangs k := by simp

/-- The sources of the board outputs are other registers than HF_BOARD. -/
theorem alertSrc_settle (s : State) : (settle s).alertSrc = s.alertSrc := by
  unfold State.alertSrc
  simp only [settle_reg s _ (show RegName.hfErrSticky ≠ .hfBoard by decide),
    settle_reg s _ (show RegName.hfPwrSticky ≠ .hfBoard by decide), settle_reg s _ (show RegName.partErrSticky ≠ .hfBoard by decide),
    settle_reg s _ (show RegName.partPwrSticky ≠ .hfBoard by decide), settle_reg s _ (show RegName.lampSticky ≠ .hfBoard by decide),
    settle_rd s F.hfPwrTherm_state 0 (by decide)]

theorem boardWord_lt (s : State) : s.boardWord < 2 ^ 64 := by
  unfold State.boardWord
  exact putBits_lt _ _ _ _ 64 (putBits_lt _ _ _ _ 64 (putBits_lt _ _ _ _ 64 (putBits_lt _ _ _ _ 64 (reg_lt s .hfBoard 0)
    (by decide)) (by decide)) (by decide)) (by decide)

/-- A field of HF_BOARD that the outputs do not write stands. -/
theorem settle_board (s : State) (lo len : Nat) (i : Nat) (h : i = 0) :
    bits ((settle s).reg .hfBoard i) lo len = bits s.boardWord lo len := by
  subst h
  rw [reg_of_regs (settle_regs s), reg_setReg_same, Nat.mod_eq_of_lt (boardWord_lt s)]

theorem alertMask_settle (s : State) : (settle s).rd F.hfBoard_alertMask 0 = s.rd F.hfBoard_alertMask 0 := by
  show bits ((settle s).reg .hfBoard 0) 16 6 = bits (s.reg .hfBoard 0) 16 6
  rw [settle_board s _ _ _ rfl]
  unfold State.boardWord
  rw [bits_putBits_ne _ _ _ _ _ _ (.inl (by decide)), bits_putBits_ne _ _ _ _ _ _ (.inr (by decide)),
    bits_putBits_ne _ _ _ _ _ _ (.inr (by decide)), bits_putBits_ne _ _ _ _ _ _ (.inr (by decide))]

theorem alertNow_settle (s : State) : (settle s).alertNow = s.alertNow := by
  unfold State.alertNow
  rw [alertSrc_settle, alertMask_settle, settle_rd s F.hfFwStatus_recovery 0 (by decide)]

theorem thermNow_settle (s : State) : (settle s).thermNow = s.thermNow := by
  unfold State.thermNow
  rw [settle_rd s F.hfPwrTherm_state 0 (by decide)]

end Sys2Proof.Machine
end

