-- ==== Sys2Proof/Laws/Vector.lean ====
section
/-! SUPPORT. Laws of gangs: registers, lane-wise writes, and what an issued instruction acts on. -/

namespace Sys2Proof.Machine

/-! ## Registers of a gang -/

theorem Gang.vr_setVr (q : Gang) (r l x r' l' : Nat) (hl : l < 16) (hl' : l' < 16) :
    (q.setVr r l x).vr r' l' = if r' = r ∧ l' = l then x % 2 ^ 32 else q.vr r' l' := by
  unfold Gang.setVr Gang.vr
  by_cases h : r' = r ∧ l' = l
  · rw [if_pos h, h.1, h.2]; simp
  · rw [if_neg h]
    exact mgetD_mputD_ne _ _ _ _ (by omega)

theorem Gang.vr_vwrite (q : Gang) (wide : Bool) (r l x r' l' : Nat) (hl : l < 16) (hl' : l' < 16)
    (h : l' ≠ l ∨ (r' ≠ r ∧ (wide = true → r' ≠ r + 1))) : (q.vwrite wide r l x).vr r' l' = q.vr r' l' := by
  unfold Gang.vwrite
  cases wide
  · simp only [Bool.false_eq_true, if_false]
    rw [Gang.vr_setVr _ _ _ _ _ _ hl hl', if_neg]
    rcases h with h | h
    · exact fun e => h e.2
    · exact fun e => h.1 e.1
  · simp only [if_true]
    rw [Gang.vr_setVr _ _ _ _ _ _ hl hl', Gang.vr_setVr _ _ _ _ _ _ hl hl', if_neg, if_neg]
    · rcases h with h | h
      · exact fun e => h e.2
      · exact fun e => h.1 e.1
    · rcases h with h | h
      · exact fun e => h e.2
      · exact fun e => h.2 rfl e.1

theorem Gang.vread_vwrite (q : Gang) (wide : Bool) (r l x : Nat) (hl : l < 16) :
    (q.vwrite wide r l x).vread wide r l = x % 2 ^ (if wide then 64 else 32) := by
  unfold Gang.vwrite Gang.vread
  cases wide
  · simp [Gang.vr_setVr _ _ _ _ _ _ hl hl]
  · simp only [if_true, Gang.vr_setVr _ _ _ _ _ _ hl hl]
    simp
    omega

@[simp] theorem Gang.vwrite_m (q : Gang) (wide : Bool) (r l x : Nat) : (q.vwrite wide r l x).m = q.m := by
  cases wide <;> rfl
@[simp] theorem Gang.vwrite_sr (q : Gang) (wide : Bool) (r l x : Nat) : (q.vwrite wide r l x).sr = q.sr := by
  cases wide <;> rfl
@[simp] theorem Gang.vwrite_pc (q : Gang) (wide : Bool) (r l x : Nat) : (q.vwrite wide r l x).pc = q.pc := by
  cases wide <;> rfl
@[simp] theorem Gang.vwrite_emask (q : Gang) (wide : Bool) (r l x : Nat) : (q.vwrite wide r l x).emask = q.emask := by
  cases wide <;> rfl
@[simp] theorem Gang.vwrite_stack (q : Gang) (wide : Bool) (r l x : Nat) : (q.vwrite wide r l x).stack = q.stack := by
  cases wide <;> rfl
@[simp] theorem Gang.vwrite_launch (q : Gang) (wide : Bool) (r l x : Nat) : (q.vwrite wide r l x).launch = q.launch := by
  cases wide <;> rfl

/-- A fold of lane writes: what it leaves of every part of the gang, the last write of a lane being the only one. -/
theorem laneFold (wide : Bool) (d : Nat) (f : Nat → Nat) (ls : List Nat) (hls : ∀ l ∈ ls, l < 16) (hn : ls.Nodup) (q : Gang) :
    let q' := ls.foldl (fun r l => r.vwrite wide d l (f l)) q
    q'.m = q.m ∧ q'.sr = q.sr ∧ q'.pc = q.pc ∧ q'.emask = q.emask ∧ q'.stack = q.stack ∧ q'.launch = q.launch
    ∧ (∀ l ∈ ls, q'.vread wide d l = f l % 2 ^ (if wide then 64 else 32))
    ∧ ∀ r l, l < 16 → (l ∉ ls ∨ (r ≠ d ∧ (wide = true → r ≠ d + 1))) → q'.vr r l = q.vr r l := by
  induction ls generalizing q with
  | nil => simp
  | cons a t ih =>
    have ha : a < 16 := hls a (List.mem_cons_self ..)
    obtain ⟨hat, ht⟩ := List.nodup_cons.1 hn
    obtain ⟨h1, h2, h3, h4, h5, h6, h7, h8⟩ := ih (fun l hl => hls l (List.mem_cons_of_mem _ hl)) ht (q.vwrite wide d a (f a))
    simp only [List.foldl_cons]
    refine ⟨by simpa using h1, by simpa using h2, by simpa using h3, by simpa using h4, by simpa using h5, by simpa using h6, ?_, ?_⟩
    · intro l hl
      rcases List.mem_cons.1 hl with rfl | hl
      · have e1 := h8 d l ha (.inl hat)
        have e2 := h8 (d + 1) l ha (.inl hat)
        rw [← Gang.vread_vwrite q wide d l (f l) ha]
        unfold Gang.vread
        rw [e1, e2]
      · exact h7 l hl
    · intro r l hl h
      rw [h8 r l hl (h.imp_left (fun h' => fun hm => h' (List.mem_cons_of_mem _ hm)))]
      refine Gang.vr_vwrite q wide d a (f a) r l ha hl ?_
      rcases h with h | h
      · exact .inl (fun e => h (e ▸ List.mem_cons_self ..))
      · exact .inr h

theorem mem_lanes (q : Gang) (w l : Nat) : l ∈ q.lanes w ↔ l < 16 ∧ bitAt (q.active w) l = true := by
  simp [Gang.lanes]

theorem nodup_lanes (q : Gang) (w : Nat) : (q.lanes w).Nodup :=
  List.Pairwise.filter _ List.nodup_range

/-! ## Issue -/

/-- An issued instruction runs its effect in the issued state. -/
theorem vecStep_issues {s : State} {g n w : Nat} {op : VOp} {q : Gang} {la : Launch} {l : ILine}
    (h : Issues s g n op w q la l) (eff : VecEff) :
    s.vecStep g n op eff = eff w q la (s.issued g la l (q.errsRead op w).length) := by
  obtain ⟨h1, h2, h3, h4, h5, h6, h7, h8, h9, h10, h11⟩ := h
  have h5' : ¬ 131071 < q.pc := by omega
  unfold State.vecStep State.issued
  simp only [h1, h2, h3, h4, h5', h6, h7, h8, h9, h10, h11, Bool.not_true, Bool.or_false, beq_self_eq_true, Bool.true_or,
    if_false, bne_self_eq_false, Bool.false_eq_true, if_true, List.isEmpty_nil]

theorem modLaunch_eq (s : State) (g id : Nat) (f : Launch → Launch) :
    ∃ ls, s.modLaunch g id f = { s with launches := ls } := by
  unfold State.modLaunch
  exact ⟨_, rfl⟩

/-- A counter changes the register map alone. -/
theorem inc_eq (s : State) (f : Fld) (i d : Nat) : ∃ rg, s.inc f i d = { s with regs := rg } := by
  unfold State.inc State.wr State.setReg
  exact ⟨_, rfl⟩

/-- A notice's wait changes the core's stall counter and the count of free values. -/
theorem vecNotice_eq (s : State) (g : Nat) :
    ∃ rg fc, s.vecNotice g = { s with regs := rg, freeCtr := fc }
      ∧ ∀ r i, (r ≠ .coreVecStall ∨ i ≠ g) → (s.vecNotice g).reg r i = s.reg r i := by
  unfold State.vecNotice
  split
  · exact ⟨s.regs, s.freeCtr, rfl, fun _ _ _ => rfl⟩
  · generalize s.fresh.1 % 257 = d
    obtain ⟨rg, h⟩ := inc_eq s.fresh.2 F.coreVecStall_noticeWait g d
    exact ⟨rg, s.freeCtr + 1, h, fun r i hr => reg_inc_ne s.fresh.2 _ _ _ hr⟩

/-- A launch's first issue changes its time, the core's stall counter and the count of free values. -/
theorem firstIssue_eq (s : State) (g : Nat) (la : Launch) :
    ∃ rg fc ls, s.firstIssue g la = { s with regs := rg, freeCtr := fc, launches := ls }
      ∧ ∀ r i, (r ≠ .coreVecStall ∨ i ≠ g) → (s.firstIssue g la).reg r i = s.reg r i := by
  unfold State.firstIssue
  split
  · exact ⟨s.regs, s.freeCtr, s.launches, rfl, fun _ _ _ => rfl⟩
  · obtain ⟨rg, fc, h, hr⟩ := vecNotice_eq s g
    obtain ⟨ls, hl⟩ := modLaunch_eq (s.vecNotice g) g la.id (fun x => { x with since := some ((s.vecNotice g).ftCore g) })
    exact ⟨rg, fc, ls, by rw [hl, h], fun r i hi => (reg_of_regs (by rw [hl]) r i).trans (hr r i hi)⟩

/-- Corrections in the register file change their counter alone. -/
theorem regCorr_eq (s : State) (g n : Nat) :
    ∃ rg, s.regCorr g n = { s with regs := rg } ∧ ∀ r i, (r ≠ .partMemCorr ∨ i ≠ partOf g) → (s.regCorr g n).reg r i = s.reg r i := by
  unfold State.regCorr
  split
  · exact ⟨s.regs, rfl, fun _ _ _ => rfl⟩
  · obtain ⟨rg, h⟩ := inc_eq s F.partMemCorr_cmCorr (partOf g) n
    exact ⟨rg, h, fun r i hi => reg_inc_ne s _ _ _ hi⟩

/-- Everything the issue of an instruction can change: the order of the cache, the core's counters with their carry, free values and the
launch's time. -/
theorem issued_eq (s : State) (g : Nat) (la : Launch) (l : ILine) (n : Nat) :
    ∃ ic rg ca ls fc, s.issued g la l n = { s with icache := ic, regs := rg, carry := ca, launches := ls, freeCtr := fc }
      ∧ ∀ r i, (r ≠ .coreVecAct ∨ i ≠ g) → (r ≠ .coreVecStall ∨ i ≠ g) → (r ≠ .partMemCorr ∨ i ≠ partOf g) →
        (s.issued g la l n).reg r i = s.reg r i := by
  have he : ∃ ic rg ca, (s.touchLine l).incUnit F.coreVecAct_instrK g 1024 1 = { s with icache := ic, regs := rg, carry := ca } := by
    unfold State.incUnit State.inc State.wr State.setReg State.touchLine
    exact ⟨_, _, _, rfl⟩
  obtain ⟨ic, rg, ca, he⟩ := he
  obtain ⟨rg1, fc, ls, h1, hr1⟩ := firstIssue_eq ((s.touchLine l).incUnit F.coreVecAct_instrK g 1024 1) g la
  obtain ⟨rg2, h2, hr2⟩ := regCorr_eq (((s.touchLine l).incUnit F.coreVecAct_instrK g 1024 1).firstIssue g la) g n
  unfold State.issued
  refine ⟨ic, rg2, ca, ls, fc, ?_, fun r i ha hb hc => ?_⟩
  · rw [h2, h1, he]
  · rw [hr2 r i hc, hr1 r i hb, reg_incUnit_ne _ _ _ _ _ ha]
    exact reg_of_regs (by unfold State.touchLine; rfl) r i

/-- The issue of an instruction leaves every memory, queue, gang and register but the core's own counters. -/
theorem issued_frame (s : State) (g : Nat) (la : Launch) (l : ILine) (n : Nat) :
    (s.issued g la l n).mem = s.mem ∧ (s.issued g la l n).bufs = s.bufs ∧ (s.issued g la l n).queues = s.queues
    ∧ (s.issued g la l n).adds = s.adds ∧ (s.issued g la l n).tallies = s.tallies ∧ (s.issued g la l n).gangs = s.gangs
    ∧ ∀ r i, (r ≠ .coreVecAct ∨ i ≠ g) → (r ≠ .coreVecStall ∨ i ≠ g) → (r ≠ .partMemCorr ∨ i ≠ partOf g) →
        (s.issued g la l n).reg r i = s.reg r i := by
  obtain ⟨ic, rg, ca, ls, fc, h, hr⟩ := issued_eq s g la l n
  refine ⟨?_, ?_, ?_, ?_, ?_, ?_, hr⟩ <;> rw [h]

theorem setGang_regs (s : State) (g n : Nat) (q : Gang) : (s.setGang g n q).regs = s.regs := by unfold State.setGang; rfl
theorem setGang_mem (s : State) (g n : Nat) (q : Gang) : (s.setGang g n q).mem = s.mem := by unfold State.setGang; rfl
theorem setGang_bufs (s : State) (g n : Nat) (q : Gang) : (s.setGang g n q).bufs = s.bufs := by unfold State.setGang; rfl
theorem setGang_queues (s : State) (g n : Nat) (q : Gang) : (s.setGang g n q).queues = s.queues := by unfold State.setGang; rfl
theorem setGang_adds (s : State) (g n : Nat) (q : Gang) : (s.setGang g n q).adds = s.adds := by unfold State.setGang; rfl
theorem setGang_tallies (s : State) (g n : Nat) (q : Gang) : (s.setGang g n q).tallies = s.tallies := by
  unfold State.setGang; rfl
theorem setGang_gangs (s : State) (g n : Nat) (q : Gang) : (s.setGang g n q).gangs = mput s.gangs (gangKey g n) q := by
  unfold State.setGang; rfl

/-- A new content of the gang in the issued state is the frame of its instruction. -/
theorem vecFrame_setGang (s : State) (g n : Nat) (la : Launch) (l : ILine) (k : Nat) (q : Gang) :
    VecFrame s (settle ((s.issued g la l k).setGang g n q)) g n
    ∧ (settle ((s.issued g la l k).setGang g n q)).gang g n = some q := by
  obtain ⟨h1, h2, h3, h4, h5, h6, h7⟩ := issued_frame s g la l k
  refine ⟨⟨?_, ?_, ?_, ?_, ?_, fun k hk => ?_, fun r i hr hs hc hb => ?_⟩, ?_⟩
  · rw [settle_mem, setGang_mem, h1]
  · rw [settle_bufs, setGang_bufs, h2]
  · rw [settle_queues, setGang_queues, h3]
  · rw [settle_adds, setGang_adds, h4]
  · rw [settle_tallies, setGang_tallies, h5]
  · rw [settle_gangs, setGang_gangs, mget_mput_ne _ _ hk, h6]
  · rw [settle_reg _ _ hb, reg_of_regs (setGang_regs _ _ _ _)]
    exact h7 r i hr hs hc
  · unfold State.gang
    rw [settle_gangs, setGang_gangs, mget_mput_same]

/-- A lane-wise instruction has its result (R130, R133). -/
theorem vecMap_result {s : State} {g n w : Nat} {op : VOp} {q : Gang} {la : Launch} {l : ILine}
    (h : Issues s g n op w q la l) (f : Nat → Gang → Nat → Nat) :
    LaneResult s (settle (s.vecMap g n op f)) g n w q (vWide (vType w)) (f w q) := by
  unfold State.vecMap
  rw [vecStep_issues h]
  unfold State.advance
  obtain ⟨hf, hg⟩ := vecFrame_setGang s g n la l (q.errsRead op w).length { laneMap q w (vWide (vType w)) (f w q) with
    pc := (laneMap q w (vWide (vType w)) (f w q)).pc + 1, wait := .run }
  obtain ⟨h1, h2, h3, h4, h5, h6, h7, h8⟩ := laneFold (vWide (vType w)) (vD w) (f w q) (q.lanes w)
    (fun l hl => ((mem_lanes q w l).1 hl).1) (nodup_lanes q w) q
  refine ⟨hf, _, hg, ⟨congrArg (· + 1) h3, h4, h5, rfl, h6⟩, h1, h2, fun l hl ha => h7 l ((mem_lanes q w l).2 ⟨hl, ha⟩), ?_⟩
  intro r l hl h
  refine h8 r l hl (h.imp_left (fun ha hm => ?_))
  rw [((mem_lanes q w l).1 hm).2] at ha
  cases ha

end Sys2Proof.Machine
end

