-- ==== Sys2Proof/WellFormed.lean ====
section
/-! DEFINITION. Well-formed commands: operands as the hardware around the block can supply them. A meaning is total, and acts on an ill-formed
command too; statements that need a bound on an operand take it from here. -/

namespace Sys2Proof

/-- A number of `n` bytes. -/
def fitsBytes (n x : Nat) : Bool := decide (x < 256 ^ n)

/-- A list of numbers of one byte each. -/
def areBytes (l : List Nat) : Bool := l.all (fun x => fitsBytes 1 x)

/-- A BAR0 access has a register's width (R7), or lies in the payload window, which takes any (Table 21-2). -/
def bar0Width (off w : Nat) : Bool := w == 4 || w == 8 || (decide (0x510000 ≤ off) && decide (off + w ≤ 0x520000) && decide (1 ≤ w))

/-- A BAR2 read has 1 to 4,096 bytes (R402). -/
def bar2ReadOk (len : Nat) : Bool := decide (1 ≤ len) && decide (len ≤ 4096)

/-- A BAR2 write has 1 to 512 bytes (R402). -/
def bar2WriteOk (data : List (Option Byte)) : Bool := decide (1 ≤ data.length) && decide (data.length ≤ 512)

/-- A CXL.mem request is for one aligned line of 64 bytes (R405). -/
def lineOk (hpa : Nat) : Bool := hpa % 64 == 0

/-- A CXL.mem write has at most the bytes of its line. -/
def lineDataOk (data : List (Option Byte)) : Bool := decide (data.length ≤ 64)

/-- A back-invalidate's answer with data has the whole line (R407). -/
def snoopDataOk (data : Option (List Byte)) : Bool := data.all (fun b => b.length == 64)

/-- The fields of a HELLO fit theirs (Table 12-5). -/
def helloOk (h : Hello) : Bool :=
  fitsBytes 16 h.nonce && fitsBytes 16 h.peerNonce && fitsBytes 16 h.keyId && decide (h.port < 64) && areBytes h.sig

/-- A link-state advertisement has at most one record for each port (R339). -/
def lsaOk (l : Lsa) : Bool := decide (l.recs.length ≤ 64) && l.recs.all (fun r => decide (r.port < 64))

/-- The calendar slots a CONFIRM names (R344). -/
def slotsOk (l : List Nat) : Bool := l.all (fun k => decide (k < 4096))

/-- What a Lamp's secure element holds has a length of bytes where the spec gives it (Table 14-1). -/
def elemOk (e : LampElem) : Bool := areBytes e.cert && areBytes e.ecdsa && areBytes e.lms && decide (e.hours.length = 16)

/-- The power manager's readings cover the nine banks, the 48 zones, the 288 clusters and the eight partitions (R436). -/
def measOk (m : PowerMeas) : Bool :=
  decide (m.cls.length = 3) && decide (m.zoneCur.length = 48) && decide (m.zoneBase.length = 48) && decide (m.vout.length = 288)
  && decide (m.part.length = 8) && decide (m.est.length = 2304)

/-- A sensor is one of Table 16-6. -/
def sensorOk (t : Sensor) : Bool :=
  (t.kind == 1 && decide (t.index < 288)) || (t.kind == 2 && decide (t.index < 9)) || (t.kind == 3 && decide (t.index < 16))

/-- A dynamic address of I3C has 7 bits (R513). -/
def i3cOk (a : Nat) : Bool := decide (a < 128)

/-- A host buffer that could be read gives as many bytes as in_len says, which has 32 bits (R417). -/
def callOk (c : MboxCall) : Bool := c.host.all (fun l => l.length == c.inLen) && decide (c.inLen < 2 ^ 32)

/-- Whether a command is one that the hardware around the block can send. Log: 14 (DESIGN CHOICE). -/
def Instr.wellFormed (i : Instr) : Bool :=
  match i with
  | .registerWrite _ off w d => bar0Width off w && decide (w ≤ 8) && d.m.host.all (fun l => l.length == d.v.toNat / 2 ^ 32)
  | .registerRcRead _ off w => bar0Width off w
  | .bar2Read _ _ len _ => bar2ReadOk len
  | .bar2Write _ _ data _ => bar2WriteOk data
  | .cxlMemRead hpa _ _ => lineOk hpa
  | .cxlMemWrite hpa data _ => lineOk hpa && lineDataOk data
  | .bisnpResponse _ data _ => snoopDataOk data
  | .hello _ h => helloOk h
  | .lsa _ l => lsaOk l
  | .confirm _ _ _ _ _ slots => slotsOk slots
  | .lampSeated _ e => e.all elemOk
  | .powerLoop m => measOk m
  | .thermalSample t _ _ => t.all sensorOk
  | .i3cDynamicAddress a => i3cOk a
  | .cert _ chain => areBytes chain
  | .lampVerdict _ sig => areBytes sig
  | .ideKm _ _ key => areBytes key
  | .lsdbRead c => callOk c
  | .fwInfo c => callOk c
  | .fwStage c => callOk c
  | .fwVerify c => callOk c
  | .fwActivate c => callOk c
  | .fwCommitSvn c => callOk c
  | .mcodeRoll c => callOk c
  | .energyTotals c => callOk c
  | .faultRead c => callOk c
  | .canaryRun c _ _ => callOk c
  | .capsule c => callOk c
  | .retire c => callOk c
  | .bootTestSet c => callOk c
  | .memTestReport c => callOk c
  | .mboxBadOpcode c _ => callOk c
  | _ => true

end Sys2Proof
end

