-- ==== Sys2Proof/Tests/Slice0.lean ====
section
/-! SUPPORT. Tests: a command that each well-formedness check refuses, and for every clause of an obligation that has hypotheses a state and operands that
meet them, at boundary values where the clause has a range. -/

namespace Sys2Proof.Machine.Slice0

set_option Elab.async false

/-- A READY module without a layout. -/
def live : State := ({ State.reset with board := { State.reset.board with perstN := true }, firstBoot := false }).wr F.hfBootStatus_stage 0 7


/-! ## Well-formedness: one command that each check refuses, beside one it takes -/

/-- A link-state record of port `k`. -/
def lsaRec (k : Nat) : LsaRec := { port := k, state := 4, peerPort := 0, peerSerial := 0, delay := 0 }
/-- Power readings of the right shape but for `k` zone currents. -/
def meas (k : Nat) : PowerMeas :=
  { input := 0, cls := [0, 0, 0], vin := 0, iin := 0, uj := [], bankCur := [], bankW := [], zoneCur := List.replicate k 0,
    vout := List.replicate 288 0, demand := [], floors := [], part := List.replicate 8 0, est := List.replicate 2304 0,
    zoneBase := List.replicate 48 0 }
/-- A secure element whose hours are of `k` lasers. -/
def elem (k : Nat) : LampElem :=
  { serial := 0, part0 := 0, part1 := 0, year := 0, week := 0, cert := [1], ecdsa := [], lms := [], biasInit := [],
    hours := List.replicate k 0, failed := 0 }

theorem smoke_bar0Width : (Instr.registerWrite .pf0 0 2 ⟨0, {}⟩).wellFormed = false ∧ (Instr.registerWrite .pf0 0 8 ⟨0, {}⟩).wellFormed = true
    ∧ (Instr.registerWrite .pf0 0 8 ⟨0, { host := some [0] }⟩).wellFormed = false := by decide
theorem smoke_bar2Read : (Instr.bar2Read .pf0 0 0 false).wellFormed = false ∧ (Instr.bar2Read .pf0 0 4097 false).wellFormed = false
    ∧ (Instr.bar2Read .pf0 0 4096 false).wellFormed = true := by decide
theorem smoke_bar2Write : (Instr.bar2Write .pf0 0 [] false).wellFormed = false ∧ (Instr.bar2Write .pf0 0 [none] false).wellFormed = true := by decide
theorem smoke_line : (Instr.cxlMemRead 32 .none false).wellFormed = false ∧ (Instr.cxlMemRead 64 .none false).wellFormed = true := by decide
theorem smoke_lineData : (Instr.cxlMemWrite 64 (List.replicate 65 none) false).wellFormed = false
    ∧ (Instr.cxlMemWrite 64 (List.replicate 64 none) false).wellFormed = true := by decide
theorem smoke_snoopData : (Instr.bisnpResponse 0 (some [1]) true).wellFormed = false ∧ (Instr.bisnpResponse 0 none true).wellFormed = true := by decide
theorem smoke_hello : (Instr.hello ⟨0, 0⟩ { serial := 0, id := 0, idValid := false, port := 64, nonce := 0, peerNonce := 0, keyId := 0, sig := [] }).wellFormed
      = false
    ∧ (Instr.hello ⟨0, 0⟩ { serial := 0, id := 0, idValid := false, port := 63, nonce := 0, peerNonce := 0, keyId := 0, sig := [255] }).wellFormed = true := by
  decide
theorem smoke_lsa : (Instr.lsa ⟨0, 0⟩ { origin := 0, id := 0, idValid := false, seq := 0, recs := [lsaRec 64] }).wellFormed = false
    ∧ (Instr.lsa ⟨0, 0⟩ { origin := 0, id := 0, idValid := false, seq := 0, recs := [lsaRec 63] }).wellFormed = true := by decide
theorem smoke_slots : (Instr.confirm 0 0 0 0 0 [4096]).wellFormed = false ∧ (Instr.confirm 0 0 0 0 0 [4095]).wellFormed = true := by decide
theorem smoke_elem : (Instr.lampSeated 0 (some (elem 15))).wellFormed = false ∧ (Instr.lampSeated 0 (some (elem 16))).wellFormed = true := by decide
theorem smoke_meas : (Instr.powerLoop (meas 47)).wellFormed = false ∧ (Instr.powerLoop (meas 48)).wellFormed = true := by decide +kernel
theorem smoke_sensor : (Instr.thermalSample [{ kind := 0, index := 0, temp := 0 }] 0 0).wellFormed = false
    ∧ (Instr.thermalSample [{ kind := 3, index := 15, temp := 0 }] 0 0).wellFormed = true := by decide
theorem smoke_i3c : (Instr.i3cDynamicAddress 128).wellFormed = false ∧ (Instr.i3cDynamicAddress 127).wellFormed = true := by decide
theorem smoke_bytes : (Instr.cert 0 [256]).wellFormed = false ∧ (Instr.lampVerdict 0 [256]).wellFormed = false
    ∧ (Instr.ideKm 0 0 [256]).wellFormed = false ∧ (Instr.cert 0 [255]).wellFormed = true := by decide
theorem smoke_call : (Instr.fwStage { f := .pf0, useHost := true, inLen := 2, host := some [1], outOk := true }).wellFormed = false
    ∧ (Instr.fwStage { f := .pf0, useHost := true, inLen := 1, host := some [1], outOk := true }).wellFormed = true := by decide
/-! ## Queues -/

/-- A queue in RUNNING that holds `q`. -/
def runQ (s : State) (u : Nat) (q : Queue) : State := (s.wr F.qState_state u 1).setQ u q

/-- A fetched command. -/
def entry (c : Cmd) : Entry := { cmd := c, index := 3, tag := 1 }
/-- A started command whose operation may go on. -/
def begun (c : Cmd) : Started := { id := 0, e := entry c, at_ := 0, prog := { ready := true } }
/-- A started command whose operation is over with OK. -/
def ended (c : Cmd) : Started := { begun c with done := some (0, 0) }

theorem meets_QueueOperationsComplete_1 :
    (runQ live (qUnit (.core 4607 3)) { started := [begun {}] }).oldest (qUnit (.core 4607 3)) 0x00 = some (begun {}) := by decide

theorem meets_QueueOperationsComplete_2 :
    (runQ live (qUnit (.coll 7)) { started := [begun { w0 := 2, w4 := 1, w5 := 9 }] }).oldest (qUnit (.coll 7)) 0x02
        = some (begun { w0 := 2, w4 := 1, w5 := 9 })
    ∧ bitAt (begun { w0 := 2, w4 := 1, w5 := 9 }).e.cmd.w4 0 = true
    ∧ bits (begun { w0 := 2, w4 := 1, w5 := 9 }).e.cmd.w6 0 16 = 0 := by decide

theorem meets_QueueOperationsComplete_3 :
    (runQ live (qUnit (.coll 7)) { started := [begun { w0 := 2, w6 := 0x8000 }] }).oldest (qUnit (.coll 7)) 0x02
        = some (begun { w0 := 2, w6 := 0x8000 })
    ∧ bitAt (begun { w0 := 2, w6 := 0x8000 }).e.cmd.w4 0 = false
    ∧ bits (begun { w0 := 2, w6 := 0x8000 }).e.cmd.w6 0 16 ≠ 0 := by decide

/-- JUMP to a list of 8 entries at 512, HEAD 7, TAIL 0, tag 5. -/
def jumpCmd : Cmd := { w0 := 1, w4 := 512, w5 := 3 + 7 * 2 ^ 5 + 5 * 2 ^ 37 }

theorem meets_QueueOperationsComplete_4 :
    (runQ live 0 { jump := some (entry jumpCmd) }).queueUp 0 = true
    ∧ ((runQ live 0 { jump := some (entry jumpCmd) }).q 0).jump = some (entry jumpCmd)
    ∧ (runQ live 0 { jump := some (entry jumpCmd) }).qst 0 = 1 ∧ jumpFieldBad (entry jumpCmd).cmd = false := by decide

theorem meets_QueueOperationsComplete_5 :
    (runQ live 0 { jump := some (entry { jumpCmd with w5 := 17 }) }).queueUp 0 = true
    ∧ (runQ live 0 { jump := some (entry { jumpCmd with w5 := 17 }) }).qst 0 = 1
    ∧ jumpFieldBad (entry { jumpCmd with w5 := 17 }).cmd = true := by decide

/-- A layout of one tenancy on every partition. -/
def layout1 : Layout := { tenancies := [255], benches := [{ members := 1, pillars := 0, tenancy := 0, weight := 1 }], shiftLen := 100000 }

/-- Context 0 of partition 0 maps the first GiB from 0 on to the core memories, by tables that core 0 holds (R201). -/
def mapped : State :=
  { live with
    active := some layout1, ctxs := [(0, cmBase)],
    mem := ((({} : Store).wrLE cmBase 8 (cmBase + 0x1003)).wrLE (cmBase + 0x1000) 8 (cmBase + 0x2003)).wrLE (cmBase + 0x2000) 8 (cmBase + 7) }

/-- Queue 0 has a list of 8 entries at 0x4000 and one entry to fetch. -/
def fetching : State := (((runQ mapped 0 {}).wr F.qCtrl_sizeLog2 0 3).wr F.qTail_tail 0 1).wr F.qBase_base 0 32

theorem meets_QueueOperationsComplete_6 :
    fetching.queueUp 0 = true ∧ fetching.qst 0 = 1 ∧ fetching.benchMode 0 = false ∧ (fetching.q 0).jump = none
    ∧ (fetching.q 0).waiting = [] ∧ fetching.rd F.qHead_head 0 ≠ fetching.rd F.qTail_tail 0 := by decide

/-- The translation of the row to fetch. -/
def fetched : Xlat × State :=
  fetching.xlat (tlbCore 0) (fetching.queuePart 0) (fetching.rd F.qCtrl_ctx 0)
    ((fetching.rd F.qBase_base 0 * 512 + 64 * fetching.rd F.qHead_head 0) / 512 * 512) false

theorem meets_QueueOperationsComplete_6b :
    fetched.1 = .ok (cmBase + 0x4000) ∧ fetched.2.heldByHost (cmBase + 0x4000) false = [] ∧ fetched.2.mem.hurt (cmBase + 0x4000) 512 = false
    ∧ fetched.2.snoopLost (cmBase + 0x4000) = false ∧ fetched.2.sliceLost (cmBase + 0x4000) = false
    ∧ fetched.2.homeDark (cmBase + 0x4000) = false := by decide

/-- Queue 3 of core 0 with one waiting NOP. -/
def nopAt (u : Nat) (c : Cmd) : State := runQ live u { waiting := [entry c] }

theorem meets_CommandFlowCompletes_1 :
    isBenchQ 3 = false ∧ (nopAt 3 {}).mayStart 3 = true ∧ (nopAt 3 {}).headCheck 3 (entry {}) = 0
    ∧ (entry {}).own.cmd.opcode ≠ 0x60 ∧ (nopAt 3 {}).pastDeadline 3 (entry {}).own.cmd = false
    ∧ ((nopAt 3 {}).showWaits 3 {}).markOk 3 {} = true ∧ ((nopAt 3 {}).showWaits 3 {}).gateOk 3 {} = true
    ∧ ((nopAt 3 {}).showWaits 3 {}).fenceOk 3 {} = true ∧ ((nopAt 3 {}).showWaits 3 {}).engineFree 3 (entry {}).own = true := by decide

theorem meets_CommandFlowCompletes_2 :
    isBenchQ 18439 = false ∧ (nopAt 18439 { w0 := 0xFF }).mayStart 18439 = true
    ∧ (nopAt 18439 { w0 := 0xFF }).headCheck 18439 (entry { w0 := 0xFF }) = 3 := by decide

theorem meets_CommandFlowCompletes_3 :
    isBenchQ 3 = false ∧ ({ nopAt 3 { w2 := 9 } with ft := 9 }).qst 3 = 1 ∧ ({ nopAt 3 { w2 := 9 } with ft := 9 }).queueUp 3 = true
    ∧ ({ nopAt 3 { w2 := 9 } with ft := 9 }).headCheck 3 (entry { w2 := 9 }) = 0
    ∧ ({ nopAt 3 { w2 := 9 } with ft := 9 }).pastDeadline 3 { w2 := 9 } = true := by decide

theorem meets_CommandFlowCompletes_4 :
    isCoreQ (qUnit (.coll 0)) = false
    ∧ ((runQ live (qUnit (.coll 0)) { started := [ended {}] }).q (qUnit (.coll 0))).started = [ended {}]
    ∧ (((runQ live (qUnit (.coll 0)) { started := [ended {}] }).dropStarted (qUnit (.coll 0)) 0).complete (qUnit (.coll 0)) 0
        (ended {}).e.forEnd 0 0 0).samples = [] := by decide

theorem meets_CommandFlowCompletes_5 :
    (runQ live (unitEng 4607 3) { started := [ended {}] }).runs 4607 = true
    ∧ ((runQ live (unitEng 4607 3) { started := [ended {}] }).q (unitEng 4607 3)).started = [ended {}]
    ∧ (((runQ live (unitEng 4607 3) { started := [ended {}] }).dropStarted (unitEng 4607 3) 0).complete (unitEng 4607 3) 0
        (ended {}).e.forEnd 0 0 0).samples = [] := by decide

/-- Bench queue 0 of kind 3 with a NOP, and core 5 its only member. -/
def benched : State :=
  { (runQ live (unitBench 0 3) { waiting := [entry {}] }).wr F.qCtrl_mode (unitEng 5 3) 1 with
    active := some layout1, roles := [(5, { kind := 1, bench := 0, index := 0 })] }

theorem meets_CommandFlowCompletes_6 :
    benched.qst (unitBench 0 3) = 1 ∧ benched.benchExists 0 = true ∧ benched.ready = true
    ∧ (benched.q (unitBench 0 3)).waiting = [entry {}] ∧ benched.members 0 = [5] ∧ benched.coreInReset 5 = false
    ∧ benched.benchMode (unitEng 5 3) = true ∧ (benched.q (unitEng 5 3)).waiting.length < 16 := by decide

/-- A write of run = 1 with 8 entries and tag 1. -/
def runWord : Word64 := 0x1000010C0

theorem meets_QueueWritesComplete_1 :
    live.gate .pf0 .qCtrl (qUnit (.core 4607 3)) true = .ok ∧ bitAt runWord.toNat 12 = true ∧ live.qst (qUnit (.core 4607 3)) ≠ 1
    ∧ isBenchQ (qUnit (.core 4607 3)) = false ∧ bits runWord.toNat 6 5 = 3 ∧ live.ready = true ∧ bitAt runWord.toNat 11 = false := by
  decide

theorem meets_QueueWritesComplete_2 :
    live.gate .pf0 .qCtrl (qUnit (.coll 7)) true = .ok ∧ bitAt (0x1080 : Word64).toNat 12 = true ∧ live.qst (qUnit (.coll 7)) ≠ 1
    ∧ bits (0x1080 : Word64).toNat 6 5 = 2 := by decide

theorem meets_QueueWritesComplete_3 :
    (runQ live (qUnit (.bench 255 3)) {}).gate .pf0 .qCtrl (qUnit (.bench 255 3)) true = .ok ∧ bitAt (0 : Word64).toNat 12 = false
    ∧ (runQ live (qUnit (.bench 255 3)) {}).qst (qUnit (.bench 255 3)) = 1 := by decide

theorem meets_QueueWritesComplete_4 :
    live.gate .pf0 .qTail (qUnit (.core 0 0)) true = .ok
    ∧ bits (7 : Word64).toNat 16 16 = live.rd F.qCtrl_tag (qUnit (.core 0 0))
    ∧ bits (0x10007 : Word64).toNat 16 16 ≠ live.rd F.qCtrl_tag (qUnit (.core 0 0)) := by decide

theorem meets_MarksAddModulo_1 :
    live.gate .pf0 .partMark (markIdx 7 4095) true = .ok ∧ live.gate .pf0 .partMarkAdd (markIdx 7 4095) true = .ok := by decide

/-- An add to the last mark on its way. -/
def adding : State := { live with adds := [{ part := 7, mark := 4095, add := 2 ^ 64 - 1, stamp := 0, src := 0 }] }

theorem meets_MarksAddModulo_3 :
    adding.adds[0]? = some { part := 7, mark := 4095, add := 2 ^ 64 - 1, stamp := 0, src := 0 }
    ∧ adding.gate .pf0 .partMark (markIdx 7 4095) true = .ok := by decide

theorem meets_MarksAddModulo_4 : live.board.pgood = true ∧ live.firstBoot = false ∧ live.thermNow = false := by decide

/-- Two marks of a step: an add of all ones to 1 leaves 0 (R227). -/
theorem test_mark_add_wraps :
    ((adding.markSet 7 4095 1).markAdd { part := 7, mark := 4095, add := 2 ^ 64 - 1, stamp := 0, src := 0 }).mark 7 4095 = 0 := by decide

/-- A tally of partition 7 for ring 7, and that ring of 16 records in HBM. -/
def tallied : State :=
  { ((live.wr F.partTallyBase_sizeLog2 63 4).wr F.partTallyBase_dpa 63 ((smBase + 7 * smPart) / 512)) with
    active := some layout1, tallies := [{ part := 7, ring := 7, ft := 1, unit := 0, event := 0x100, status := 0, seq := 0, payLo := 0, payHi := 0 }] }

theorem meets_TalliesComplete_1 :
    tallied.partDark 7 = false ∧ tallied.tallyRing 7 7 = some ((smBase + 7 * smPart), 16) ∧ tallied.tallyHeld 63 < 16
    ∧ tallied.resolve (smBase + 7 * smPart) = some (smBase + 7 * smPart) ∧ tallied.partDark (tallied.ownerOf (smBase + 7 * smPart)) = false
    ∧ tallied.sliceLost (smBase + 7 * smPart) = false ∧ tallied.snoopLost (smBase + 7 * smPart) = false
    ∧ tallied.heldByHost (smBase + 7 * smPart) true = [] := by decide

theorem meets_TalliesComplete_2 :
    (tallied.wr F.partTallyBase_sizeLog2 63 3).partDark 7 = false ∧ (tallied.wr F.partTallyBase_sizeLog2 63 3).tallyRing 7 7 = none := by
  decide

theorem meets_TalliesComplete_3 : live.gate .pf0 .partTallyRd 63 true = .ok := by decide

/-! ## Queues, marks and tallies: the other clauses -/

theorem meets_QueueOperationsComplete_7 :
    (runQ live 0 { started := [begun { w0 := 2 }] }).oldest 0 0x02 = some (begun { w0 := 2 })
    ∧ bitAt (begun { w0 := 2 }).e.cmd.w4 0 = false ∧ bits (begun { w0 := 2 }).e.cmd.w6 0 16 = 0
    ∧ (runQ live 0 { started := [begun { w0 := 2, w4 := 1, w6 := 0xFFFF }] }).oldest 0 0x02 = some (begun { w0 := 2, w4 := 1, w6 := 0xFFFF })
    ∧ bitAt (begun { w0 := 2, w4 := 1, w6 := 0xFFFF }).e.cmd.w4 0 = true
    ∧ bits (begun { w0 := 2, w4 := 1, w6 := 0xFFFF }).e.cmd.w6 0 16 ≠ 0 := by decide

theorem meets_QueueOperationsComplete_8 :
    isBenchQ 0 = false ∧ (∀ e ∈ (fetching.q 0).waiting, e.err = none) ∧ (fetching.q 0).waiting.length < 16
    ∧ fetched.2.nack (fetchCore 0) (cmBase + 0x4000) = none ∧ fetched.2.rowHeld 0 (cmBase + 0x4000) true = false := by decide

theorem meets_CommandFlowCompletes_7 :
    (entry {}).err = none ∧ (nopAt 3 {}).pastDeadline 3 (entry {}).cmd = false ∧ (entry { w0 := 0xFF }).err = none
    ∧ (nopAt 18439 { w0 := 0xFF }).pastDeadline 18439 (entry { w0 := 0xFF }).cmd = false
    ∧ (({ nopAt 3 { w2 := 9 } with ft := 9 } : State).act.any (fun (a : Activation) => a.begun)) = false := by decide

/-- A fetch that failed waits at the head. -/
def failedHead : State := runQ live 3 { waiting := [{ entry {} with err := some (0x09, 0) }] }

theorem meets_CommandFlowCompletes_8 :
    isBenchQ 3 = false ∧ failedHead.mayStart 3 = true ∧ (failedHead.q 3).waiting = [{ entry {} with err := some (0x09, 0) }] := by decide

theorem meets_CommandFlowCompletes_9 :
    isCoreQ (unitEng 4607 1) = true ∧ (runQ live (unitEng 4607 1) { started := [begun {}, { ended {} with id := 1 }] }).runs 4607 = true
    ∧ unitEng 4607 1 % 4 = 1
    ∧ ((runQ live (unitEng 4607 1) { started := [begun {}, { ended {} with id := 1 }] }).q (unitEng 4607 1)).started.find?
        (fun y => y.done.isSome) = some { ended {} with id := 1 } := by decide

theorem meets_CommandFlowCompletes_10 : (entry {}).err = none ∧ ∀ g ∈ benched.members 0, benched.coreInReset g = false := by decide

theorem meets_QueueWritesComplete_5 :
    benched.gate .pf0 .qCtrl (unitBench 0 2) true = .ok ∧ bitAt runWord.toNat 12 = true ∧ benched.qst (unitBench 0 2) ≠ 1
    ∧ bits runWord.toNat 6 5 = 3 ∧ benched.ready = true ∧ benched.benchExists 0 = true
    ∧ (∀ g ∈ benched.members 0, benched.qst (unitEng g 2) ≠ 2) ∧ ∀ g ∈ benched.members 0, g < 4608 := by decide

theorem meets_QueueWritesComplete_6 :
    (runQ live 0 {}).gate .pf0 .qCtrl 0 true = .ok ∧ (runQ live 0 {}).qst 0 = 1
    ∧ live.gate .pf0 .qCtrl 0 true = .ok ∧ bitAt (0x10C0 : Word64).toNat 12 = true ∧ bits (0x1440 : Word64).toNat 6 5 = 17
    ∧ live.qst 0 ≠ 1 ∧ bitAt (0 : Word64).toNat 12 = false := by decide

theorem meets_MarksAddModulo_2 :
    adding.sentBefore 0 0 = false ∧ adding.transitHold.contains 7 = false
    ∧ ({ adding with transitHold := [7] } : State).transitHold.contains 7 = true := by decide

theorem meets_TalliesComplete_4 :
    tallied.tallies[0]? = some { part := 7, ring := 7, ft := 1, unit := 0, event := 0x100, status := 0, seq := 0, payLo := 0, payHi := 0 }
    ∧ tallied.sentBefore 0 0 = false ∧ tallied.transitHold.contains 7 = false ∧ tallied.homeDark (smBase + 7 * smPart) = false
    ∧ (tallied.wr F.hfPwrPart_dark 0 128).partDark 7 = true
    ∧ ({ tallied with transitHold := [7] } : State).transitHold.contains 7 = true
    ∧ (tallied.wr F.partTallyWr_wr 63 16).tallyHeld 63 = 16 := by decide

/-- The ring of `tallied` at the first line of HBM, which the host holds. -/
def tallyInHbm : State := { tallied.wr F.partTallyBase_dpa 63 0 with tracked := [{ line := 0, excl := true }] }

theorem meets_TalliesComplete_5 :
    tallyInHbm.tallyRing 7 7 = some (0, 16) ∧ tallyInHbm.resolve 0 = some 0 ∧ tallyInHbm.homeDark 0 = false
    ∧ tallyInHbm.sliceLost 0 = false ∧ tallyInHbm.snoopLost 0 = false ∧ tallyInHbm.heldByHost 0 true ≠ [] := by decide
/-! ## Vector instructions -/

/-- The last gang of the last core at the last instruction a program can hold. -/
def gang0 : Gang := { launch := 1, pc := 131071 }
/-- Its launch. -/
def launch0 : Launch := { core := 4607, id := 1, code := 0, ctxPart := 7, ctx := 0, watchdog := 1 }
/-- The resident line that holds word `w` at that instruction. -/
def line0 (w : Nat) : ILine := { core := 4607, ctxPart := 7, ctx := 0, va := 1048064, words := List.replicate 63 0 ++ [w] }
/-- A state in which gang `q` issues word `w`. -/
def vec (w : Nat) (q : Gang) : State :=
  { live with gangs := [(gangKey 4607 31, q)], launches := [launch0], icache := [line0 w] }

/-- What `Issues` asks, as something to compute. -/
def canIssue (s : State) (g n : Nat) (op : VOp) (w : Nat) (q : Gang) (la : Launch) (l : ILine) : Prop :=
  s.gang g n = some q ∧ s.launch g q.launch = some la ∧ s.runs g = true ∧ q.wait = .run ∧ q.pc ≤ 131071
  ∧ s.iline g la.ctxPart la.ctx ((la.code + 8 * q.pc) / 512 * 512) = some l ∧ l.words.getD ((la.code + 8 * q.pc) % 512 / 8) 0 = w
  ∧ vecOp (vOpcode w) = some op ∧ op.legal w = true ∧ s.overdue g la = false ∧ q.lostLanes op w = []

theorem issues_of_canIssue {s : State} {g n : Nat} {op : VOp} {w : Nat} {q : Gang} {la : Launch} {l : ILine}
    (h : canIssue s g n op w q la l) : Issues s g n op w q la l :=
  ⟨h.1, h.2.1, h.2.2.1, h.2.2.2.1, h.2.2.2.2.1, h.2.2.2.2.2.1, h.2.2.2.2.2.2.1, h.2.2.2.2.2.2.2.1, h.2.2.2.2.2.2.2.2.1,
    h.2.2.2.2.2.2.2.2.2.1, h.2.2.2.2.2.2.2.2.2.2⟩

/-- One word of every operation, with d = 2, a = 4 and b = 6 where it has them. -/
def vWords1 : List (VOp × Nat) :=
  [(.nop, 0x0), (.jmp, 0x600000001), (.brDiv, 0x610102002), (.join, 0x3), (.brAny, 0x600000004), (.brAll, 0x600000005),
   (.bz, 0x600000006), (.bnz, 0x600000007), (.fin, 0x8), (.iadd, 0x600102010), (.isub, 0x600102011), (.imul, 0x600102012),
   (.imulhi, 0x600102013), (.imin, 0x600102014), (.imax, 0x600102015), (.band, 0x600102016), (.bor, 0x600102017),
   (.bxor, 0x600102018), (.shl, 0x600102019), (.shr, 0x60010201A), (.sar, 0x60010201B), (.clz, 0x10201C), (.popc, 0x10201D),
   (.icmp, 0x60010201E), (.sel, 0x60010201F)]

/-- The others. -/
def vWords2 : List (VOp × Nat) :=
  [(.fadd, 0x610102020), (.fsub, 0x610102021), (.fmul, 0x610102022), (.ffma, 0x610102023), (.fmin, 0x610102024),
   (.fmax, 0x610102025), (.fcmp, 0x610102026), (.frnd, 0x10102027), (.cvt, 0x10102030), (.mxpack, 0x9400200010102031),
   (.mxunpack, 0x9000200010102032), (.shfl, 0x600102033), (.mov, 0x102034), (.vtos, 0x100600102035), (.movi, 0x2036),
   (.exp2, 0x10102040), (.log2, 0x10102041), (.rcp, 0x10102042), (.rsq, 0x10102043), (.sin, 0x10102044), (.cos, 0x10102045)]

/-- Memory, scalar, mask and synchronisation words. -/
def vWords3 : List (VOp × Nat) :=
  [(.ld, 0x80102050), (.st, 0x680100051), (.rowld, 0x52), (.rowst, 0x53), (.ringrd, 0x54), (.ringwr, 0x55), (.atom, 0x690102060),
   (.atomcas, 0x680102061), (.salu, 0x100601102070), (.scmp, 0x100601102071), (.malu, 0x600102072), (.mtos, 0x102073),
   (.stom, 0x1102074), (.bar, 0x80), (.mwait, 0x2081), (.msig, 0x2082), (.fence, 0x83), (.post, 0x84), (.rdft, 0x2085)]

theorem canIssue_words1 : ∀ e ∈ vWords1, canIssue (vec e.2 gang0) 4607 31 e.1 e.2 gang0 launch0 (line0 e.2) := by
  unfold canIssue; decide
theorem canIssue_words2 : ∀ e ∈ vWords2, canIssue (vec e.2 gang0) 4607 31 e.1 e.2 gang0 launch0 (line0 e.2) := by
  unfold canIssue; decide
theorem canIssue_words3 : ∀ e ∈ vWords3, canIssue (vec e.2 gang0) 4607 31 e.1 e.2 gang0 launch0 (line0 e.2) := by
  unfold canIssue; decide

/-- Every operation issues somewhere: the hypothesis of each statement about an instruction is met. -/
theorem meets_Issues : ∀ e ∈ vWords1 ++ vWords2 ++ vWords3, Issues (vec e.2 gang0) 4607 31 e.1 e.2 gang0 launch0 (line0 e.2) := by
  intro e h
  rw [List.mem_append, List.mem_append] at h
  rcases h with (h | h) | h
  · exact issues_of_canIssue (canIssue_words1 e h)
  · exact issues_of_canIssue (canIssue_words2 e h)
  · exact issues_of_canIssue (canIssue_words3 e h)

/-- The two encoded examples of chapter 5: their operation, that they are defined, and their fields. -/
theorem test_word_ffma :
    vecOp (vOpcode 0x0001144810208023) = some .ffma ∧ VOp.ffma.legal 0x0001144810208023 = true
    ∧ vD 0x0001144810208023 = 8 ∧ vA 0x0001144810208023 = 8 ∧ vType 0x0001144810208023 = 4 ∧ vB 0x0001144810208023 = 8
    ∧ vSb 0x0001144810208023 = true ∧ vC 0x0001144810208023 = 17 ∧ bitAt 0x0001144810208023 48 = true := by decide
theorem test_word_brDiv :
    vecOp (vOpcode 0x0000006E00078202) = some .brDiv ∧ VOp.brDiv.legal 0x0000006E00078202 = true
    ∧ vPred 0x0000006E00078202 = 2 ∧ vJoin 0x0000006E00078202 = 120 ∧ vTarget 0x0000006E00078202 = 110 := by decide

/-- A gang whose stack holds `st` and whose m1 is 0x000F. -/
def stacked (st : List (Nat × Nat)) : Gang := { gang0 with stack := st, m := [(1, 0x000F)] }

/-- br.div on m1 to 6, joining at 258. -/
def brWord : Nat := 0x610102102

theorem meets_VectorControlCompletes_join :
    canIssue (vec 3 (stacked [(5, 0xFF)])) 4607 31 .join 3 (stacked [(5, 0xFF)]) launch0 (line0 3)
    ∧ (stacked [(5, 0xFF)]).stack = (5, 0xFF) :: [] := by unfold canIssue; decide

theorem meets_VectorControlCompletes_brDiv :
    canIssue (vec brWord (stacked (List.replicate 30 (7, 1)))) 4607 31 .brDiv brWord (stacked (List.replicate 30 (7, 1))) launch0 (line0 brWord)
    ∧ (stacked (List.replicate 30 (7, 1))).stack.length ≤ 30 ∧ (stacked (List.replicate 30 (7, 1))).stack.head? = some (7, 1)
    ∧ 7 ≠ bits brWord 12 17 + 1 ∧ 0xFFFF &&& (stacked []).predMask brWord ≠ 0
    ∧ 0xFFFF &&& (0xFFFF - (stacked []).predMask brWord) ≠ 0 := by unfold canIssue; decide

theorem meets_StackLimitsFault_1 :
    canIssue (vec brWord (stacked (List.replicate 31 (7, 1)))) 4607 31 .brDiv brWord (stacked (List.replicate 31 (7, 1))) launch0 (line0 brWord)
    ∧ (stacked (List.replicate 31 (7, 1))).stack.length = 31 ∧ (stacked (List.replicate 31 (7, 1))).stack.head? = some (7, 1)
    ∧ (stacked (List.replicate 31 (7, 1))).emask &&& (stacked (List.replicate 31 (7, 1))).predMask brWord ≠ 0
    ∧ (stacked (List.replicate 31 (7, 1))).emask &&& (0xFFFF - (stacked (List.replicate 31 (7, 1))).predMask brWord) ≠ 0 := by
  unfold canIssue; decide

theorem meets_StackLimitsFault_1_full :
    canIssue (vec brWord (stacked (List.replicate 32 (7, 1)))) 4607 31 .brDiv brWord (stacked (List.replicate 32 (7, 1))) launch0 (line0 brWord)
    ∧ (stacked (List.replicate 32 (7, 1))).stack.length = 32 := by unfold canIssue; decide

theorem meets_StackLimitsFault_2 : gang0.stack = [] := rfl

theorem meets_StackLimitsFault_3 :
    rising (vec 3 gang0).gangs = true ∧ (vec 3 gang0).gang 4607 31 = some gang0 ∧ (vec 3 gang0).flag F.coreVecFault_valid 4607 = false
    ∧ (vec 3 gang0).startedOf (unitEng 4607 1) 1 = none := by decide

theorem meets_StackLimitsFault_4 :
    ({ vec 8 gang0 with gangs := [(gangKey 4607 0, gang0), (gangKey 4607 31, gang0)] }).gang 4607 0 = some gang0
    ∧ ({ vec 8 gang0 with gangs := [(gangKey 4607 0, gang0), (gangKey 4607 31, gang0)] }).gang 4607 31 = some gang0 := by decide

theorem meets_StackLimitsFault_5 : ∀ e ∈ (vec 8 gang0).gangs, e.1 / 32 = 4607 → e.2.launch = gang0.launch → e.1 = gangKey 4607 31 := by
  decide

/-- The if-else example of chapter 4: br.div m2, 110, 120 at PC 100 with m2 = 0x000F leaves E = 0xFFF0 and two stack entries. -/
theorem test_divergence_example :
    (match ((live.setGang 0 0 { launch := 1, pc := 100 }).brDiv 0 0 { launch := 1, pc := 100, m := [(2, 0x000F)] } 0x0000006E00078202).gang 0 0 with
     | some q => q.emask == 0xFFF0 && q.stack == [(110, 0x000F), (121, 0xFFFF)] && q.pc == 101
     | none => false) = true := by decide

theorem meets_VectorMoveResults_movi_scalar :
    canIssue (vec 0x1002036 gang0) 4607 31 .movi 0x1002036 gang0 launch0 (line0 0x1002036) ∧ vSa 0x1002036 = true
    ∧ vSa 0x2036 = false ∧ gang0.laneB 0x100600102035 0 < 16 := by unfold canIssue; decide

theorem meets_VectorConvertCompletes_mxpack : bitAt 0x9400200010102031 58 = true ∧ bitAt 0x9400200010102031 59 = false := by decide

theorem meets_ElementAccessCompletes_ld :
    gang0.badLanes 0x80102050 = [] ∧ (∀ k ∈ gang0.lanes 0x80102050, live.bufs.hurt (stageBuf 4607 + gang0.elemAddr 0x80102050 k) 4 = false)
    ∧ gang0.passes 0x80102050 ≤ 1 := by decide
theorem meets_ElementAccessCompletes_st :
    gang0.badLanes 0x680100051 = [] ∧ (∀ k ∈ gang0.lanes 0x680100051, live.lockedBuf (stageBuf 4607 + gang0.elemAddr 0x680100051 k) 4 = false)
    ∧ gang0.passes 0x680100051 ≤ 1 := by decide
theorem meets_ElementAccessCompletes_atom :
    gang0.badLanes 0x690102060 = [] ∧ (∀ k ∈ gang0.lanes 0x690102060,
      live.lockedBuf (stageBuf 4607 + gang0.elemAddr 0x690102060 k) 4 = false
      ∧ live.bufs.hurt (stageBuf 4607 + gang0.elemAddr 0x690102060 k) 4 = false) ∧ gang0.passes 0x690102060 ≤ 1 := by decide
theorem meets_ElementAccessCompletes_atomcas :
    gang0.badLanes 0x680102061 = [] ∧ (∀ k ∈ gang0.lanes 0x680102061,
      live.lockedBuf (stageBuf 4607 + gang0.elemAddr 0x680102061 k) 4 = false
      ∧ live.bufs.hurt (stageBuf 4607 + gang0.elemAddr 0x680102061 k) 4 = false) ∧ gang0.passes 0x680102061 ≤ 1 := by decide

/-- rowld and rowst of one row from the last row of the stage and of core memory. -/
theorem meets_RowTransfersComplete_rows :
    canIssue (vec (0xBFFFF00000052) gang0) 4607 31 .rowld 0xBFFFF00000052 gang0 launch0 (line0 0xBFFFF00000052)
    ∧ gang0.active 0xBFFFF00000052 ≠ 0 ∧ gang0.stageRow 0xBFFFF00000052 + vCount 0xBFFFF00000052 = 256
    ∧ gang0.memRow 0xBFFFF00000052 + vCount 0xBFFFF00000052 = 3072 ∧ live.samples = []
    ∧ live.mem.hurt (cmRow 4607 3071) 512 = false ∧ live.bufs.hurt (stageBuf 4607 + 512 * 255) 512 = false := by
  unfold canIssue; decide

/-- Ring 0 of partition 7, held by the last core, of 4 slots of one row. -/
def ring0 : Ring := { number := 0, part := 7, place := 0, strict := true, first := 0, holder := 4607, slots := 4, slotRows := 1, timeout := 0 }
/-- A gang at a ring instruction, and the ring with its first slot FULL or EMPTY. -/
def ringed (w : Nat) (full : Bool) : State :=
  { vec w gang0 with
    active := some { layout1 with rings := [ring0] },
    rings := if full then [(ringKey 7 0, { slots := [(0, { full := true })], wp := 1 })] else [] }
/-- What the ring answers. -/
def ringSays (w : Nat) (full write : Bool) : RingGrant × State :=
  (((ringed w full).issued 4607 launch0 (line0 w) 0).sampleKernel 4607 1).ringAsk ring0 write (.gang 4607 31)
    ((((ringed w full).issued 4607 launch0 (line0 w) 0).sampleKernel 4607 1).ftCore 4607)

theorem meets_RowTransfersComplete_ringrd :
    (((ringed 0x54 true).issued 4607 launch0 (line0 0x54) 0).sampleKernel 4607 1).ringDef 7 0 = some ring0 ∧ ring0.place ≠ 2
    ∧ vCount 0x54 ≤ ring0.slotRows ∧ (ringSays 0x54 true false).1 = .slot 0
    ∧ (ringSays 0x54 true false).2.ringRow ring0 0 0 = some (cmRow 4607 0)
    ∧ (ringSays 0x54 true false).2.mem.hurt (cmRow 4607 0) 512 = false := by decide
theorem meets_RowTransfersComplete_ringwr :
    (((ringed 0x55 false).issued 4607 launch0 (line0 0x55) 0).sampleKernel 4607 1).ringDef 7 0 = some ring0
    ∧ (ringSays 0x55 false true).1 = .slot 0 ∧ (ringSays 0x55 false true).2.ringRow ring0 0 0 = some (cmRow 4607 0)
    ∧ (ringSays 0x55 false true).2.bufs.hurt (stageBuf 4607) 512 = false := by decide

theorem meets_VectorSyncCompletes_barrier :
    ∀ e ∈ (vec 0x80 { gang0 with wait := .bar }).liveGangs 4607 1, e.2.wait = .bar := by decide
theorem meets_VectorSyncCompletes_mwait :
    live.samples = [] ∧ gang0.sread true (bits 0x2081 12 5) ≤ live.mark (partOf 4607) (bits 0x2081 32 12)
    ∧ live.mark (partOf 4607) (bits 0x2081 32 12) < ({ gang0 with sr := [(2, 1)] } : Gang).sread true (bits 0x2081 12 5) := by decide
theorem meets_VectorSyncCompletes_mwait_ends :
    (vec 0x2081 { gang0 with wait := .mark 4095 0 }).gang 4607 31 = some { gang0 with wait := .mark 4095 0 }
    ∧ 0 ≤ (vec 0x2081 { gang0 with wait := .mark 4095 0 }).mark (partOf 4607) 4095 := by decide
theorem meets_VectorSyncCompletes_fence :
    bits 0x83 44 3 < 4 ∧ canIssue (vec 0x400000000083 gang0) 4607 31 .fence 0x400000000083 gang0 launch0 (line0 0x400000000083)
    ∧ 4 ≤ bits 0x400000000083 44 3 := by unfold canIssue; decide
theorem meets_VectorSyncCompletes_post :
    gang0.emask ≠ 0 ∧ bits 0x84 47 17 ≤ 131008 ∧ bits 0x84 47 17 % 64 = 0 ∧ live.bufs.hurt (stageBuf 4607) 64 = false
    ∧ (vec 0x84 gang0).benchMode (unitEng 4607 3) = false ∧ ((vec 0x84 gang0).q (unitEng 4607 3)).waiting.length < 16 := by decide
theorem meets_VectorSyncCompletes_post_ends :
    (vec 0x84 { gang0 with wait := .post [] }).gang 4607 31 = some { gang0 with wait := .post [] }
    ∧ (vec 0x84 { gang0 with wait := .post [] }).benchMode (unitEng 4607 3) = false
    ∧ ((vec 0x84 { gang0 with wait := .post [] }).q (unitEng 4607 3)).waiting.length < 16 := by decide

/-- VLAUNCH of 32 gangs, as a started command. -/
def launching : State :=
  runQ live (unitEng 4607 1) { started := [begun { w0 := 0x40, w4 := 32 * 2 ^ 17 + 2 ^ 48 }] }
theorem meets_LaunchesComplete_vlaunch :
    (launching.q (unitEng 4607 1)).started.find? (fun x => x.e.cmd.opcode == 0x40 && x.done.isNone && x.prog.ready && x.prog.src == 0)
        = some (begun { w0 := 0x40, w4 := 32 * 2 ^ 17 + 2 ^ 48 })
    ∧ launching.runs 4607 = true ∧ bits (32 * 2 ^ 17 + 2 ^ 48) 17 6 = 32
    ∧ ((List.range 32).filter (fun n => launching.gangFree 4607 n)).length = 32 ∧ bitAt (32 * 2 ^ 17 + 2 ^ 48) 26 = false
    ∧ bitAt (32 * 2 ^ 17 + 2 ^ 48) 25 = false := by decide

/-- VPREFETCH of the two lines at 0x8000, mapped for core 0. -/
def prefetching : State := runQ mapped (unitEng 0 1) { started := [begun { w0 := 0x41, w4 := 2, w5 := 0x8000 }] }
theorem meets_LaunchesComplete_vprefetch :
    prefetching.oldest (unitEng 0 1) 0x41 = some (begun { w0 := 0x41, w4 := 2, w5 := 0x8000 }) ∧ prefetching.runs 0 = true
    ∧ (prefetching.prefetchLines 0 (prefetching.cmdCtx (unitEng 0 1) (entry { w0 := 0x41, w4 := 2, w5 := 0x8000 })).1
        (prefetching.cmdCtx (unitEng 0 1) (entry { w0 := 0x41, w4 := 2, w5 := 0x8000 })).2 0x8000 2 0).1 = .all := by decide

/-- A line on its way to core 0. -/
def filling : State := { mapped with ifills := [{ core := 0, ctxPart := 0, ctx := 0, va := 0x8000 }] }
theorem meets_LaunchesComplete_fill :
    (filling.ifills.filter (fun f => f.core == 0))[0]? = some { core := 0, ctxPart := 0, ctx := 0, va := 0x8000 }
    ∧ (match (filling.fetchLine 0 0 0 0x8000).1 with | .line _ => true | _ => false) = true := by decide

theorem meets_LaunchesComplete_watchdog :
    ({ vec 0 gang0 with launches := [{ launch0 with since := some 0 }], ft := 1024 }).launch 4607 1 = some { launch0 with since := some 0 }
    ∧ ({ vec 0 gang0 with launches := [{ launch0 with since := some 0 }], ft := 1024 }).liveGangs 4607 1 = [(31, gang0)]
    ∧ launch0.watchdog ≠ 0 ∧ 0 + 1024 * launch0.watchdog ≤ ({ vec 0 gang0 with ft := 1024 }).ftCore 4607
    ∧ (vec 0 gang0).runs 4607 = true := by decide


/-! ## Vector instructions: the clauses that fault, wait or do nothing -/

/-- A gang whose lanes 0 and 15 name the first address beyond the row stage and a misaligned one, in v4. -/
def astray : Gang := (gang0.setVr 4 0 131072).setVr 4 15 1
/-- A gang of core 4607 at word `w`, whose first sector of the row stage is hurt. -/
def stageHurt (w : Nat) (q : Gang) : State := { vec w q with bufs := { bad := [stageBuf 4607 / 32] } }
/-- A sample that holds the first four bytes of the row stage and the last row of core memory as its results. -/
def holding : Sample :=
  { core := 4607, eng := 1, id := 9, kind := 2, witness := 4606, phase := .comparing, captured := 0, since := 0, entry := entry {},
    lockBuf := [(stageBuf 4607, stageBuf 4607 + 4)], lockMem := [(cmRow 4607 3071, cmRow 4607 3072)] }

theorem meets_ElementAccessCompletes_fault : ∀ w ∈ [0x80102050, 0x680100051, 0x690102060, 0x680102061],
    astray.badLanes w = 0 :: [15] ∧ astray.elemAddr w 0 = 131072 ∧ astray.elemAddr w 15 = 1 := by decide
theorem meets_ElementAccessCompletes_hurt : ∀ e ∈ [(VOp.ld, 0x80102050), (.atom, 0x690102060), (.atomcas, 0x680102061)],
    canIssue (stageHurt e.2 gang0) 4607 31 e.1 e.2 gang0 launch0 (line0 e.2) ∧ gang0.badLanes e.2 = []
    ∧ (∀ j ∈ gang0.lanes e.2, (stageHurt e.2 gang0).lockedBuf (stageBuf 4607 + gang0.elemAddr e.2 j) (vBytes e.2) = false)
    ∧ ((gang0.lanes e.2).filter (fun j => (stageHurt e.2 gang0).bufs.hurt (stageBuf 4607 + gang0.elemAddr e.2 j) (vBytes e.2))).head? = some 0 := by
  unfold canIssue; decide
theorem meets_ElementAccessCompletes_lock : ∀ e ∈ [(VOp.st, 0x680100051), (.atom, 0x690102060), (.atomcas, 0x680102061)],
    canIssue { vec e.2 gang0 with samples := [holding] } 4607 31 e.1 e.2 gang0 launch0 (line0 e.2) ∧ 15 ∈ gang0.lanes e.2
    ∧ ({ vec e.2 gang0 with samples := [holding] } : State).lockedBuf (stageBuf 4607 + gang0.elemAddr e.2 15) (vBytes e.2) = true := by
  unfold canIssue; decide

theorem meets_RowTransfersComplete_rows_2 :
    live.lockedBuf (stageBuf 4607 + 512 * 255) 512 = false ∧ live.lockedMem (cmRow 4607 3071) 512 = false := by decide
/-- A gang without an active lane. -/
def masked : Gang := { gang0 with emask := 0 }
theorem meets_RowTransfersComplete_none : ∀ e ∈ [(VOp.rowld, 0x52), (.rowst, 0x53), (.ringrd, 0x54), (.ringwr, 0x55)],
    canIssue (vec e.2 masked) 4607 31 e.1 e.2 masked launch0 (line0 e.2) ∧ masked.active e.2 = 0 := by unfold canIssue; decide
theorem meets_RowTransfersComplete_range :
    (∀ e ∈ [(VOp.rowld, 0xBFFFF01000052), (.rowst, 0xBFFFF01000053)], canIssue (vec e.2 gang0) 4607 31 e.1 e.2 gang0 launch0 (line0 e.2)
      ∧ gang0.active e.2 ≠ 0 ∧ gang0.stageRow e.2 + vCount e.2 = 257)
    ∧ (∀ e ∈ [(VOp.rowld, 0xBFF0001000052), (.rowst, 0xBFF0001000053)], canIssue (vec e.2 gang0) 4607 31 e.1 e.2 gang0 launch0 (line0 e.2)
      ∧ gang0.stageRow e.2 + vCount e.2 ≤ 256 ∧ gang0.memRow e.2 + vCount e.2 = 3073) := by unfold canIssue; decide
theorem meets_RowTransfersComplete_ring :
    (∀ e ∈ [(VOp.ringrd, 0x54, false, false), (.ringwr, 0x55, true, true)],
      canIssue (ringed e.2.1 e.2.2.1) 4607 31 e.1 e.2.1 gang0 launch0 (line0 e.2.1) ∧ gang0.stageRow e.2.1 + vCount e.2.1 ≤ 256
      ∧ (ringed e.2.1 e.2.2.1).ringDef (partOf 4607) (gang0.memRow e.2.1) = some ring0 ∧ vCount e.2.1 ≤ ring0.slotRows
      ∧ (ringed e.2.1 e.2.2.1).fenced 4607 = false) := by unfold canIssue; decide
/-- The ring at its first slot again, which is FULL. -/
def ringFull (w : Nat) : State := { ringed w true with rings := [(ringKey 7 0, { slots := [(0, { full := true })] })] }
theorem meets_RowTransfersComplete_ringStops :
    ((ringed 0x54 false).ringAsk ring0 false (.gang 4607 31) ((ringed 0x54 false).ftCore 4607)).1 = .fault
    ∧ ((ringFull 0x55).ringAsk ring0 true (.gang 4607 31) ((ringFull 0x55).ftCore 4607)).1 = .fault
    ∧ ((ringed 0x54 false).ringAsk { ring0 with strict := false } false (.gang 4607 31) ((ringed 0x54 false).ftCore 4607)).1 = .wait
    ∧ ((ringFull 0x55).ringAsk { ring0 with strict := false } true (.gang 4607 31) ((ringFull 0x55).ftCore 4607)).1 = .wait := by decide

theorem meets_VectorSyncCompletes_barrier_waits : ∃ e ∈ (vec 0x80 gang0).liveGangs 4607 1, e.2.wait ≠ .bar := by decide
theorem meets_VectorSyncCompletes_post_waits :
    ((vec 0x84 gang0).wr F.qCtrl_mode (unitEng 4607 3) 1).benchMode (unitEng 4607 3) = true
    ∧ 16 ≤ (((vec 0x84 gang0).setQ (unitEng 4607 3) { waiting := List.replicate 16 (entry {}) }).q (unitEng 4607 3)).waiting.length := by decide
theorem meets_VectorSyncCompletes_post_nothing :
    canIssue (vec 0x84 masked) 4607 31 .post 0x84 masked launch0 (line0 0x84) ∧ masked.emask = 0 := by unfold canIssue; decide
theorem meets_VectorSyncCompletes_post_faults : ∀ w ∈ [131072 * 2 ^ 47 - 64 * 2 ^ 47 + 2 ^ 47 + 0x84, 2 ^ 47 + 0x84],
    canIssue (vec w gang0) 4607 31 .post w gang0 launch0 (line0 w)
    ∧ (131008 < bits w 47 17 + (if bitAt w 17 then gang0.sreg (bits w 12 5) else 0)
      ∨ (bits w 47 17 + (if bitAt w 17 then gang0.sreg (bits w 12 5) else 0)) % 64 ≠ 0) := by unfold canIssue; decide

/-- VLAUNCH of 32 gangs with arguments from the last row, whose first sector is hurt. -/
def launchingArg : State :=
  { runQ live (unitEng 4607 1) { started := [begun { w0 := 0x40, w4 := 32 * 2 ^ 17 + 2 ^ 26 + 3071 * 2 ^ 28 + 2 ^ 48 }] } with
    mem := { live.mem with bad := [cmRow 4607 3071 / 32] } }
theorem meets_LaunchesComplete_args :
    (launchingArg.q (unitEng 4607 1)).started.find? (fun x => x.e.cmd.opcode == 0x40 && x.done.isNone && x.prog.ready && x.prog.src == 0)
        = some (begun { w0 := 0x40, w4 := 32 * 2 ^ 17 + 2 ^ 26 + 3071 * 2 ^ 28 + 2 ^ 48 })
    ∧ launchingArg.runs 4607 = true ∧ bitAt (32 * 2 ^ 17 + 2 ^ 26 + 3071 * 2 ^ 28 + 2 ^ 48) 26 = true
    ∧ launchingArg.mem.hurt (cmRow 4607 (bits (32 * 2 ^ 17 + 2 ^ 26 + 3071 * 2 ^ 28 + 2 ^ 48) 28 12)) 512 = true
    ∧ live.mem.hurt (cmRow 4607 3071) 512 = false := by decide
/-- `prefetching` with the code's first row hurt. -/
def prefetchHurt : State := { prefetching with mem := { prefetching.mem with bad := [(cmBase + 0x8000) / 32] } }
theorem meets_LaunchesComplete_prefetchEnds :
    (prefetchHurt.prefetchLines 0 (prefetchHurt.cmdCtx (unitEng 0 1) (entry { w0 := 0x41, w4 := 2, w5 := 0x8000 })).1
        (prefetchHurt.cmdCtx (unitEng 0 1) (entry { w0 := 0x41, w4 := 2, w5 := 0x8000 })).2 0x8000 2 0).1 = .unc
    ∧ prefetchHurt.runs 0 = true := by decide
theorem meets_LaunchesComplete_resident : ∀ i, i < 2 →
    (({ prefetching with icache := [{ core := 0, ctxPart := 0, ctx := 0, va := 0x8000, words := [] },
                                    { core := 0, ctxPart := 0, ctx := 0, va := 0x8200, words := [] }] } : State).iline 0
      (prefetching.cmdCtx (unitEng 0 1) (entry { w0 := 0x41, w4 := 2, w5 := 0x8000 })).1
      (prefetching.cmdCtx (unitEng 0 1) (entry { w0 := 0x41, w4 := 2, w5 := 0x8000 })).2 (0x8000 + 512 * i)).isSome = true := by decide
theorem meets_LaunchesComplete_badFill :
    (match (({ filling with ctxs := [] } : State).fetchLine 0 0 0 0x8000).1 with | .bad => true | _ => false) = true := by decide
theorem meets_LaunchesComplete_inTime :
    (({ vec 0 gang0 with launches := [{ launch0 with since := some 0 }], ft := 1023 } : State).launch 4607 1).any
      (({ vec 0 gang0 with launches := [{ launch0 with since := some 0 }], ft := 1023 } : State).overdue 4607) = false := by decide
theorem meets_VectorConvertCompletes_resid :
    canIssue (vec 0x9C00200010102031 gang0) 4607 31 .mxpack 0x9C00200010102031 gang0 launch0 (line0 0x9C00200010102031)
    ∧ bitAt 0x9C00200010102031 59 = true ∧ vD 0x9C00200010102031 ≠ vB 0x9C00200010102031 ∧ vD 0x9C00200010102031 ≠ vB 0x9C00200010102031 + 1 := by
  unfold canIssue; decide

/-! ## Matrix commands, updates and moves -/

/-- MM of one position and one step on the last tile. -/
def mmCmd (accInit : Bool) : Cmd :=
  { w0 := 0x20, w4 := 63 * 2 ^ 12 + 2 ^ 24 + 2 ^ 32 + 2 ^ 40 + (if accInit then 4 else 0) }
/-- A core with one started command in its queue of kind `k`. -/
def starts (s : State) (g k : Nat) (c : Cmd) : State := runQ s (unitEng g k) { started := [begun c] }

theorem meets_MatrixCommandsComplete_mm : ∀ i ∈ [false, true],
    ((starts live 4607 0 (mmCmd i)).q (unitEng 4607 0)).started.find? (fun x => x.e.cmd.opcode == 0x20 && x.done.isNone && x.prog.ready
        && !((starts live 4607 0 (mmCmd i)).mmOpen 4607 x).isEmpty) = some (begun (mmCmd i))
    ∧ (starts live 4607 0 (mmCmd i)).runs 4607 = true ∧ (starts live 4607 0 (mmCmd i)).samples = []
    ∧ (starts live 4607 0 (mmCmd i)).mmHurt 4607 (MmCmd.of (mmCmd i)) ((starts live 4607 0 (mmCmd i)).mmOpen 4607 (begun (mmCmd i))) = none
    ∧ (MmCmd.of (mmCmd i)).accInit = i := by decide

theorem meets_MatrixCommandsComplete_load :
    (starts live 4607 0 { w0 := 0x21, w4 := 63 + 2 ^ 8 + 3070 * 2 ^ 16 }).oldest (unitEng 4607 0) 0x21
        = some (begun { w0 := 0x21, w4 := 63 + 2 ^ 8 + 3070 * 2 ^ 16 })
    ∧ (starts live 4607 0 { w0 := 0x21, w4 := 63 + 2 ^ 8 + 3070 * 2 ^ 16 }).portWait 4607 0 = false
    ∧ (starts live 4607 0 { w0 := 0x21, w4 := 63 + 2 ^ 8 + 3070 * 2 ^ 16 }).tileWait 4607 0 63 64 = false
    ∧ live.mem.hurt (cmRow 4607 3070) 1024 = false := by decide

theorem meets_MatrixCommandsComplete_store :
    (starts live 4607 0 { w0 := 0x22, w4 := 63 + 2 ^ 12 + 3070 * 2 ^ 20 }).oldest (unitEng 4607 0) 0x22
        = some (begun { w0 := 0x22, w4 := 63 + 2 ^ 12 + 3070 * 2 ^ 20 })
    ∧ bitAt (63 + 2 ^ 12 + 3070 * 2 ^ 20) 19 = false
    ∧ (starts live 4607 0 { w0 := 0x22, w4 := 63 + 2 ^ 12 + 3070 * 2 ^ 20 }).portWait 4607 0 = false
    ∧ (starts live 4607 0 { w0 := 0x22, w4 := 63 + 2 ^ 12 + 3070 * 2 ^ 20 }).tileWait 4607 0 63 64 = false
    ∧ (starts live 4607 0 { w0 := 0x22, w4 := 63 + 2 ^ 12 + 3070 * 2 ^ 20 }).samples = []
    ∧ live.badTile 4607 63 1 = none := by decide

/-- UPD of one group with immediate step 1, BF16 gradient in row 1 and no state. -/
def updCmd : Cmd := { w0 := 0x60, w4 := 2 ^ 12 + 2 ^ 16, w5 := 3071 + 2 ^ 36, w7 := 1 }

/-- MM_STORE of the last tile to ring 0, which the core holds. -/
def storing : State :=
  { starts live 4607 0 { w0 := 0x22, w4 := 63 + 2 ^ 12 + 2 ^ 19 } with active := some { layout1 with rings := [ring0] } }
theorem meets_MatrixCommandsComplete_ring :
    storing.oldest (unitEng 4607 0) 0x22 = some (begun { w0 := 0x22, w4 := 63 + 2 ^ 12 + 2 ^ 19 }) ∧ storing.runs 4607 = true
    ∧ storing.portWait 4607 0 = false ∧ storing.tileWait 4607 0 63 64 = false ∧ storing.ringDef (partOf 4607) 0 = some ring0
    ∧ (storing.ringAsk ring0 true (.cmd (unitEng 4607 0) 0) (storing.ftCore 4607)).1 = .slot 0 ∧ storing.samples = []
    ∧ storing.badTile 4607 63 1 = none := by decide

theorem meets_UpdateEngineCompletes_1 :
    (starts live 4607 2 updCmd).oldest (unitEng 4607 2) 0x60 = some (begun updCmd) ∧ updCheck updCmd = 0
    ∧ (UpdCmd.of updCmd).count = 1 ∧ (∀ k ∈ (UpdCmd.of updCmd).groupRows 0, (starts live 4607 2 updCmd).cmHurt 4607 k = false) := by decide

/-- Row 15 staged with step `t`, and the write of go that commits it. -/
def staged (t : Nat) : State := live.setReg .partUpdS5 (7 * 16 + 15) t
/-- PART_UPD_COMMIT with row 15 and go. -/
def commitWord : Word64 := 0x18000
/-- The state in which the commit checks its rows. -/
def committing (t : Nat) : State :=
  ((staged t).softWr .partUpdCommit 7 commitWord.toNat).wr F.partUpdCommit_go 7 ((staged t).rd F.partUpdCommit_go 7)

theorem meets_UpdateEngineCompletes_2 :
    (staged 1).gate .pf0 .partUpdCommit 7 true = .ok ∧ bitAt commitWord.toNat 16 = true
    ∧ (staged 1).flag F.partUpdCommit_pending 7 = false ∧ (committing 1).rd F.partUpdCommit_rows 7 = 2 ^ 15
    ∧ (∀ r ∈ rowsOf (2 ^ 15), rowFault (((committing 1).wr F.partUpdCommit_go 7 1).stagedRow 7 r) = 0) := by decide

theorem meets_UpdateEngineCompletes_3 :
    (rowsOf ((committing 0).rd F.partUpdCommit_rows 7)).find?
        (fun k => rowFault (((committing 0).wr F.partUpdCommit_go 7 1).stagedRow 7 k) != 0) = some 15 := by decide

/-- A validated commit of partition 7. -/
def pendingCommit : State := { live with updPend := [(7, { rows := 1, words := [], markEn := true, mark := 5 })] }
theorem meets_UpdateEngineCompletes_4 :
    mget pendingCommit.updPend 7 = some { rows := 1, words := [], markEn := true, mark := 5 }
    ∧ pendingCommit.rd F.partUpdCommitFt_commitFt 7 = 0 := by decide
/-- Its broadcast, before and after the last core adopted it. -/
def casting (w : List Nat) : State := { live with upd := [(7, { rows := 1, old := [], waiting := w, markEn := true, mark := 5 })] }
theorem meets_UpdateEngineCompletes_5 :
    mget (casting [4607]).upd (partOf 4607) = some { rows := 1, old := [], waiting := [4607], markEn := true, mark := 5 }
    ∧ (casting [4607]).updIdle 4607 = true := by decide
theorem meets_UpdateEngineCompletes_6 :
    mget (casting []).upd 7 = some { rows := 1, old := [], waiting := [], markEn := true, mark := 5 } := by decide

/-- A MOVE of one row from row 1 of core memory to the last. -/
def moveCmd : Cmd := { w0 := 0x70, w4 := 2 ^ 32, w5 := 1, w6 := 3071 }
/-- Core 0 runs it. -/
def moving (pr : Prog) : State := runQ live (unitEng 0 3) { started := [{ begun moveCmd with prog := pr }] }

theorem meets_MoverAndRingsComplete_1 :
    (match State.moveLoop (unitEng 0 3) 0 0 0 0 (MoveCmd.of (entry moveCmd)) 11
        { src := 1, dst := 1, ready := true, begun := true } (moving { src := 1, dst := 1, ready := true, begun := true }) with
      | (.over, _, s') => !s'.unacked (unitEng 0 3) 0 | _ => false) = true
    ∧ (moving { src := 1, dst := 1, ready := true, begun := true }).oldest (unitEng 0 3) 0x70
        = some { begun moveCmd with prog := { src := 1, dst := 1, ready := true, begun := true } } := by decide

theorem meets_MoverAndRingsComplete_2 :
    (moving { ready := true }).oldest (unitEng 0 3) 0x70 = some (begun moveCmd)
    ∧ (MoveCmd.of (entry moveCmd)).srcKind = 0 ∧ (MoveCmd.of (entry moveCmd)).dstKind = 0 ∧ (MoveCmd.of (entry moveCmd)).cvt = false
    ∧ (MoveCmd.of (entry moveCmd)).mx = 0 ∧ (MoveCmd.of (entry moveCmd)).rows = 1 ∧ (MoveCmd.of (entry moveCmd)).append = false
    ∧ (moving { ready := true }).classS 0 (cmRow 0 3071) = false ∧ (moving { ready := true }).unsent (unitEng 0 3) (cmRow 0 1) = false
    ∧ (moving { ready := true }).unsent (unitEng 0 3) (cmRow 0 3071) = false ∧ (moving { ready := true }).unacked (unitEng 0 3) 0 = false := by
  decide

theorem meets_MoverAndRingsComplete_2c : ((moving { ready := true }).mem.rdN (cmRow 0 1) 512).length = 512 := by decide +kernel

theorem meets_MoverAndRingsComplete_2b :
    (moving { ready := true }).rowRead 0 (cmRow 0 1) = (.data ((moving { ready := true }).mem.rdN (cmRow 0 1) 512), moving { ready := true })
    ∧ ((moving { ready := true }).rowWrite 0 (cmRow 0 3071) ((moving { ready := true }).mem.rdN (cmRow 0 1) 512)).1 = .done
    ∧ ((moving { ready := true }).rowWrite 0 (cmRow 0 3071) ((moving { ready := true }).mem.rdN (cmRow 0 1) 512)).2.unacked (unitEng 0 3) 0
      = false := ⟨rfl, by decide, by decide⟩

/-- An access that waits on ring 0 of partition 7. -/
def waiter : RingWait := { part := 7, ring := 0, write := true, who := .cmd (unitEng 4607 0) 0, since := 0 }
/-- A state that holds it, with a timeout of 5. -/
def waiting : State :=
  { starts live 4607 0 { w0 := 0x22 } with
    active := some { layout1 with rings := [{ ring0 with timeout := 5 }] }, ringWaits := [waiter], ft := 5 }

theorem meets_MoverAndRingsComplete_3 :
    waiting.ringWaits[0]? = some waiter ∧ waiting.ringDef waiter.part waiter.ring = some { ring0 with timeout := 5 } ∧ waiter.slot = none
    ∧ (waiting.ringSt waiter.part waiter.ring).ok waiter.write = true ∧ waiting.ringResets = []
    ∧ ({ waiting with ft := 4 } : State).whoFt waiter.who < waiter.since + 5 := by decide
theorem meets_MoverAndRingsComplete_4 :
    waiter.who = .cmd (unitEng 4607 0) 0 ∧ waiter.since + 5 ≤ waiting.ftUnit (unitEng 4607 0)
    ∧ waiting.clockStopped (cluIdx (unitEng 4607 0 / 4)) = false ∧ unitEng 4607 0 % 4 = 0
    ∧ ({ waiting with ringWaits := dropNth waiting.ringWaits 0 } : State).startedOf (unitEng 4607 0) 0 = some (begun { w0 := 0x22 }) := by
  decide
theorem meets_MoverAndRingsComplete_5 :
    live.gate .pf0 .partRingReset 7 true = .ok ∧ bitAt (0x80000000 : Word64).toNat 31 = true := by decide

theorem meets_UpdateEngineCompletes_7 :
    bitAt (0x10000 : Word64).toNat 16 = true
    ∧ ((live.softWr .partUpdCommit 7 0x10000).wr F.partUpdCommit_go 7 (live.rd F.partUpdCommit_go 7)).rd F.partUpdCommit_rows 7 = 0
    ∧ (casting [4607]).alive 4607 = true := by decide

/-- Gang 31 of the last core waits on the ring. -/
def gangWaits : State :=
  { ringed 0x55 true with
    active := some { layout1 with rings := [{ ring0 with timeout := 5 }] }, ringWaits := [{ waiter with who := .gang 4607 31 }], ft := 5 }
theorem meets_MoverAndRingsComplete_6 :
    gangWaits.ringWaits[0]? = some { waiter with who := .gang 4607 31 } ∧ gangWaits.ringDef 7 0 = some { ring0 with timeout := 5 }
    ∧ waiter.since + 5 ≤ gangWaits.ftCore 4607 ∧ gangWaits.clockStopped (cluIdx 4607) = false ∧ gangWaits.gang 4607 31 = some gang0
    ∧ gangWaits.launch 4607 1 = some launch0
    ∧ gangWaits.iline 4607 launch0.ctxPart launch0.ctx ((launch0.code + 8 * gang0.pc) / 512 * 512) = some (line0 0x55) := by decide

/-! ## Translation and layouts -/

/-- Partition 7 has the only tenancy and one context and one sequence slot. -/
def xlt7 : State :=
  { live with active := some layout1, ctxs := [(7 * 64 + 63, 4096)],
              seqSlots := [(7 * 32 + 31, { root := 8, capacity := 2 ^ 20, pageShift := 21, tokenBytes := 512, append := 9,
                                           ranges := [(0, 9, true)] })] }
/-- That state after a request's fields were written by PF0. -/
def asked (num : Nat) : State := xlt7.wr F.partXltReq_number (xltCopy .pf0 7) num

theorem meets_TranslationRequestsComplete_1 :
    xlt7.gate .pf0 .partXltReq (xltCopy .pf0 7) true = .ok ∧ bitAt (9 : Word64).toNat 3 = true ∧ bits (9 : Word64).toNat 0 3 = 1
    ∧ xlt7.flag F.partXltReq_go (xltCopy .pf0 7) = false
    ∧ (xlt7.softWr .partXltReq (xltCopy .pf0 7) 9).xltReach 7 (xltCopy .pf0 7) 0 = true
    ∧ xlt7.rd F.partXltArg0_root (xltCopy .pf0 7) = 0 ∧ firstFree xlt7.ctxs 7 64 = some 0 := by decide

/-- A write of op `op` on number `num`, with go. -/
def reqWord (op num : Nat) : Word64 := BitVec.ofNat 64 (op + 8 + num * 2 ^ 8)

theorem test_request_word :
    ((xlt7.softWr .partXltReq (xltCopy .pf0 7) (reqWord 2 63).toNat).rd F.partXltReq_number (xltCopy .pf0 7)) = 63 := by decide

theorem meets_TranslationRequestsComplete_2 :
    bits (reqWord 2 63).toNat 0 3 = 2 ∧ (mget xlt7.ctxs (7 * 64 + 63)).isSome = true := by decide

theorem meets_TranslationRequestsComplete_2b :
    (xlt7.softWr .partXltReq (xltCopy .pf0 7) (reqWord 2 63).toNat).ctxUsed 7 63 = false := by decide +kernel

theorem meets_TranslationRequestsComplete_3 :
    bits (11 : Word64).toNat 0 3 = 3 ∧ firstFree xlt7.seqSlots 7 32 = some 0
    ∧ ((xlt7.wr F.partXltArg1_capacity (xltCopy .pf0 7) (2 ^ 20)).wr F.partXltArg1_pageShift (xltCopy .pf0 7) 21).rd F.partXltArg1_capacity
        (xltCopy .pf0 7) = 2 ^ 20
    ∧ ((xlt7.wr F.partXltArg1_capacity (xltCopy .pf0 7) (2 ^ 20)).wr F.partXltArg1_pageShift (xltCopy .pf0 7) 21).rd F.partXltArg1_pageShift
        (xltCopy .pf0 7) = 21 := by decide

theorem meets_TranslationRequestsComplete_4_5 : ∀ op ∈ [4, 5],
    bits (reqWord op 31).toNat 0 3 = op ∧ (xlt7.softWr .partXltReq (xltCopy .pf0 7) (reqWord op 31).toNat).rd F.partXltReq_number (xltCopy .pf0 7) = 31
    ∧ (xlt7.seqSlot 7 31).isSome = true := by decide

theorem meets_TranslationRequestsComplete_6 :
    bits (8 : Word64).toNat 0 3 = 0 ∧ bitAt (8 : Word64).toNat 3 = true ∧ 6 ≤ bits (15 : Word64).toNat 0 3 := by decide

theorem meets_TranslationEventsComplete_1 :
    live.gate .pf0 .partXltInv 7 true = .ok ∧ bitAt (0x80 : Word64).toNat 7 = true ∧ live.flag F.partXltInv_go 7 = false := by decide
theorem meets_TranslationEventsComplete_2 :
    ({ live with xltInv := [{ part := 7, all := true, ctx := 0 }] }).xltInv.find? (fun (x : XltInv) => x.part == 7) = some { part := 7, all := true, ctx := 0 } := by
  decide
theorem meets_TranslationEventsComplete_3 :
    xlt7.seqSlot 7 31 = some { root := 8, capacity := 2 ^ 20, pageShift := 21, tokenBytes := 512, append := 9, ranges := [(0, 9, true)] } := by
  decide
/-- A row on its way into the remote-data cache of partition 0. -/
def caching : State := { live with active := some { layout1 with carve := List.replicate 8 7 }, rdcFills := [{ part := 0, row := smBase + smPart, data := [] }] }
theorem meets_TranslationEventsComplete_4 :
    caching.rdcFills[0]? = some { part := 0, row := smBase + smPart, data := [] } ∧ caching.rdc = []
    ∧ (caching.rdc.filter (fun l => l.part == 0)).length < ({ caching with rdcFills := dropNth caching.rdcFills 0 } : State).rdcLines 0 := by decide
theorem meets_TranslationEventsComplete_5 :
    scrubRow 1 = some 512 ∧ live.mem.corrections 512 512 = 0 ∧ live.mem.hurt 512 512 = false
    ∧ ({ live.mem with bad := [16] } : Store).hurt 512 512 = true
    ∧ scrubRow (smBase / 512) = some smBase ∧ hbmEnd ≤ smBase ∧ smBase < cmBase
    ∧ scrubRow ((cmBase + 4608 * cmCore) / 512 - 1) = some (cmBase + 4608 * cmCore - 512) := by decide
/-- A row on its way that a write has made stale, a device without cache lines, and a line of another row. -/
theorem meets_TranslationEventsComplete_6 :
    live.rdcLines 0 = 0 ∧ ({ part := 0, row := 0, data := [], stale := true } : RdcFill).stale = true
    ∧ ({ caching with rdc := [{ part := 0, row := smBase + smPart + 512, data := [] }] } : State).rdc.find? (fun l => l.part == 0)
      = some { part := 0, row := smBase + smPart + 512, data := [] } := by decide
/-- A cache with every line in use. -/
def fullCache : State := { caching with rdc := List.replicate (caching.rdcLines 0) { part := 0, row := 0, data := [] } }
theorem meets_TranslationEventsComplete_7 :
    fullCache.rdcLines 0 ≤ ((fullCache.rdc.filter (fun l => !(l.part == 0 && l.row == smBase + smPart))).filter (fun l => l.part == 0)).length := by
  rw [fullCache, List.filter_replicate_of_pos (by decide), List.filter_replicate_of_pos (by decide), List.length_replicate]
  exact Nat.le_refl _

theorem meets_TranslationRequestsComplete_7 :
    (xlt7.wr F.partXltArg0_root (xltCopy .pf0 7) 1).rd F.partXltArg0_root (xltCopy .pf0 7) % 4096 ≠ 0
    ∧ firstFree ((List.range 64).map (fun k => (7 * 64 + k, 0))) 7 64 = none
    ∧ mget xlt7.ctxs (7 * 64 + 62) = none ∧ xlt7.seqSlot 7 30 = none ∧ 2 ^ 20 < 2 ^ 20 + 1 := by decide
theorem meets_TranslationRequestsComplete_8 :
    ((xlt7.wr F.qState_state (qUnit (.core 4607 3)) 1).wr F.qCtrl_ctx (qUnit (.core 4607 3)) 63).ctxUsed 7 63 = true := by decide +kernel

theorem meets_LayoutLoadsComplete_1 :
    live.gate .pf0 .hfLayoutCmd 0 true = .ok ∧ bitAt (1 : Word64).toNat 0 = true ∧ bitAt (1 : Word64).toNat 1 = false
    ∧ bitAt (1 : Word64).toNat 2 = false ∧ live.load = none ∧ live.swap = none ∧ live.heldLoad = false ∧ live.stage = 7
    ∧ live.tracked = [] := by decide
/-- A load in progress, of an image of one byte (or none read yet). -/
def loading (y : Option Layout) : State := { live with load := some { src := 0, len := 1, retired := [], dark := 0, img := some (live.imageBytes 0 1), passed := y } }
theorem meets_LayoutLoadsComplete_2 : (loading none).gate .pf0 .hfLayoutCmd 0 true = .ok ∧ (loading none).load.isSome = true := by decide
theorem meets_LayoutLoadsComplete_4 :
    (match ((loading none).wr F.hfLayoutCmd_load 0 0).validateLoad { src := 0, len := 1, retired := [], dark := 0, img := some (live.imageBytes 0 1) }
        ((loading none).imageBytes 0 1) with | .error _ => true | .ok _ => false) = true
    ∧ (loading none).imageBytes 0 1 = live.imageBytes 0 1 := by decide +kernel
theorem meets_LayoutLoadsComplete_5 : (loading (some layout1)).load.isSome = true := by decide

/-- A READY standby, and a swap pending at `w`. -/
def swapping (w : Option Swap) : State := { live.wr F.hfLayoutStatus_standby 0 2 with standby := some layout1, swap := w, ft := 3000 }
theorem meets_LayoutSwapsComplete_1 :
    ((swapping none).wr F.hfLayoutSwapFt_swapFt 0 5000).gate .pf0 .hfLayoutCmd 0 true = .ok ∧ bitAt (2 : Word64).toNat 0 = false
    ∧ bitAt (2 : Word64).toNat 1 = true ∧ bitAt (2 : Word64).toNat 2 = false
    ∧ (swapping none).ft + 2000 ≤ ((swapping none).wr F.hfLayoutSwapFt_swapFt 0 5000).rd F.hfLayoutSwapFt_swapFt 0
    ∧ ((swapping none).wr F.hfLayoutSwapFt_swapFt 0 5000).rd F.hfLayoutStatus_standby 0 = 2 ∧ (swapping none).active = none
    ∧ layout1.roles = [] := by decide
theorem meets_LayoutSwapsComplete_2 :
    (swapping none).rd F.hfLayoutStatus_standby 0 = 2 ∧ (swapping none).rd F.hfLayoutSwapFt_swapFt 0 < (swapping none).ft + 2000 := by decide
theorem meets_LayoutSwapsComplete_3 :
    (swapping (some { ft := 4000, cause := 1 })).gate .pf0 .hfLayoutCmd 0 true = .ok ∧ bitAt (4 : Word64).toNat 0 = false
    ∧ bitAt (4 : Word64).toNat 1 = false ∧ bitAt (4 : Word64).toNat 2 = true
    ∧ (swapping (some { ft := 4000, cause := 1 })).ft + 1000 ≤ 4000 := by decide
theorem meets_LayoutSwapsComplete_4 : 3000 ≤ (swapping (some { ft := 3000, cause := 1 })).ft ∧ (swapping none).act = none := by decide
theorem meets_LayoutSwapsComplete_5 : (swapping (some { ft := 3000, cause := 1, begun := true })).quiesced = true := by decide
theorem meets_LayoutSwapsComplete_6 :
    (swapping (some { ft := 3000, cause := 1, begun := true, q := some 3000 })).standby = some layout1
    ∧ (swapping (some { ft := 3000, cause := 1, begun := true, q := some 3000 })).sinceLoad = [] := by decide
theorem meets_LayoutLoadsComplete_6 :
    (live.wr F.hfBootStatus_stage 0 6).stage ≠ 7 ∧ (live.wr F.hfBootStatus_stage 0 6).gate .pf0 .hfLayoutCmd 0 true = .ok
    ∧ (loading (some layout1)).load.map (·.passed) = some (some layout1)
    ∧ ({ live with load := some { src := 0, len := 1, retired := [], dark := 0 } } : State).imageHeld 0 1 = [] := by decide
theorem meets_LayoutSwapsComplete_7 :
    live.rd F.hfLayoutStatus_standby 0 ≠ 2 ∧ (swapping (some { ft := 4000, cause := 1 })).swap.isSome = true
    ∧ (((5000 : Nat) : Int) - ((0 : Nat) : Int)) % (layout1.shiftLen : Int) ≠ 0
    ∧ ((swapping none).wr F.hfLayoutSwapFt_swapFt 0 5000).rd F.hfLayoutSwapFt_swapFt 0 = 5000
    ∧ (∀ w, live.swap = some w → w.ft < live.ft + 1000) := by
  refine ⟨by decide, by decide, by decide, by decide, ?_⟩
  intro w h; exact absurd h (by decide +revert)
/-- A pending swap of the device's own, with core 5 retired since the load and a role of its in the standby. -/
def unabsorbable : State :=
  { swapping (some { ft := 3000, cause := 2 }) with
    standby := some { layout1 with roles := [(5, { kind := 1, bench := 0, index := 0 })] }, sinceLoad := [5] }
theorem meets_LayoutSwapsComplete_8 : unabsorbable.unabsorbed.isSome = true ∧ (swapping (some { ft := 3000, cause := 2 })).unabsorbed = none := by
  decide

/-! ## Time, clocks and the schedule -/

/-- A frame of FT value 0 passes its CRC-6, and one of value 1 with check bits 0 does not. -/
theorem meets_FabricTimeEventsComplete_1_2 :
    bits (0 : Word64).toNat 58 6 = crc6 58 (bits (0 : Word64).toNat 0 58) ∧ bits (1 : Word64).toNat 58 6 ≠ crc6 58 (bits (1 : Word64).toNat 0 58) := by
  decide +kernel
/-- The reference is enabled, an edge is expected at `x` and FT is `n`. -/
def edgeAt (x n : Nat) : State :=
  { live.wr F.hfFtCtrl_refEn 0 1 with ft := n, pps := { value := some 1000000000, expect := some x } }
theorem meets_FabricTimeEventsComplete_3 :
    (edgeAt 3000000100 3000000000).flag F.hfFtCtrl_refEn 0 = true ∧ (edgeAt 3000000100 3000000000).ft ≤ 3000000100 + 100
    ∧ 3000000100 ≤ (edgeAt 3000000100 3000000000).ft + 100 := by decide
theorem meets_FabricTimeEventsComplete_4 :
    (edgeAt 3000000000 3000000101).flag F.hfFtCtrl_refEn 0 = true ∧ 3000000000 + 100 < (edgeAt 3000000000 3000000101).ft
    ∧ (edgeAt 3000000000 3000000101).pps.rej ≠ 2 := by decide
theorem meets_FabricTimeEventsComplete_5 :
    (edgeAt 0 2000000000).pps.last + 2000000000 ≤ (edgeAt 0 2000000000).ft ∧ (edgeAt 0 2000000000).pps.lost = false := by decide
theorem meets_FabricTimeEventsComplete_6 :
    (edgeAt 0 50000000).rd F.hfFtStatus_state 0 ≠ 3 ∧ (edgeAt 0 50000000).syncAt + 50000000 ≤ (edgeAt 0 50000000).ft := by decide

/-- The last cluster runs, and holds `x`. -/
def clocked (x : Clu) : State := { (live.wr F.partPwrClu_state 287 2).setClu 287 x with ft := 20000 }
theorem meets_FrequencyChangesComplete_1 :
    (clocked { trim := 3 }).cluSt (36 * 7 + 35) = { trim := 3 } ∧ (∀ i, i < 8 → (List.replicate 8 30).getD i 0 ≤ 30)
    ∧ (List.replicate 8 30).length = 8 := by decide
theorem meets_FrequencyChangesComplete_2_3 :
    (clocked {}).cluState (36 * 7 + 35) = 2 ∧ ((clocked {}).cluSt (36 * 7 + 35)).hold = false
    ∧ ((clocked {}).wr F.cluOp_curOp 287 0).rd F.cluOp_curOp (36 * 7 + 35) = 0 := by decide
theorem meets_FrequencyChangesComplete_5 :
    64 ≤ ((clocked { stretched := 64, demote := 4 }).wr F.cluOp_curOp 287 7 |>.cluSt (36 * 7 + 35)).stretched
    ∧ min (((clocked { stretched := 64, demote := 4 }).wr F.cluOp_curOp 287 7).rd F.cluOp_curOp (36 * 7 + 35)) 4 = 3 + 1 := by decide
theorem meets_FrequencyChangesComplete_6 :
    ((clocked { fchg := some { target := 3, zero := 0, rampEnd := some 20000 } }).cluSt (36 * 7 + 35)).fchg
        = some { target := 3, zero := 0, rampEnd := some 20000 }
    ∧ 20000 ≤ (clocked { fchg := some { target := 3, zero := 0, rampEnd := some 20000 } }).ft := by decide
theorem meets_FrequencyChangesComplete_7 :
    ((clocked { fchg := some { target := 3, zero := 13750 } }).cluSt (36 * 7 + 6 * 5 + 5)).fchg = some { target := 3, zero := 13750 }
    ∧ 13750 + 1250 * 5 ≤ (clocked { fchg := some { target := 3, zero := 13750 } }).ftAt (36 * 7 + 6 * 5 + 5) := by decide
theorem meets_FrequencyChangesComplete_8_9 : ∀ k ∈ [1, 2, 3],
    ((clocked { fchg := some { target := 3, zero := 0, stage := k } }).cluSt (36 * 7 + 35)).fchg = some { target := 3, zero := 0, stage := k }
    ∧ ((clocked { fchg := some { target := 3, zero := 0, stage := k } }).cluSt (36 * 7 + 35)).droop = false := by decide
theorem meets_FrequencyChangesComplete_10 :
    ({ target := 3, zero := 0, stage := 1 } : Fchg).stopped + 20000
      ≤ (clocked { fchg := some { target := 3, zero := 0, stage := 1 }, droop := true }).ftAt (36 * 7 + 35) := by decide

/-- One phase from tick 0 on, with a lead of 10,000 ticks. -/
def phase0 : Phase := { offset := 0, op := 5, prio := 0x24, lead := 10000, slackRef := 0 }
/-- A layout with it is active; a shift may be open. -/
def scheduled (o : Bool) : State :=
  { (if o then live.wr F.hfShift_open 0 1 else live) with active := some { layout1 with phases := [phase0] } }
theorem meets_ShiftScheduleCompletes_1 :
    (scheduled false).shiftStart { layout1 with phases := [phase0] } (scheduled false).nextShift ≤ (scheduled false).ft
    ∧ (scheduled false).swap = none ∧ (scheduled false).resets = [] ∧ (scheduled false).repairs = []
    ∧ bitAt ((scheduled false).schedTally ((scheduled false).shiftStart { layout1 with phases := [phase0] } (scheduled false).nextShift)) 0
      = false := by decide
theorem meets_ShiftScheduleCompletes_2_3 :
    ({ layout1 with phases := [phase0] } : Layout).phases[0]? = some phase0 ∧ (scheduled true).flag F.hfShift_open 0 = true
    ∧ (scheduled true).phaseOn = false ∧ mget (scheduled true).plan 7 = none
    ∧ (scheduled true).shiftStart { layout1 with phases := [phase0] } ((scheduled true).rd F.hfShift_shift 0) + phase0.offset ≤ (scheduled true).ft
    ∧ (scheduled true).shiftStart { layout1 with phases := [phase0] } ((scheduled true).rd F.hfShift_shift 0) + phase0.offset
      ≤ (scheduled true).ftPart 7 + phase0.lead := by decide

/-! ## The assay -/

/-- A sample of the last core's command 0, whose witness is core 4000. -/
def sample (ph : SamplePhase) (t : Option Nat) : Sample :=
  { core := 4607, eng := 3, id := 0, kind := 0, witness := 4000, third := t, phase := ph, captured := 0, since := 0, entry := entry {} }
/-- A state that holds it. -/
def sampled (ph : SamplePhase) (t : Option Nat) : State := { live with samples := [sample ph t], active := some layout1, ft := 2 ^ 40 }
theorem meets_DuplicatesComplete : ∀ ph ∈ [SamplePhase.copying, .running, .comparing, .repeating], ∀ t ∈ [none, some 4001],
    (sampled ph t).sampleOf 4607 3 0 = some (sample ph t) ∧ (sample ph t).phase = ph ∧ (sample ph t).third = t := by decide
theorem meets_DuplicatesComplete_verdict : verdictOf (1 : Fin 3).val (0 : Fin 3).val = 5 := by decide
theorem meets_DuplicatesComplete_timeout :
    (sample .comparing none).since + (sampled .comparing none).assayWait (partOf 4607) ≤ (sampled .comparing none).ftCore 4607 := by decide

/-- The assay's canaries are on, and core 4607 is the next of the cycle. -/
def canaries : State :=
  { live.wr F.partPwrClu_state 287 2 with
    active := some { layout1 with assay := { canary := true } }, canaryNext := 4607 }
theorem meets_CanariesAndLogsComplete_1 :
    canaries.policy.canary = true ∧ canaries.ready = true ∧ canaries.canaryNext < 4608 ∧ canaries.available canaries.canaryNext = true := by
  decide
theorem meets_CanariesAndLogsComplete_2 :
    ({ live with canaries := [{ core := 4607 }] }).canaries.find? (fun (c : Canary) => c.core == 4607) = some { core := 4607 } := by decide
theorem meets_CanariesAndLogsComplete_3 : ({ live with retirePend := [(1, 2, 3)] }).retirePend[0]? = some (1, 2, 3) := by decide
theorem meets_CanariesAndLogsComplete_4 :
    ({ live with reports := [{ number := 0, ft := 0, cause := 1, severity := 0, unit := 0 }] }).reports[0]?
        = some { number := 0, ft := 0, cause := 1, severity := 0, unit := 0 }
    ∧ live.log.length < 8192 := by decide

theorem meets_FabricTimeEventsComplete_7 :
    64 * bits (0 : Word64).toNat 0 58 ≤ live.ft + 1 ∧ live.ft ≤ 64 * bits (0 : Word64).toNat 0 58 + 1
    ∧ ({ live with ft := 2 } : State).ft > 64 * bits (0 : Word64).toNat 0 58 + 1
    ∧ mgetD ({ live with frameFails := [(287, 3)] } : State).frameFails 287 0 = 3 := by decide
theorem meets_FabricTimeEventsComplete_8 :
    (edgeAt 3000000100 3000000000).pps.missed 3000000000 = 0 ∧ (edgeAt 1000000000 3000000101).pps.missed 3000000101 = 2
    ∧ live.flag F.hfFtCtrl_refEn 0 = false ∧ 2 ≤ ({ (edgeAt 0 0).pps with good := 2 } : Pps).good
    ∧ ({ (edgeAt 0 0).pps with rej := 2 } : Pps).lost = false ∧ live.ft < live.pps.last + 2000000000 := by decide
theorem meets_FrequencyChangesComplete_11 :
    30 < [30, 31].getD 1 0 ∧ (∀ i, i < 1 → [30, 31].getD i 0 ≤ 30) ∧ 1 - 1 < (live.cluSt 287).ageing
    ∧ (clocked {}).cluState 287 = 2 ∧ (live.wr F.partPwrClu_state 287 0).cluState 287 ≠ 2 ∧ (clocked {}).partDark 7 = false ∧ (clocked {}).transitHold.contains 7 = false := by
  decide
theorem meets_FrequencyChangesComplete_12 :
    min (((clocked { stretched := 64 }).wr F.cluOp_curOp 287 0).rd F.cluOp_curOp (36 * 7 + 35)) 7 = 0
    ∧ ({ target := 3, zero := 0, rampEnd := some 5 } : Fchg).rampEnd = some 5 ∧ ({ target := 3, zero := 0 } : Fchg).stage = 0 := by decide
theorem meets_ShiftScheduleCompletes_4 :
    (scheduled false).noPhaseAt 0 = false ∧ ({ scheduled false with swap := some { ft := 5, cause := 1 } } : State).noPhaseAt 5 = true
    ∧ bitAt (((scheduled false).wr F.hfSchedTally_shiftEn 0 1).schedTally 0) 0 = true
    ∧ (scheduled true).nextPhase { layout1 with phases := [phase0] } 7 = (0, 0)
    ∧ (scheduled true).shiftStart { layout1 with phases := [phase0] } 0 + phase0.offset ≤ (scheduled true).ftPart 7 := by decide
/-- A sample that has just begun. -/
def young : State := { sampled .comparing none with samples := [{ sample .comparing none with since := 2 ^ 40 }] }
theorem meets_DuplicatesComplete_inTime :
    young.sampleOf 4607 3 0 = some { sample .comparing none with since := 2 ^ 40 }
    ∧ young.ftCore 4607 < 2 ^ 40 + young.assayWait (partOf 4607)
    ∧ (sample .repeating none).since + (sampled .repeating none).assayWait (partOf 4607) ≤ (sampled .repeating none).ftCore 4607 := by decide
theorem meets_CanariesAndLogsComplete_5 :
    (¬ (4608 ≤ canaries.canaryNext ∧ canaries.canaryCycle + hourTicks ≤ canaries.up)) ∧ ({ live with active := some { layout1 with assay := { canary := false } } } : State).policy.canary = false
    ∧ ({ live with canaries := [{ core := 4607, rerun := true }] } : State).canaries.find? (fun (c : Canary) => c.core == 4607)
      = some { core := 4607, rerun := true } := by decide
/-- A report of severity `k`. -/
def ofSeverity (k : Nat) : Report := { number := 0, ft := 0, cause := 1, severity := k, unit := 0 }
/-- A full log has a record of low severity to lose, a record of severity 0 only, or neither. -/
theorem meets_CanariesAndLogsComplete_6 :
    (List.replicate 8192 (ofSeverity 2)).length = 8192
    ∧ takeOut (fun (x : Report) => x.severity == 2 || x.severity == 3) (List.replicate 8192 (ofSeverity 2)) = some (List.replicate 8191 (ofSeverity 2))
    ∧ takeOut (fun (x : Report) => x.severity == 0) (List.replicate 8192 (ofSeverity 0)) = some (List.replicate 8191 (ofSeverity 0)) :=
  ⟨List.length_replicate .., rfl, rfl⟩
theorem takeOut_none (p : Report → Bool) (r : Report) (h : p r = false) (n : Nat) : takeOut p (List.replicate n r) = none := by
  induction n with
  | zero => rfl
  | succ n ih => simp [List.replicate_succ, takeOut, h, ih]
theorem meets_CanariesAndLogsComplete_7 : ∀ k ∈ [0, 1],
    takeOut (fun (x : Report) => x.severity == 2 || x.severity == 3) (List.replicate 8192 (ofSeverity k)) = none
    ∧ takeOut (fun (x : Report) => x.severity == 0) (List.replicate 8192 (ofSeverity 1)) = none := by
  intro k h
  simp only [List.mem_cons, List.not_mem_nil, or_false] at h
  rcases h with rfl | rfl <;> exact ⟨takeOut_none _ _ (by decide) _, takeOut_none _ _ (by decide) _⟩

/-! ## Networks and the fabric -/

/-- The last link of partition 7 in state `k`. -/
def linked (k : Nat) : State := live.wr F.partD2dLink_state (linkIdx 7 17) k
theorem meets_NetworkEventsComplete_1_2 :
    (linked 3).linkSt 7 17 = 3 ∧ (linked 1).linkSt 7 17 = 1 ∧ (linked 3).partDark 7 = false ∧ (linked 1).partDark 7 = false
    ∧ ∀ k, ([1] : List Nat).getD k 0 ≤ 1 := by
  refine ⟨by decide, by decide, by decide, by decide, fun k => ?_⟩
  rcases k with _ | k <;> simp
/-- A row of core 0's mover on its way to core 0. -/
def bulkRow : BulkRow := { unit := unitEng 0 3, id := 0, row := cmRow 0 0, addr := 0, data := [1], seq := 0 }
theorem meets_NetworkEventsComplete_3_4 :
    ({ live with bulk := [bulkRow] }).bulk[0]? = some bulkRow
    ∧ ({ live with bulk := [bulkRow] } : State).rowPut (bulkRow.unit / 4) bulkRow.row bulkRow.data
      = (.done, (({ live with bulk := [bulkRow] } : State).rowPut (bulkRow.unit / 4) bulkRow.row bulkRow.data).2) := ⟨rfl, rfl⟩
theorem meets_NetworkEventsComplete_5 :
    bitAt (live.rd F.partNetRouter_failed 7) 35 = false ∧ live.board.powered = true ∧ 7 < live.flash.routers.length := by decide
theorem meets_NetworkEventsComplete_6 :
    ({ live with netWant := { dark := 1 } }).net ≠ ({ live with netWant := { dark := 1 } }).netWant ∧ live.active = none ∧ live.bulk = [] := by
  decide

/-- The last port in state `k`, and what it holds. -/
def ported (k : Nat) (p : Port) : State := (live.wr F.vxPortState_state 63 k).setPort 63 p
theorem meets_TimeMasterEventsComplete_1_2 : (ported 4 {}).portUp 63 = true ∧ ((ported 4 {}).port 63).syncAt = none := by decide
/-- The best key the module knows. -/
def best : Announce := { r := 2, prio := 2, serial := 9, id := 0, hops := 1, epoch := 5 }
/-- A state with it, followed through port 63. -/
def following : State := { ported 4 {} with elect := { best := some best, port := some 63, epoch := 5 }, ft := 4000000 }
theorem meets_TimeMasterEventsComplete_3 :
    following.elect.port = some 63 ∧ following.pps.locked = false ∧ following.rd F.hfFtStatus_state 0 ≠ 3
    ∧ (ported 4 {}).elect.port ≠ some 63 := by decide
theorem meets_TimeMasterEventsComplete_4 :
    keyBelow { best with serial := 8, hops := 2 } best = true ∧ keyBelow { best with serial := 10, hops := 2 } best = false
    ∧ best.epoch = following.elect.epoch := by decide
theorem meets_TimeMasterEventsComplete_5 :
    following.elect.heard + 4000000 ≤ following.ft ∧ (following.wr F.hfFtCtrl_masterOk 0 1).flag F.hfFtCtrl_masterOk 0 = true := by decide

theorem meets_LinkBringUpCompletes_1_2 :
    (ported 1 {}).pst 63 = 1 ∧ (ported 2 {}).pst 63 = 2 ∧ (ported 4 {}).pst 63 = 4
    ∧ (({ ported 4 {} with ft := 1000 } : State).port 63).lastGood + 1000 ≤ ({ ported 4 {} with ft := 1000 } : State).ftPort 63 := by decide
/-- Port 63 is UP, NumVFs 1, bay 7 LIT and laser 15 in state `k`; no booking stands. -/
def lased (k : Nat) : State := (((ported 4 {}).wr F.hfHostLink_vfs 0 1).wr F.lampState_state 7 2).setLaser 7 15 k
theorem meets_unbooked : (lased 1).anyBooked = false ∧ (lased 1).pst 63 = 4 ∧ (lased 1).gate .pf0 .hfVxId 0 true = .ok := by decide +kernel
/-- Bay 7 is LIT with every A laser running. -/
def lit (s : State) : State :=
  loop 8 (fun w s => s.setLaser 7 (2 * w) 1) ((s.wr F.lampState_state 7 2).wr F.lampState_verified 7 1)
theorem meets_LinkBringUpCompletes_3 :
    ((lit (ported 5 {})).wr F.vxPortCtrl_enable 63 1).pst 63 = 5 ∧ (lit (ported 5 {})).lampSt (portPart 63) = 2
    ∧ ((lit (ported 5 {})).port 63).downAt + 1000000 ≤ ({ lit (ported 5 {}) with ft := 1000000 } : State).ftPort 63
    ∧ (lit (ported 5 {})).partDark (portPart 63) = false
    ∧ ((lit (ported 5 {})).wr F.vxPortCtrl_enable 63 1).flag F.vxPortCtrl_enable 63 = true := by decide +kernel
theorem meets_LinkBringUpCompletes_4 : (lit (ported 1 {})).pst 63 = 1 ∧ (lit (ported 1 {})).portLight 63 = true := by decide +kernel
theorem meets_LinkBringUpCompletes_5_6_7 : (ported 2 {}).pst 63 = 2 ∧ ((ported 2 {}).port 63).helloAt = none := by decide
/-- A HELLO that echoes, with its chain. -/
def hello0 : Hello := { serial := 1, id := 0, idValid := false, port := 0, nonce := 0, peerNonce := 0, keyId := 0, sig := [] }
theorem meets_LinkBringUpCompletes_8 :
    (lit (ported 2 { hello := some hello0, chain := some [1], echoed := true })).pst 63 = 2
    ∧ ((lit (ported 2 { hello := some hello0, chain := some [1], echoed := true })).port 63).hello = some hello0
    ∧ (lit (ported 2 { hello := some hello0, chain := some [1], echoed := true })).chainOf 63 = some [1]
    ∧ ((lit (ported 2 { hello := some hello0, chain := some [1], echoed := true })).port 63).echoed = true
    ∧ (lit (ported 2 { hello := some hello0, chain := some [1], echoed := true })).lampGo 63 = true := by decide +kernel

/-- An advertisement, and 1,024 others. -/
def lsa0 : Lsa := { origin := 5000, id := 0, idValid := false, seq := 1, recs := [] }
/-- A full database. -/
def full : State := { ported 4 {} with lsdb := (List.range 1024).map (fun i => { lsa := { lsa0 with origin := i }, at_ := 0 }) }
theorem meets_RoutingEventsComplete_1 : (ported 4 {}).portUp 63 = true ∧ (ported 4 {}).lsaNewer lsa0 = true ∧ (ported 4 {}).lsdb.length < 1024 := by decide
theorem meets_RoutingEventsComplete_1b :
    full.portUp 63 = true ∧ full.lsaNewer lsa0 = true ∧ 1024 ≤ full.lsdb.length ∧ (∀ e ∈ full.lsdb, e.lsa.origin ≠ lsa0.origin) := by
  decide +kernel
theorem meets_RoutingEventsComplete_2 :
    ({ live with ft := 30000000000 }).lsaAt + 30000000000 ≤ ({ live with ft := 30000000000 }).ft
    ∧ (live.wr F.hfVxCtrl_floodEn 0 1).flag F.hfVxCtrl_floodEn 0 = true := by decide
theorem meets_RoutingEventsComplete_3 :
    ({ live with lsdb := [{ lsa := lsa0, at_ := 0 }], ft := 120000000000 }).lsdb[0]? = some { lsa := lsa0, at_ := 0 } := by decide
/-- A Class C packet for module 1 with `n` hops left. -/
def hopping (n : Nat) : List Byte := leBytes 8 (1 + n * 2 ^ 36) ++ leBytes 8 0
/-- Port 63 holds it; port 62 is up and the way to module 1. -/
def passing (n : Nat) : State :=
  ((ported 4 { fwd := [(2, hopping n)] }).wr F.vxPortState_state 62 4).setReg .hfVxMemberRt 1 (62 + 64)
theorem meets_RoutingEventsComplete_4 :
    ((passing 0).port 63).fwd = (2, hopping 0) :: [] ∧ bits (packetP0 (hopping 0)) 36 5 = 0 ∧ bits (packetP0 (hopping 31)) 36 5 = 31
    ∧ (passing 31).portUp 62 = true
    ∧ (passing 31).routeOf 2 (packetP0 (hopping 31)) (leNat (((hopping 31).drop 8).take 8)) = some 62 := by decide
/-- The last booking in state `k` with role `r` and out port 63. -/
def booked (k r : Nat) : State :=
  ((((ported 4 {}).wr F.hfVxBook0_state 4095 k).wr F.hfVxBook0_role 4095 r).wr F.hfVxBook0_outPort 4095 63).wr F.hfVxBook0_part 4095 7
theorem meets_RoutingEventsComplete_5 :
    (live.wr F.hfVxBook0_state 0 2).gate .pf0 .hfVxId 0 true = .ok ∧ (live.wr F.hfVxBook0_state 0 2).anyBooked = true := by decide +kernel

/-! ## Bookings -/

theorem meets_BookingsComplete_1_2 :
    live.gate .pf0 .hfVxBook0 4095 true = .ok ∧ bits (0 : Word64).toNat 4 2 = 0 ∧ (booked 0 0).bookSt 4095 = 0 ∧ (booked 1 0).bookSt 4095 = 1
    ∧ bits (0x10 + 63 * 2 ^ 14 : Word64).toNat 4 2 = 1 ∧ bits (0x10 + 63 * 2 ^ 14 : Word64).toNat 2 2 = 0
    ∧ (booked 0 0).portUp (bits (0x10 + 63 * 2 ^ 14 : Word64).toNat 14 6) = true := by decide
/-- A destination entry that port 63 reaches. -/
def ending : State := ((booked 0 2).wr F.hfVxBook0_inPort 4095 63).wr F.hfVxBook0_prevIndex 4095 3
theorem meets_BookingsComplete_3 :
    ending.confirmFault 63 4095 4 0 0 [] = 2 ∧ ending.confirmFault 63 4095 3 0 0 [] = 0 := by decide +kernel
theorem meets_BookingsComplete_4_5_6 :
    (booked 1 0).bookSt 4095 = 1 ∧ (booked 1 0).rd F.hfVxBook0_outPort 4095 = 63 ∧ (booked 1 0).bookRole 4095 = 0
    ∧ mgetD (booked 1 0).bookAt 4095 0 + 1000000 ≤ ({ booked 1 0 with ft := 1000000 }).ft := by decide
theorem meets_BookingsComplete_7_8 :
    (booked 2 0).gate .pf0 .hfVxBook0 4095 true = .ok ∧ bits (0x20 : Word64).toNat 4 2 = 2 ∧ (booked 2 0).bookSt 4095 = 2
    ∧ (booked 2 0).transfers = [] ∧ (booked 2 0).bookRole 4095 ≠ 2 := by decide
/-- The last slot of port 63 names the booking. -/
def calendared (k : Nat) : State :=
  ((booked k 0).wr F.vxPortCal_valid (63 * 4096 + 4095) 1).wr F.vxPortCal_booking (63 * 4096 + 4095) 4095
theorem meets_BookingsComplete_9 :
    (calendared 2).gate .pf0 .vxPortCal (63 * 4096 + 4095) true = .ok ∧ live.flag F.vxPortCal_valid (63 * 4096 + 4095) = false
    ∧ (calendared 2).flag F.vxPortCal_valid (63 * 4096 + 4095) = true
    ∧ (calendared 2).bookSt ((calendared 2).rd F.vxPortCal_booking (63 * 4096 + 4095)) = 2 := by decide

/-! ## Flits and transfers -/

/-- A flit of kind `k` with number 0 and a good check. -/
def flit (k : Nat) : List Byte :=
  let b := leBytes 8 (0xFFF000 + k * 2 ^ 25) ++ List.replicate 244 (0 : Byte)
  b ++ leBytes 4 (crc32c b)
/-- Codewords without errors begin with the next flit, or one of them is not corrected. -/
theorem meets_FlitsAndTransfersComplete_words :
    ((ported 4 {}).codewords 63 (List.replicate 8 15)).1 = false ∧ ((ported 4 {}).codewords 63 [0, 0, 0, 0, 0, 0, 0, 16]).1 = true
    ∧ ((ported 4 {}).port 63).fecLeft = 0 ∧ ((ported 4 { fecLeft := 19, fecBad := true }).codewords 63 []).1 = true
    ∧ ((ported 4 { fails := 3 }).port 63).fails + 1 = 4 := by decide
theorem meets_FlitsAndTransfersComplete_1 :
    1 ≤ (ported 4 {}).pst 63 ∧ (ported 4 {}).pst 63 ≤ 4 ∧ ((ported 4 {}).port 63).fails < 3 := by decide
set_option maxRecDepth 10000 in
theorem meets_FlitsAndTransfersComplete_2 : ∀ k ∈ [0, 2, 3],
    flitGood (flit k) = true ∧ (Port.acked { (ported 4 {}).port 63 with lastGood := (ported 4 {}).ftPort 63 } (flitOf (flit k) 0 0 0)).2 = false
    ∧ (flitOf (flit k) 0 0 0).seq = (Port.acked { (ported 4 {}).port 63 with lastGood := (ported 4 {}).ftPort 63 } (flitOf (flit k) 0 0 0)).1.rxNext
    ∧ (Port.acked { (ported 4 {}).port 63 with lastGood := (ported 4 {}).ftPort 63 } (flitOf (flit k) 0 0 0)).1.held = []
    ∧ (flitOf (flit k) 0 0 0).kind = k := by decide +kernel
theorem meets_FlitsAndTransfersComplete_3 :
    posAt (({ ported 4 {} with ft := 30 } : State).ftPort 63 % 32) = some 24
    ∧ (({ ported 4 {} with ft := 30 } : State).port 63).lastPos ≠ some (({ ported 4 {} with ft := 30 } : State).ftPort 63) := by decide

/-- An offer of partition 7 of one byte on the booking, without a deadline. -/
def offer : Offer := { id := 1, part := 7, book := 4095, data := [0], deadline := none }
/-- The state that holds it. -/
def offering : State := { calendared 2 with offers := [offer] }
theorem meets_FlitsAndTransfersComplete_4 :
    offering.offers.find? (fun (o : Offer) => o.part == 7) = some offer ∧ offering.bookSt 4095 = 2 ∧ offering.bookRole 4095 = 0
    ∧ offering.rd F.hfVxBook0_part 4095 = 7 ∧ offering.transfers = [] ∧ offer.deadline = none := by decide
theorem meets_FlitsAndTransfersComplete_4b :
    offering.slotsOf (offering.rd F.hfVxBook0_outPort 4095) 4095 = [4095]
    ∧ nextBooked [4095] (max (ceilDiv (offering.ftPort (offering.rd F.hfVxBook0_outPort 4095) + 64) 32) (mgetD offering.taken 4095 0)) = some 4095 := by
  decide +kernel

/-- Its transfer. -/
def transfer : Transfer := { id := 1, book := 4095, xfer := 255, data := [1], first := 0, last := 1, deadline := 9 }
theorem meets_FlitsAndTransfersComplete_5 :
    ({ booked 2 0 with transfers := [transfer] }).transfers.find? (fun (t : Transfer) => t.book == 4095 && t.xfer == 255) = some transfer
    ∧ ({ booked 2 0 with transfers := [transfer] }).ftPort 63 < transfer.deadline := by decide
theorem meets_FlitsAndTransfersComplete_6 :
    ({ booked 2 0 with transfers := [transfer], ft := 8 }).transfers.find? (fun (t : Transfer) => t.id == 1) = some transfer
    ∧ transfer.deadline ≤ ({ booked 2 0 with transfers := [transfer], ft := 8 }).ftPort
        (({ booked 2 0 with transfers := [transfer], ft := 8 }).rd F.hfVxBook0_outPort transfer.book) + 1
    ∧ (booked 2 0).colls = [] := by decide

/-! ## Networks and the fabric: the other clauses -/

theorem meets_NetworkEventsComplete_7 :
    live.partDark 7 = false ∧ live.board.powered = true ∧ (live.wr F.hfPwrPart_dark 0 128).partDark 7 = true ∧ (linked 0).linkSt 7 17 < 2
    ∧ bitAt ((live.wr F.partNetRouter_failed 7 (2 ^ 35)).rd F.partNetRouter_failed 7) 35 = true
    ∧ linkMode (List.replicate 16 0) = 2 ∧ linkMode (List.replicate 16 16) = 0 := by decide
/-- Two copies of a row, of which one has arrived. -/
theorem meets_NetworkEventsComplete_8 :
    (∀ x ∈ [bulkRow], ¬ (x.seq = bulkRow.seq ∧ x.got = true))
    ∧ ({ live with bulk := [{ bulkRow with got := true }, bulkRow] } : State).bulk[1]? = some bulkRow
    ∧ ({ bulkRow with got := true } : BulkRow).seq = bulkRow.seq := by decide
/-- What a delivery can meet: a fence, an error and a dark home. -/
theorem meets_NetworkEventsComplete_9 :
    (({ live with mem := { live.mem with bad := [cmRow 0 0 / 32] } } : State).rowPut 1 (cmRow 0 0) [1]).1 = .done
    ∧ ((live.wr F.partPwrClu_state 0 0).rowPut 16 (cmRow 0 0) [1]).1 ≠ .done := by decide

theorem meets_TimeMasterEventsComplete_6 :
    (ported 4 { syncAt := some 0 }).portUp 63 = true ∧ ((ported 4 { syncAt := some 0 }).port 63).syncAt = some 0
    ∧ (ported 4 { syncAt := some 0 }).ftPort 63 < 0 + 1000000 ∧ (ported 3 {}).portUp 63 = false
    ∧ following.portUp 63 = true ∧ following.apart 63 = false ∧ following.mySerial 0 = true ∧ following.mySerial 1 = false := by decide
theorem meets_TimeMasterEventsComplete_7 :
    following.elect.epoch < 6 ∧ (following.wr F.hfFtCtrl_masterOk 0 0).flag F.hfFtCtrl_masterOk 0 = false
    ∧ (following.wr F.hfFtCtrl_masterOk 0 1).flag F.hfFtCtrl_masterOk 0 = true
    ∧ keyBelow { best with r := 0 } { following.ownKey with epoch := 6 } = true
    ∧ keyBelow { best with r := 254 } { following.ownKey with epoch := 6 } = false ∧ (254 : Nat) ≠ following.ownKey.r := by decide
theorem meets_TimeMasterEventsComplete_8 :
    following.pps.locked = false ∧ following.rd F.hfFtStatus_state 0 ≠ 3 ∧ (following.wr F.hfFtStatus_state 0 3).rd F.hfFtStatus_state 0 = 3 := by
  decide

theorem meets_LinkBringUpCompletes_9 :
    (0 : Fin 256).val ≠ 255 ∧ (ported 5 {}).pst 63 = 5 ∧ (ported 0 {}).pst 63 = 0 ∧ (ported 4 {}).ftPort 63 < ((ported 4 {}).port 63).lastGood + 1000
    ∧ (ported 5 {}).ftPort 63 < ((ported 5 {}).port 63).downAt + 1000000 ∧ (ported 1 {}).portLight 63 = false
    ∧ ((ported 2 { helloAt := some 0 }).port 63).helloAt = some 0 ∧ (ported 2 { helloAt := some 0 }).ftPort 63 < 0 + 1000000 := by decide
theorem meets_LinkBringUpCompletes_10 :
    (ported 2 { helloAt := some 0 }).mySerial 0 = true ∧ hello0.peerNonce = ((ported 2 { helloAt := some 0 }).port 63).nonce
    ∧ ((ported 2 { helloAt := some 0 }).port 63).helloAt.isSome = true ∧ hello0.serial ≠ (ported 4 {}).rd F.vxPortPeer_peerSerial 63
    ∧ ((ported 4 {}).wr F.vxPortPeer_peerSerial 63 1).rd F.vxPortPeer_peerSerial 63 = hello0.serial
    ∧ ((ported 2 {}).port 63).hello = none := by decide

theorem meets_RoutingEventsComplete_6 :
    (ported 4 {}).lsdbRoom lsa0.origin = true ∧ (ported 4 {}).mySerial 0 = true
    ∧ ({ ported 4 {} with lsdb := [{ lsa := lsa0, at_ := 0 }] } : State).lsaNewer lsa0 = false ∧ live.ft < live.lsaAt + 30000000000 := by decide
theorem meets_RoutingEventsComplete_6b : full.lsdbRoom lsa0.origin = false ∧ full.lsdbRoom (full.rd F.hfVxSerial_serial 0) = true := by decide +kernel
theorem meets_RoutingEventsComplete_7 :
    ((ported 4 { fwd := [(2, hopping 1)] }).port 63).fwd = [(2, hopping 1)]
    ∧ (ported 4 { fwd := [(2, hopping 1)] }).routeOf 2 (packetP0 (hopping 1)) (leNat (((hopping 1).drop 8).take 8)) = none := by decide

theorem meets_BookingsComplete_10 :
    (booked 3 0).bookSt 4095 = 3 ∧ (booked 2 0).bookSt 4095 = 2 ∧ bits (0x14 : Word64).toNat 2 2 = 1 ∧ bits (0x14 : Word64).toNat 4 2 = 1
    ∧ (live.portUp (bits (0x10 + 63 * 2 ^ 14 : Word64).toNat 14 6)) = false ∧ ((booked 0 1).bookRole 4095) = 1
    ∧ (booked 1 0).rd F.hfVxBook0_outPort 4095 ≠ 62 ∧ (booked 1 2).bookRole 4095 = 2
    ∧ (booked 1 0).ft < mgetD (booked 1 0).bookAt 4095 0 + 1000000 := by decide
/-- Revocations: PF0's write and a REVOKE from the out port, with transfers of other ticks or of none. -/
theorem meets_BookingsComplete_11 :
    bitAt (0x20 : Word64).toNat 5 = true ∧ (booked 2 0).gate .pf0 .hfVxBook0 4095 true = .ok ∧ (booked 2 1).bookRole 4095 ≠ 2
    ∧ (booked 2 0).ftPort ((booked 2 0).rd F.hfVxBook0_outPort 4095) = 0
    ∧ (∀ t ∈ ({ booked 2 0 with transfers := [{ transfer with at_ := 5 }] } : State).transfers, t.at_ ≠ 0)
    ∧ (booked 2 0).bookSt 4095 ≠ 0 := by decide
theorem meets_BookingsComplete_9b : (booked 0 0).bookSt 4095 = 0 ∧ (calendared 3).bookSt 4095 = 3 := by decide

theorem meets_FlitsAndTransfersComplete_7 :
    (ported 0 {}).pst 63 = 0 ∧ posAt 4 = none ∧ posAt 30 = some 24
    ∧ (live.bookSt 4095 ≠ 2) ∧ ((booked 2 0).rd F.hfVxBook0_part 4095) ≠ 6 ∧ nextBooked [] 0 = none
    ∧ (live.offers.find? (fun (o : Offer) => o.part == 7)) = none ∧ live.transfers.find? (fun (t : Transfer) => t.id == 1) = none := by
  decide +kernel
/-- A flit with kind `k` that acknowledges number 4,094 and asks for 4,095 again. -/
def nackFlit (k : Nat) : List Byte :=
  let b := leBytes 8 (4094 * 2 ^ 12 + 2 ^ 24 + k * 2 ^ 25) ++ List.replicate 244 (0 : Byte)
  b ++ leBytes 4 (crc32c b)
/-- A port that has sent 4,095 and was asked for it three times. -/
def asked3 : Port := { unacked := [{ port := 63, kind := 2, seq := 4095, ack := 0 }], nackSeq := 4095, nackCount := 3 }
set_option maxRecDepth 10000 in
theorem meets_FlitsAndTransfersComplete_8 :
    seqDist 1 2 ≠ 0 ∧ seqDist 1 2 < 2048 ∧ 2048 ≤ seqDist 1 0 ∧ flitGood (nackFlit 2) = true
    ∧ (Port.acked { asked3 with lastGood := 0 } (flitOf (nackFlit 2) 0 0 0)).2 = true := by decide +kernel
theorem meets_FlitsAndTransfersComplete_9 :
    ({ transfer with rev := some 5 } : Transfer).rev ≠ none ∧ (booked 2 1).bookRole 4095 = 1
    ∧ ({ booked 2 0 with transfers := [{ transfer with rev := some 5 }] } : State).pending = []
    ∧ (booked 2 0).colls = [] := by decide
theorem meets_FlitsAndTransfersComplete_10 :
    ((List.replicate 128 transfer).filter (fun t => t.book == 4095)).length = 128 := by
  rw [List.filter_replicate_of_pos (by decide), List.length_replicate]

/-! ## Collectives -/

/-- ALL_REDUCE SUM of `n` FP32 elements: one source at 0x10000, one copy, `k` children, a root or not. -/
def desc (n k : Nat) (root : Bool) : List Nat :=
  [k * 2 ^ 19 + (if root then 2 ^ 24 else 0), n, 0x10000, 2 ^ 32, 0x20000, 2 ^ 32, 0x30000, 0, (1 + k) * 2 ^ 18]
/-- COLL with its descriptor at 0x8000. -/
def collCmd : Cmd := { w0 := 0x80, w4 := 0x8000, w5 := 0 }
/-- Partition 0 has started it; `c` is what its engine holds. -/
def colling (c : Option Coll) : State :=
  { runQ mapped (unitColl 0) { started := [begun collCmd] } with
    mem := mapped.mem.wrN (cmBase + 0x8000) ((desc 1 0 true).flatMap (leBytes 8)),
    colls := match c with | some c => [(0, c)] | none => [] }

theorem meets_CollectivesComplete_1 :
    (colling none).oldest (unitColl 0) 0x80 = some (begun collCmd) ∧ mget (colling none).colls 0 = none
    ∧ (colling none).queueUp (unitColl 0) = true ∧ (colling none).cmdCtx (unitColl 0) (entry collCmd) = (0, 0) := by decide +kernel
/-- The rows of the descriptor. -/
def descRows : CeRows × State := (colling none).ceRows 0 (0, 0) false [0x8000, 0x8200] []
/-- What the engine then holds. -/
def collOf : Coll :=
  { id := 0, desc := (chunks 8 128 (descRows.2.rowBytes [cmBase + 0x8000, cmBase + 0x8200])).map leNat, base := (begun collCmd).prog.base, step := 0,
    ctxPart := 0, ctx := 0 }
theorem meets_CollectivesComplete_1b : descRows.1 = .ok [cmBase + 0x8000, cmBase + 0x8200] := by decide +kernel
theorem meets_CollectivesComplete_1c : collOf.descBad = false ∧ descRows.2.ceRangeBad 0 collOf = false := by decide +kernel

/-- What an engine holds of a descriptor, in phase `ph`. -/
def coll (d : List Nat) (ph : Nat) : Coll := { id := 0, desc := d, base := 0, step := 0, ctxPart := 0, ctx := 0, phase := ph }
theorem meets_CollectivesComplete_2 :
    mget (colling (some (coll (desc 1 1 true) 0))).colls 0 = some (coll (desc 1 1 true) 0)
    ∧ (colling (some (coll (desc 1 1 true) 0))).queueUp (unitColl 0) = true ∧ (coll (desc 1 1 true) 0).reduces = true
    ∧ (coll (desc 1 1 true) 0).votes = false ∧ (coll (desc 1 1 true) 0).nchild ≠ 0
    ∧ ((colling (some (coll (desc 1 1 true) 0))).ceRows 0 (0, 0) false (coll (desc 1 1 true) 0).srcVas []).1 = .ok [cmBase + 0x10000] := by decide +kernel
theorem meets_CollectivesComplete_2b :
    (((colling (some (coll (desc 1 1 true) 0))).ceRows 0 (0, 0) false (coll (desc 1 1 true) 0).srcVas []).2.ceRows 0 (0, 0) true
      (coll (desc 1 1 true) 0).scratchVas []).1 = .ok [cmBase + 0x30000] := by decide +kernel

/-- Landing entry 63 of partition 0, of one-row slots in its shared memory, holds the messages `ms` of booking 0. -/
def landing (c : Coll) (ms : List LandMsg) : State :=
  { ((((colling (some c)).wr F.partCeLand0_valid 63 1).wr F.partCeLand0_slotRows 63 1).wr F.partCeLand1_dpa 63 (smBase / 512)) with
    lands := [(63, { msgs := ms })], ft := 100 }
/-- A message of a header. -/
def message : LandMsg := { slot := 0, len := 64, at_ := 0 }
theorem meets_CollectivesComplete_3 :
    (landing (coll (desc 0 2 true) 1) [message]).startedOf (unitColl 0) 0 = some (begun collCmd)
    ∧ (landing (coll (desc 0 2 true) 1) [message]).landOf 0 ((coll (desc 0 2 true) 1).upIn 0) = some 63
    ∧ ((landing (coll (desc 0 2 true) 1) [message]).land 63).msgs = message :: []
    ∧ (landing (coll (desc 0 2 true) 1) [message]).queueUp (unitColl 0) = true ∧ (coll (desc 0 2 true) 1).childWait = 0
    ∧ (coll (desc 0 2 true) 1).arriveRef = 0 ∧ (coll (desc 0 2 true) 1).childShape 0 = (0, 0, cvtWidth 0)
    ∧ (coll (desc 0 2 true) 1).mismatch (((landing (coll (desc 0 2 true) 1) [message]).rowBytes [smBase]).take 64) 0 0 = 0
    ∧ 0 + 1 < (coll (desc 0 2 true) 1).nchild := by decide +kernel
set_option maxRecDepth 4000 in
theorem meets_CollectivesComplete_3b :
    (landing (coll (desc 0 2 true) 1) [message]).landRead 0 63 message = (.ok [smBase], landing (coll (desc 0 2 true) 1) [message]) := rfl

/-- A vote of two children, of which each is waited for one tick. -/
def voteDesc : List Nat := [3 * 2 ^ 3 + 2 * 2 ^ 19 + 2 ^ 24, 0, 0, 0, 0, 0, 0, 0, 0, 0, 2 ^ 32]
theorem meets_CollectivesComplete_4 :
    (landing (coll voteDesc 1) []).startedOf (unitColl 0) 0 = some (begun collCmd)
    ∧ (landing (coll voteDesc 1) []).landOf 0 ((coll voteDesc 1).upIn 0) = some 63 ∧ ((landing (coll voteDesc 1) []).land 63).msgs = []
    ∧ (coll voteDesc 1).childWait ≠ 0 ∧ (coll voteDesc 1).base + (coll voteDesc 1).childWait < (landing (coll voteDesc 1) []).ftPart 0
    ∧ (coll voteDesc 1).votes = true ∧ 0 + 1 < (coll voteDesc 1).nchild := by decide +kernel
theorem meets_CollectivesComplete_5 :
    (landing (coll (desc 0 0 false) 2) [message]).landOf 0 (bits ((coll (desc 0 0 false) 2).d 9) 12 12) = some 63
    ∧ ((landing (coll (desc 0 0 false) 2) [message]).land 63).msgs.head? = some message
    ∧ (coll (desc 0 0 false) 2).downRange (coll (desc 0 0 false) 2).subRange = (0, 0)
    ∧ (coll (desc 0 0 false) 2).mismatch (((landing (coll (desc 0 0 false) 2) [message]).rowBytes [smBase]).take 64) 0 0 = 0
    ∧ (coll (desc 0 0 false) 2).nchild = 0 := by decide +kernel
set_option maxRecDepth 4000 in
theorem meets_CollectivesComplete_5b :
    (landing (coll (desc 0 0 false) 2) [message]).landRead 0 63 message = (.ok [smBase], landing (coll (desc 0 0 false) 2) [message]) := rfl
theorem meets_CollectivesComplete_5c :
    (match ((landing (coll (desc 0 0 false) 2) [message]).ceRows 0 (0, 0) true (coll (desc 0 0 false) 2).copyVas []).1 with
      | .ok _ => true | _ => false) = true := by decide +kernel
theorem meets_CollectivesComplete_6 :
    mget (colling (some (coll [] 3))).colls 0 = some (coll [] 3) ∧ (coll [] 3).phase = 3 ∧ (coll [] 3).offers = [] := by decide +kernel
theorem meets_CollectivesComplete_7 :
    live.gate .pf0 .partCeLand0 (landKey 7 63) true = .ok ∧ live.gate .pf0 .partCeLand1 (landKey 7 63) true = .ok
    ∧ live.bookSt (live.rd F.partCeLand0_booking (landKey 7 63)) ∈ [0, 3]
    ∧ (live.wr F.hfVxBook0_state 0 2).bookSt ((live.wr F.hfVxBook0_state 0 2).rd F.partCeLand0_booking (landKey 7 63)) ∈ [1, 2] := by decide +kernel

/-! ## Lamps -/

theorem meets_LampEventsComplete_1 :
    (lased 2).lampSt 7 = 2 ∧ (lased 2).laser 7 15 = 2 ∧ (lased 1).laser 7 15 = 1 ∧ (lased 1).laser 7 14 ≠ 3 := by decide
/-- A Lamp without a secure element. -/
def lamp0 : Lamp := { elem := none }
theorem meets_LampEventsComplete_2 :
    mget ({ lased 1 with lamps := [(7, lamp0)], up := 600000000000 }).lamps 7 = some lamp0
    ∧ 600000000000 ≤ lamp0.unsaved + (({ lased 1 with lamps := [(7, lamp0)], up := 600000000000 }).up - lamp0.mark) := by decide
theorem meets_LampEventsComplete_3_4 :
    (lased 1).gate .pf0 .lampCtrl 7 true = .ok ∧ bitAt (2 : Word64).toNat 1 = true ∧ (lased 1).lampSt 7 ≠ 0 ∧ (lased 1).lampSt 7 ≠ 4
    ∧ ((lased 1).wr F.lampState_present 7 1).rd F.lampState_present 7 ≠ 0 := by decide
theorem meets_LampEventsComplete_5 : live.lampSt 7 = 0 ∧ live.board.powered = true ∧ live.thermNow = false := by decide
theorem meets_LampEventsComplete_6 : mget ({ live with lamps := [(7, lamp0)] }).lamps 7 = some lamp0 ∧ lamp0.waiting = true := by decide
theorem meets_LampEventsComplete_7 :
    live.gate .pf0 .lampCtrl 7 true = .ok ∧ bitAt (1 : Word64).toNat 1 = false ∧ live.rd F.lampState_unverifiedRun 7 = 0 ∧ live.lampSt 7 ≠ 3 := by
  decide
theorem meets_LampEventsComplete_8 :
    ((lased 1).wr F.lampLaser1_biasInit (7 * 16 + 15) 100).rd F.lampLaser1_biasInit (7 * 16 + 15) = 100
    ∧ 4 * 124 < 5 * 100 ∧ 5 * 100 ≤ 4 * 125 := by decide

/-! ## The host -/

theorem meets_HostAccessesComplete_1 : live.serves = true ∧ breaksR7 3 4 = true ∧ breaksR7 0 2 = true := by decide
theorem meets_HostAccessesComplete_2 : live.outside (.vf 7) 0 false = true ∧ live.outside (.vf 7) 0 true = true := by decide
theorem meets_HostAccessesComplete_3 :
    rowParts 511 2 = [(511, 1), (512, 1)] ∧ live.bar2Row .pf0 false 511 = .ok (smBase + 511)
    ∧ live.bar2Row .pf0 false 512 = .ok (smBase + 512) ∧ live.mem.hurt smBase 512 = false ∧ live.mem.hurt (smBase + 512) 512 = false := by decide
theorem meets_HostAccessesComplete_4 :
    live.bar2Locked .pf0 false 508 4 = false ∧ (508 + 4 - 1) / 512 = 508 / 512 ∧ live.bar2Row .pf0 false 508 = .ok (smBase + 508)
    ∧ live.mem.mergeHurt (smBase + 508) [some 1, none, none, some 2] = false := by decide
/-- The decoder is committed at 4 GiB. -/
def committed : State := { live.wr F.hfHostLink_hdmCommitted 0 1 with hdmBase := 2 ^ 32 }
theorem meets_HostAccessesComplete_5_6 :
    committed.serves = true ∧ committed.hdmLine (2 ^ 32 + hbmEnd - 64) = some (hbmEnd / 64 - 1) ∧ committed.cmRefused false = false
    ∧ committed.mem.hurt (hbmEnd - 64) 64 = false ∧ committed.homeDark (hbmEnd - 64) = false ∧ committed.tracked.length < 2097152 := by decide

/-- A back-invalidate for line 5. -/
def snooped (i : Bool) : State := { live with snoops := [{ line := 5, since := 0, inv := i, eng := false }], up := 100000 }
theorem meets_HostEventsComplete_1_2_3 : ∀ i ∈ [true, false],
    (snooped i).snoops.find? (fun (x : Snoop) => x.line == 5) = some { line := 5, since := 0, inv := i, eng := false }
    ∧ 0 + 100000 ≤ (snooped i).up := by decide
theorem meets_HostEventsComplete_5 :
    ({ live with sessions := [{ id := 1, via := 0, ready := true }] }).sessions.any (fun (x : Session) => x.id == 1 && x.ready && x.via == 0) = true
    ∧ live.sessions.any (fun (x : Session) => x.id == 1 && x.ready && x.via == 0) = false := by decide
theorem meets_HostEventsComplete_6 : ∀ k ∈ [0, 1, 8, 9], (live.setSecure k 1).isSecure k = true := by decide
theorem meets_HostEventsComplete_7 :
    live.gate .pf0 .hfIntMap 95 true = .ok ∧ live.mapBad 95 (bits (0 : Word64).toNat 11 4) (bits (0 : Word64).toNat 0 11) = true
    ∧ live.mapBad 86 (bits (1023 : Word64).toNat 11 4) (bits (1023 : Word64).toNat 0 11) = false := by decide
theorem meets_HostEventsComplete_9 :
    live.funcUp .pf0 = true ∧ vectorOk (funcNum .pf0) 1023 = true ∧ mgetD live.msixPend (funcNum .pf0 * 1024 + 1023) false = false
    ∧ mgetD ({ live with msixPend := [(1023, true)] }).msixPend (funcNum .pf0 * 1024 + 1023) false = true := by decide

/-! ## Collectives, Lamps and the host: the other clauses -/

theorem meets_CollectivesComplete_8 :
    (coll [5] 0).descBad = true ∧ (coll (desc 1 0 false) 0).root = false ∧ (coll (desc 1 0 false) 0).op ≠ 4 ∧ (coll (desc 1 0 false) 0).op ≠ 3
    ∧ (coll (desc 1 0 false) 0).nchild = 0 ∧ (coll [3] 0).op = 3 ∧ (coll [3] 0).root = false ∧ (coll [4 + 2 * 2 ^ 19] 0).op = 4
    ∧ (coll [4 + 2 * 2 ^ 19] 0).nchild ≠ 0 ∧ (coll [3 + 2 ^ 19 + 2 ^ 24] 1).upward = false ∧ (coll [3 + 2 ^ 19 + 2 ^ 24] 1).root = true
    ∧ (coll (desc 1 1 true) 0).upward = true ∧ (coll (desc 0 2 true) 1).awaits = true ∧ (coll (desc 0 2 true) 0).awaits = false := by decide
theorem meets_CollectivesComplete_9 : (colling none).ceRangeBad 0 (coll (desc 1 1 true) 0) = true := by decide +kernel
/-- Rows that no table maps. -/
theorem meets_CollectivesComplete_10 :
    (match (({ colling none with ctxs := [] } : State).ceRows 0 (0, 0) false [0x8000, 0x8200] []).1 with | .stop _ _ => true | _ => false) = true := by
  decide +kernel
/-- A root without children has its result at once, where the rows of its copy are writable. -/
theorem meets_CollectivesComplete_11 :
    mget (colling (some (coll (desc 0 0 true) 1))).colls 0 = some (coll (desc 0 0 true) 1) ∧ (coll (desc 0 0 true) 1).nchild = 0
    ∧ (coll (desc 0 0 true) 1).root = true
    ∧ (match ((colling (some (coll (desc 0 0 true) 1))).ceRows 0 (0, 0) true (coll (desc 0 0 true) 1).copyVas []).1 with
      | .ok _ => true | _ => false) = true := by decide +kernel
/-- The last child's message, at a module that is no root; one that does not fit; and a message that came late. -/
theorem meets_CollectivesComplete_12 :
    0 + 1 = (coll (desc 0 1 false) 1).nchild ∧ (coll (desc 0 1 false) 1).op ≠ 4
    ∧ (coll (desc 0 1 false) 1).mismatch (((landing (coll (desc 0 1 false) 1) [message]).rowBytes [smBase]).take 64) 0 0 = 0
    ∧ (coll (desc 1 1 false) 1).mismatch [] 0 1 ≠ 0
    ∧ (coll [0, 0, 0, 0, 0, 0, 0, 0, 0, 0, 1] 1).arriveRef ≠ 0 ∧ (coll [0, 0, 0, 0, 0, 0, 0, 0, 0, 0, 1] 1).base
      + (coll [0, 0, 0, 0, 0, 0, 0, 0, 0, 0, 1] 1).arriveRef < (landing (coll voteDesc 1) []).ftPart 0 := by decide +kernel
/-- A child in time, a silent child of a command that is no vote, and the last child of a vote that is no root. -/
theorem meets_CollectivesComplete_13 :
    (coll (desc 0 2 true) 1).childWait = 0 ∧ ([message].head?.any (fun m => decide (m.at_ ≤ 0 + 1))) = true
    ∧ (coll [2 ^ 19, 0, 0, 0, 0, 0, 0, 0, 0, 0, 2 ^ 32] 1).votes = false ∧ (coll [2 ^ 19, 0, 0, 0, 0, 0, 0, 0, 0, 0, 2 ^ 32] 1).awaits = true
    ∧ (coll [2 ^ 19, 0, 0, 0, 0, 0, 0, 0, 0, 0, 2 ^ 32] 1).childWait ≠ 0
    ∧ (coll [3 * 2 ^ 3 + 2 ^ 19, 0, 0, 0, 0, 0, 0, 0, 0, 0, 2 ^ 32] 1).votes = true
    ∧ 0 + 1 = (coll [3 * 2 ^ 3 + 2 ^ 19, 0, 0, 0, 0, 0, 0, 0, 0, 0, 2 ^ 32] 1).nchild
    ∧ (coll [3 * 2 ^ 3 + 2 ^ 19, 0, 0, 0, 0, 0, 0, 0, 0, 0, 2 ^ 32] 1).root = false := by decide
theorem meets_CollectivesComplete_14 :
    ¬ ((coll [] 3).phase = 3 ∧ ({ coll [] 3 with offers := [1] } : Coll).offers = []) ∧ (coll [] 0).phase ≠ 2
    ∧ (coll (desc 1 0 false) 2).mismatch [] 0 1 ≠ 0 ∧ mget live.colls 0 = none := by decide

theorem meets_LampEventsComplete_9 :
    (lased 0).laser 7 15 = 0 ∧ (((lased 1).setLaser 7 14 3).laser 7 14 = 3) ∧ live.lampSt 7 ≠ 2 ∧ live.rd F.lampState_present 7 = 0
    ∧ ({ elem := none, waiting := false } : Lamp).waiting = false ∧ State.lampCause lamp0 [] ≠ 0
    ∧ (live.wr F.lampState_unverifiedRun 7 1).rd F.lampState_unverifiedRun 7 = 1 ∧ (live.wr F.lampState_state 7 3).lampSt 7 = 3
    ∧ ((lased 1).wr F.lampLaser0_eolBias (7 * 16 + 15) 1).rd F.lampLaser0_eolBias (7 * 16 + 15) = 1 := by decide
theorem meets_LampEventsComplete_10 : ∀ power ∈ [980, 1020], 50 * power ≤ 51 * 1000 ∧ 49 * 1000 ≤ 50 * power ∧ 5 * 100 ≤ 4 * 125 := by decide

theorem meets_HostAccessesComplete_7 :
    breaksR7 0 8 = false ∧ live.outside .pf0 0 false = false ∧ rowParts 508 4 = [(508, 4)] ∧ live.bar2Row (.vf 7) false 0 = .denied
    ∧ (live.wr F.hfBootStatus_stage 0 6).bar2Row .pf0 false 0 = .abort ∧ State.reset.serves = false := by decide
/-- BAR2's first row of shared memory, hurt or held by an Assay unit. -/
theorem meets_HostAccessesComplete_8 :
    ({ live.mem with bad := [smBase / 32] } : Store).hurt smBase 512 = true
    ∧ ({ live.mem with bad := [smBase / 32] } : Store).mergeHurt smBase [some 1] = true
    ∧ ({ live with samples := [{ holding with lockMem := [(smBase, smBase + 512)] }] } : State).bar2Locked .pf0 false 0 4 = true
    ∧ live.bar2Locked .pf0 false 510 4 = false := by decide
theorem meets_HostAccessesComplete_9 :
    committed.hdmLine 0 = none ∧ (committed.wr F.hfHostIde_require 0 1).cmRefused false = true
    ∧ ({ committed.mem with bad := [0] } : Store).hurt 0 64 = true ∧ (committed.wr F.hfPwrPart_dark 0 1).homeDark 0 = true
    ∧ ({ committed with tracked := [{ line := 5, excl := true }] } : State).tracked.any (fun t => t.line == 5) = true := by decide
theorem meets_HostAccessesComplete_10 :
    ((List.replicate 2097152 ({ line := 5, excl := true } : Tracked)).length = 2097152)
    ∧ ∀ n, (List.replicate n ({ line := 5, excl := true } : Tracked)).any (fun t => t.line == 6) = false :=
  ⟨List.length_replicate .., fun n => by simp⟩
theorem meets_HostEventsComplete_10 :
    ({ snooped true with up := 99999 } : State).up < 0 + 100000 ∧ live.snoops.find? (fun (x : Snoop) => x.line == 5) = none ∧ live.serves = true
    ∧ live.isSecure 9 = false ∧ vectorOk (funcNum .pf0) 1024 = false := by decide

/-! ## Registers by address and the mailbox -/

/-- Offset in BAR0 of a register of the last core. -/
def coreOff (r : RegName) : Nat := 0x20000000 + 7 * 0x4000000 + 0x1000000 + 575 * 0x10000 + r.info.off
theorem meets_RegisterAccessesComplete :
    regAt 0x200008 = some (.hfLayoutLen, 0) ∧ breaksR7 0x200008 8 = false ∧ live.gate .pf0 .hfLayoutLen 0 true = .ok
    ∧ live.gate .pf0 .hfLayoutLen 0 false = .ok := by decide +kernel
theorem meets_SoftwareAccessByCode : F.hfLayoutLen_len ∈ RegName.hfLayoutLen.flds ∧ (0 < F.hfLayoutLen_len.lo ∨ F.hfLayoutLen_len.lo + F.hfLayoutLen_len.len ≤ 63) := by
  decide
theorem meets_CountersSaturate :
    regAt (coreOff .coreArithFtz) = some (.coreArithFtz, 4607) ∧ breaksR7 (coreOff .coreArithFtz) 8 = false
    ∧ live.gate .pf0 .coreArithFtz 4607 false = .ok ∧ regAt (coreOff .coreArithQuant) = some (.coreArithQuant, 4607)
    ∧ regAt (coreOff .coreArithConv) = some (.coreArithConv, 4607) := by decide +kernel
theorem meets_DeniedAccessChangesNothing :
    live.vfHasPart 7 7 = false ∧ (regOwner .coreArithFtz 4607).part = some 7 ∧ live.gate (.vf 7) .coreArithFtz 4607 true = .denied
    ∧ live.gate (.vf 7) .coreArithFtz 4607 false = .denied := by decide +kernel
/-- NumVFs is 1, and the one tenancy, virtual function 0's, holds every partition. -/
def granted : State := { live.wr F.hfHostLink_vfs 0 1 with active := some layout1 }
theorem meets_DeniedAccessChangesNothing_2 : granted.bar2Row (.vf 0) false 0 = .ok smBase := by decide +kernel

/-- A mailbox command through the payload window. -/
def call (n : Nat) : MboxCall := { f := .pf0, useHost := false, inLen := n, host := none, outOk := true }
theorem mbox_takes (n op : Nat) (h : n ≤ 65536) (l : List Byte) (hl : live.mboxInput (call n) = some l) : MboxTakes live (call n) op l :=
  ⟨by show live.gate .pf0 .hfMboxCmd 0 true = .ok; decide, by decide, .inl (by decide), by show (65536 : Nat) ≠ 0; decide, h, hl⟩
theorem meets_MailboxReadsComplete_1 : MboxTakes live (call 0) 0 [] ∧ mboxOps.contains 0 = false := ⟨mbox_takes 0 0 (by decide) _ rfl, by decide⟩
theorem meets_MailboxReadsComplete_2 :
    MboxTakes live (call 4) 2 [0, 0, 0, 0] ∧ (call 4).inLen = 4 ∧ (call 4).outOk = true
    ∧ (match recordsOut ((live.mboxTake (call 4) 2).lsdbList.map (live.mboxTake (call 4) 2).lsdbBytes) 0 65536 with
      | .done 0 _ 28 => true | _ => false) = true
    ∧ recordsOut ((live.mboxTake (call 4) 0x0301).log.map Report.cper) 0 65536 = .done 0 (List.replicate 8 0) 8 :=
  ⟨mbox_takes 4 2 (by decide) _ rfl, rfl, rfl, by decide +kernel, by decide⟩
theorem meets_MailboxReadsComplete_3 : (∀ op, MboxTakes live (call 0) op []) ∧ (call 0).inLen = 0 :=
  ⟨fun op => mbox_takes 0 op (by decide) _ rfl, rfl⟩
theorem meets_MailboxActionsComplete_1 :
    (∀ op, MboxTakes live (call 4) op [0, 0, 0, 0]) ∧ coreArg [0, 0, 0, 0] = some 0 ∧ (live.mboxTake (call 4) 0x0302).canaryOk 0 = true
    ∧ (live.mboxTake (call 4) 0x0302).canaries = [] ∧ leNat ([0, 0, 0, 0] : List Byte) ≤ 1 :=
  ⟨fun op => mbox_takes 4 op (by decide) _ rfl, by decide, by decide, by decide, by decide⟩
theorem meets_MailboxActionsComplete_3 :
    MboxTakes live (call 4104) 0x0102 (live.mbox.rdN 0 4104) ∧ live.fwBusy = false ∧ live.pldm = none
    ∧ leNat ((live.mbox.rdN 0 4104).take 1) = 0 ∧ leNat (((live.mbox.rdN 0 4104).drop 4).take 4) = 0 ∧ fwRange 0 0 4096 = true :=
  ⟨mbox_takes 4104 0x0102 (by decide) _ rfl, by decide, by decide, by decide +kernel, by decide +kernel, by decide⟩
theorem meets_MailboxActionsComplete_4 :
    (live.mboxTake (call 0) 0x0103).fwBusy = false ∧ (live.mboxTake (call 0) 0x0105).commitOk = true ∧ live.roll = none ∧ live.act = none := by
  decide
/-- A staged set is good and a roll runs, so that an activation is not refused. -/
def activating : State := { live.wr F.hfFwStatus_stagedOk 0 1 with roll := some { version := 1 }, mbox := ({} : Store).wrLE 0 8 10000000 }
theorem meets_MailboxActionsComplete_5 :
    MboxTakes activating (call 8) 0x0104 (activating.mbox.rdN 0 8) ∧ (activating.mboxTake (call 8) 0x0104).actRefuse (leNat (activating.mbox.rdN 0 8)) = 0 :=
  ⟨⟨by decide, by decide, .inl (by decide), by show (65536 : Nat) ≠ 0; decide, by show (8 : Nat) ≤ 65536; decide, rfl⟩, by decide⟩

/-! ## Firmware, management -/

/-- An activation on its way. -/
def activated (a : Activation) : State := { live with act := some a, ft := 2 ^ 40, pending := [] }
theorem meets_ActivationsComplete_1_5 :
    ({ at_ := 5, mbox := none } : Activation).at_ ≤ (activated { at_ := 5, mbox := none }).ft ∧ (activated { at_ := 5, mbox := none }).resetWaits = false
    ∧ 5 + 100000000 ≤ (activated { at_ := 5, mbox := none, begun := true }).ft := by decide
theorem meets_ActivationsComplete_2 : (activated { at_ := 5, mbox := none, begun := true }).quiesced = true := by decide
theorem meets_ActivationsComplete_3_4 :
    ({ at_ := 5, mbox := none, begun := true, c := some 6 } : Activation).c.isSome = true ∧ (activated { at_ := 5, mbox := none }).roll = none := by
  decide
theorem meets_ActivationsComplete_6 :
    ({ live with roll := some { version := 1 } } : State).rollTurn { version := 1 } 0 = true ∧ live.flag F.hfFwRoll_rollHalted 0 = false
    ∧ ({ version := 1 } : Roll).changed.length + 1 < 4608 := by decide +kernel
theorem meets_ActivationsComplete_7 :
    live.board.powered = true ∧ live.board.perstN = true ∧ live.stage ≠ 9 ∧ live.mpRestart.getD 1 none = none
    ∧ live.flag F.hfMboxStatus_busy 0 = false := by decide

/-- A connection over I3C at stage `k`, and session 1, established or not. -/
def connected (k : Nat) (r : Bool) : State :=
  { live.setConn 1 { stage := k } with sessions := [{ id := 1, via := 1, ready := r }] }
theorem meets_SpdmRequestsComplete : ∀ k ∈ [0, 1, 2, 3], ∀ r ∈ [false, true],
    (connected k r).mgmtUp = true ∧ (connected k r).spdm.length = 2 ∧ ((connected k r).conn 1).stage = k
    ∧ (connected k r).rd F.hfSecState_bootLeaves 0 < 32768 ∧ (connected k r).flag F.hfSecState_lmsExhausted 0 = false
    ∧ (connected k r).sessions.length < 15
    ∧ (connected k r).sessions.any (fun (x : Session) => x.id == 1 && x.via == 1 && x.ready == r) = true := by decide
/-- A PLDM update. -/
def updating (u : Pldm) : State := { live with pldm := some u }
theorem meets_PldmCommandsComplete_1 : live.mgmtUp = true ∧ live.pldm = none ∧ live.mboxStage = false ∧ live.fwBusy = false := by decide
theorem meets_PldmCommandsComplete_2 :
    (updating { comps := [6] }).mgmtUp = true ∧ (∀ c ∈ [0, 6], c < 7) ∧ 6 ∈ ({ comps := [6] } : Pldm).comps ∧ fwRange 6 0 (4096 + fwMax 6) = true
    ∧ ({ comp := some 6, size := 2 } : Pldm).offset + ([1] : List Byte).length < ({ comp := some 6, size := 2 } : Pldm).size := by decide
theorem meets_PldmCommandsComplete_3 :
    ({ activating with pldm := some {} } : State).actRefuse (({ activating with pldm := some {} } : State).ft + 10000000) = 0
    ∧ ({ activating with pldm := some {} } : State).stage ≠ 9 ∧ ({ activating with pldm := some {} } : State).mgmtUp = true := by decide

/-! ## Power -/

theorem meets_PowerFaultsComplete_1_2 :
    live.partLive 7 = true ∧ 4 ≤ live.rd F.partPwrZone_phases (7 * 6 + 5) ∧ 1 ≤ live.rd F.partPwrBank_phasesOk 7 := by decide
theorem meets_PowerFaultsComplete_3_4 :
    live.cluState (36 * 7 + 35) ≠ 3 ∧ bitAt (live.rd F.partPwrClu_phasesOk (36 * 7 + 35)) 7 = true
    ∧ 7 ≤ countBelow 8 (fun j => bitAt (putBits (live.rd F.partPwrClu_phasesOk (36 * 7 + 35)) 7 1 0) j) := by decide
theorem meets_PowerFaultsComplete_5 : live.board.powered = true ∧ (live.report 0x0D (live.blank unitPower)).reports.getLast?.isSome = true := by
  decide
theorem meets_PowerManagementCompletes_1_3 :
    live.gate .pf0 .hfPwrCap 0 true = .ok ∧ 4000 ≤ bits (18000 : Word64).toNat 0 15 ∧ live.gate .pf0 .hfPwrContract 0 true = .ok
    ∧ 4000 ≤ bits (4000 * 2 ^ 8 + 60 * 2 + 1 : Word64).toNat 8 15 ∧ bits (4000 * 2 ^ 8 + 60 * 2 + 1 : Word64).toNat 1 6 = 60 := by decide
theorem meets_PowerManagementCompletes_2 :
    (activated { at_ := 5, mbox := none, begun := true, c := some 6 }).act.any (fun (a : Activation) => a.c.isSome) = true := by decide
theorem meets_PowerManagementCompletes_4 :
    (live.wr F.hfPwrContract_en 0 1).flag F.hfPwrContract_en 0 = true
    ∧ ({ live with ft := 10000000 }).power.contractLast < ({ live with ft := 10000000 }).ft / 10000000 := by decide
theorem meets_PowerManagementCompletes_5 :
    ({ live with slackRuns := [{ part := 7, phase := 0, start := 0, ref := 5, done := 3 }], ft := 5 }).slackRuns.find?
        (fun (r : SlackRun) => r.part == 7) = some { part := 7, phase := 0, start := 0, ref := 5, done := 3 }
    ∧ 5 ≤ ({ live with ft := 5 }).ftPart 7 ∧ live.slackOpen { part := 7, phase := 0, start := 0, ref := 5, done := 3 } = false := by decide
theorem meets_PowerManagementCompletes_6 : keyLess (1, 4) (1, 5) = true ∧ keyLess (1, 6) (1, 5) = false ∧ ((1, 6) : Nat × Nat) ≠ (1, 5) := by decide
theorem meets_PowerManagementCompletes_7 :
    (live.wr F.hfPwrBroker_en 0 1).flag F.hfPwrBroker_en 0 = true
    ∧ ({ live with ft := 255000000 }).power.period < ({ live with ft := 255000000 }).ft / ({ live with ft := 255000000 }).periodTicks := by decide
theorem meets_PowerManagementCompletes_8_10 :
    (live.wr F.hfPwrBrokerStat_role 0 2).rd F.hfPwrBrokerStat_role 0 = 2
    ∧ ({ live with power := { period := 3 } }).power.granted + 3 ≤ ({ live with power := { period := 3 } }).power.period := by decide
theorem meets_PowerManagementCompletes_11 :
    ({ live with up := 600000000000 }).flash.writtenAt + 600 ≤ ({ live with up := 600000000000 }).onSecs := by decide

/-- The last cluster in state `k`, alone in its wish to run or not. -/
def switching (k : Nat) (x : Clu) : State := { (live.wr F.partPwrClu_state 287 k).setClu 287 x with up := 2 ^ 40 }
theorem meets_PowerSequencesComplete_1 :
    ((switching 2 {}).wr F.partPwrGate_gateEn 7 1).flag F.partPwrGate_gateEn 7 = true ∧ (switching 2 {}).cluState (36 * 7 + 35) = 2
    ∧ (switching 2 {}).roles = [] ∧ (switching 2 {}).cluAwaited (36 * 7 + 35) = false ∧ (switching 2 {}).idleLong (36 * 7 + 35) = true
    ∧ (switching 2 {}).stickyClear (36 * 7 + 35) = true := by decide +kernel
theorem meets_PowerSequencesComplete_2 : live.gate .pf0 .partPwrGate 7 true = .ok ∧ (1 : Word64).toNat % 2 = 1 ∧ (0 : Word64).toNat % 2 = 0 := by decide
theorem meets_PowerSequencesComplete_3 :
    (switching 0 { wake := true }).cluState (36 * 7 + 6 * 5 + 5) = 0 ∧ ((switching 0 { wake := true }).cluSt (36 * 7 + 6 * 5 + 5)).wake = true
    ∧ (∀ j, j < 5 → ((switching 0 { wake := true }).cluSt (36 * 7 + 6 * 5 + j)).wake = false) ∧ (switching 0 { wake := true }).ftPart 7 % 1024 = 0
    ∧ (switching 0 { wake := true }).partLive 7 = true ∧ 1500 + 300 ≤ (switching 0 { wake := true }).zoneRating 7 5 := by decide
theorem meets_PowerSequencesComplete_4 :
    (switching 1 {}).cluState (36 * 7 + 35) = 1 ∧ ((switching 1 {}).cluSt (36 * 7 + 35)).softAt + 20000 ≤ ({ switching 1 {} with ft := 20000 }).ftPart 7 := by
  decide
theorem meets_PowerSequencesComplete_5_6 :
    live.thermNow = false ∧ (live.cluSt 287).hot = false ∧ ((tripAt 3 : Nat) : Int) ≤ (420 : Int) ∧ ((tripAt 1 : Nat) : Int) ≤ (460 : Int) := by decide
/-- The module off, on its way down, or up, as its pins say. -/
def pinned (b : Board) : State := { live with board := b }
theorem meets_PowerSequencesComplete_7_11 :
    (pinned { pwrEn := false, powered := false }).board.offHold = false ∧ (pinned { pwrEn := false, powered := false }).board.inRange = true
    ∧ (∀ l, l < 8 → (pinned {}).lampSt l ≠ 2) ∧ (pinned { powered := false, pwrEnWaits := true }).board.pwrEn = true
    ∧ (pinned { powered := false, pwrEnWaits := true, offHold := true }).board.offSince + 100000000
      ≤ ({ pinned { powered := false, pwrEnWaits := true, offHold := true } with up := 100000000 }).up := by decide

/-! ## Resets and boot -/

/-- A write of PART_RST: kind, target, go. -/
def rstWord (k tg : Nat) : Word64 := BitVec.ofNat 64 (k + tg * 4 + 2 ^ 12)
theorem meets_ResetsComplete_1 : ∀ x ∈ [(0, 575), (1, 35), (2, 0)],
    (lased 1).gate .pf0 .partRst 7 true = .ok ∧ bits (rstWord x.1 x.2).toNat 0 2 = x.1 ∧ bits (rstWord x.1 x.2).toNat 2 10 = x.2
    ∧ bitAt (rstWord x.1 x.2).toNat 12 = true ∧ (lased 1).flag F.partRst_busy 7 = false ∧ (lased 1).partRefuse 7 x.1 x.2 = false
    ∧ (lased 1).resets = [] := by decide
theorem meets_ResetsComplete_2 :
    (lased 1).gate .pf0 .hfRst 0 true = .ok ∧ (lased 1).flag F.hfRst_busy 0 = false ∧ bits (5 : Word64).toNat 0 3 = 5
    ∧ bits (6 : Word64).toNat 0 3 = 6 ∧ (lased 1).act = none ∧ (lased 1).swap = none ∧ (lased 1).tooHot = false := by decide
theorem meets_ResetsComplete_3 :
    bits (rstWord 3 0).toNat 0 2 = 3 ∧ bits (4 : Word64).toNat 0 2 ∈ [0, 3] ∧ bitAt (4 : Word64).toNat 2 = true := by decide
/-- A reset that runs. -/
def resetting (k : Nat) (d : Bool) : State := { live with resets := [{ kind := k, part := 7, target := 0, at_ := 0, drained := d }] }
theorem meets_ResetsComplete_4_5 :
    (resetting 4 false).resets[0]? = some { kind := 4, part := 7, target := 0, at_ := 0, drained := false } ∧ (resetting 4 false).tooHot = false
    ∧ (resetting 1 true).resets[0]? = some { kind := 1, part := 7, target := 0, at_ := 0, drained := true } ∧ (resetting 1 true).thermNow = false := by
  decide
theorem meets_ResetsComplete_5_hold : ∀ c, ((resetting 1 true).cluSt c).hold = false := fun _ => rfl
theorem meets_ResetsComplete_6 : 0 < (lased 1).rd F.hfHostLink_vfs 0 ∧ (lased 1).partDark 7 = false := by decide

theorem meets_BootEventsComplete_1_2 :
    live.board.pgood = true ∧ live.firstBoot = false ∧ live.tooHot = false ∧ State.reset.board.perstN = false ∧ State.reset.board.pgood = true
    ∧ State.reset.tooHot = false := by decide
/-- The module in a stage of its boot. -/
def staging (k : Nat) (due : Bool) : State := { live.wr F.hfBootStatus_stage 0 k with testDue := due }
theorem meets_BootEventsComplete_3_4_5 : ∀ k ∈ [3, 4, 5, 6], ∀ d ∈ [false, true],
    (staging k d).stage = k ∧ (staging k d).testDue = d ∧ (staging k d).heldLoad = false := by decide
theorem meets_BootEventsComplete_6 : ∀ k : Fin 4, k = 1 → k.val ≠ 0 ∧ k.val ≠ 3 ∧ live.stage ≠ 9 := by decide

/-! ## Steps -/

theorem meets_StepRunsFrontCommand : ({ State.reset with pending := [.ppsOut] }).pending = .ppsOut :: [] := by decide
theorem meets_EmptyQueueTicks : State.reset.pending = [] := rfl
theorem meets_BoardOutputsFollow : State.reset.boardFollows := by unfold State.boardFollows; decide
/-- HF_BOARD follows the pins after reset, memory is in its canonical form. -/
theorem meets_HostWriteReadsBack :
    live.mem.wf = true ∧ live.bar2Locked .pf0 false 510 2 = false ∧ (510 + 2 - 1) / 512 = 510 / 512 ∧ live.bar2Row .pf0 false 510 = .ok (smBase + 510)
    ∧ live.mem.hurt ((smBase + 510) / 512 * 512) 512 = false ∧ committed.hdmLine (2 ^ 32) = some 0 ∧ committed.homeDark 0 = false := by decide

/-! ## Registers, the mailbox, management, power and resets: the other clauses -/

theorem meets_RegisterAccessesComplete_2 :
    regAt 0x510000 = none ∧ inPayload 0x510000 8 = true ∧ live.mboxUp .pf0 = true ∧ breaksR7 0x510000 8 = false ∧ breaksR7 0x510001 1 = false
    ∧ breaksR7 0x200008 2 = true ∧ regAt 0x140000 = none ∧ inMsix .pf0 0x140000 = false ∧ live.outside (.vf 7) 0x140000 true = true
    ∧ live.outside .pf0 0x140000 true = false ∧ live.outside .pf0 0x140000 false = false := by decide +kernel
theorem meets_RegisterAccessesComplete_3 :
    (live.wr F.hfPwrPart_dark 0 128).gate .pf0 .coreArithFtz 4607 true = .abort ∧ State.reset.gate .pf0 .hfLayoutLen 0 true = .silent
    ∧ regAt (coreOff .coreArithFtz) = some (.coreArithFtz, 4607) := by decide +kernel
theorem meets_RegisterAccessesComplete_4 :
    (match regAt 0x200000 with | some (r, _) => r != .hfBoard | none => false) = true ∧ live.gate .pf0 .hfBoard 0 false = .ok := by decide +kernel
/-- A mailbox call in recovery, with a wrong length, and one through a buffer of which the input cannot be had. -/
theorem meets_MailboxReadsComplete_4 :
    recoveryOp 2 = false ∧ (live.wr F.hfBootStatus_stage 0 9).stage = 9 ∧ recoveryOp 0x0101 = true ∧ (5 ∉ [4] ∧ 5 ≠ 4)
    ∧ (live.wr F.hfMboxStatus_busy 0 1).flag F.hfMboxStatus_busy 0 = true ∧ (live.mboxSize (call 4)) ≠ 0
    ∧ live.mboxSize { call 4 with useHost := true } = 0 := by decide
theorem meets_MailboxReadsComplete_5 :
    (live.wr F.hfMboxBuf_pages 0 1).mboxSize { call 4 with useHost := true } = 4096 ∧ live.mboxInput { call 4 with useHost := true } = none := by decide
theorem meets_MailboxActionsComplete_6 :
    coreArg [0, 0x12, 0, 0] = none
    ∧ fwRange 7 0 4096 = false ∧ 1 < leNat ([2, 0, 0, 0] : List Byte)
    ∧ ({ live with pldm := some {} } : State).pldm.isSome = true ∧ (live.mboxTake (call 8) 0x0104).actRefuse 0 ≠ 0 := by decide
theorem meets_MailboxActionsComplete_7 :
    ({ live with act := some { at_ := 5, mbox := none } } : State).fwBusy = true
    ∧ ((runQ live 0 {}).mboxTake (call 4) 0x0302).canaryOk 0 = false
    ∧ (({ live with canaries := [{ core := 0 }] } : State).canaries.any (fun x => x.core == 0)) = true := by decide +kernel

theorem meets_ActivationsComplete_8 :
    live.act = none ∧ ({ at_ := 5, mbox := none } : Activation).begun = false ∧ ({ live with ft := 4 } : State).ft < 5
    ∧ ({ at_ := 5, mbox := none, begun := true, swapped := true } : Activation).swapped = true
    ∧ ({ at_ := 5, mbox := none, begun := true, c := some 6, result := some (0, 256) } : Activation).result = some (0, 256)
    ∧ ({ live with roll := some { version := 1 } } : State).roll.isSome = true ∧ live.resetWaits = false := by decide
/-- A list of `n` cores and one more are `n + 1`. -/
theorem turn_of (n : Nat) : n + 1 ≤ ({ version := 1, changed := List.replicate n 0 } : Roll).changed.length + 1 := by simp
/-- Every core but the last of the turn has changed. -/
theorem meets_ActivationsComplete_9 :
    4608 ≤ ({ version := 1, changed := List.replicate 4607 0 } : Roll).changed.length + 1
    ∧ (live.wr F.hfFwRoll_rollHalted 0 1).flag F.hfFwRoll_rollHalted 0 = true :=
  ⟨turn_of 4607, by decide⟩
theorem meets_ActivationsComplete_10 :
    ({ live with mpRestart := [some 0, some 0] } : State).mpRestart.getD 0 none = some 0 ∧ live.up ≤ 0 + 10000000000
    ∧ (live.wr F.hfMboxStatus_busy 0 1).flag F.hfMboxStatus_busy 0 = true ∧ State.reset.board.perstN = false := by decide

theorem meets_SpdmRequestsComplete_2 :
    State.reset.mgmtUp = false ∧ (live.conn 0).stage < 1 ∧ live.topNext.isSome = true
    ∧ 32768 ≤ (live.wr F.hfSecState_bootLeaves 0 32768).rd F.hfSecState_bootLeaves 0
    ∧ ({ live with flash := { live.flash with topIndex := 1048576 } } : State).topNext = none
    ∧ (live.wr F.hfSecState_lmsExhausted 0 1).flag F.hfSecState_lmsExhausted 0 = true
    ∧ live.sessions.any (fun (x : Session) => x.id == 1 && x.via == 1 && x.ready == true) = false ∧ (13 : Fin 256).val ≤ 13
    ∧ 13 < (14 : Fin 256).val ∧ (14 : Fin 256).val ≠ 255 := by decide
theorem meets_PldmCommandsComplete_4 :
    ({ live with mboxStage := true } : State).mboxStage = true ∧ (updating { comps := [6] }).pldm = some { comps := [6] }
    ∧ ({ comp := some 6, size := 2, offset := 1 } : Pldm).size ≤ 1 + (([1] : List Byte).take (2 - 1)).length
    ∧ ([6] : List Nat).filter (fun x => x != 6) = [] ∧ ([5, 6] : List Nat).filter (fun x => x != 6) ≠ []
    ∧ fwRange 6 0 (4096 + fwMax 6 + 1) = false
    ∧ (updating {}).actRefuse ((updating {}).ft + 10000000) ≠ 0 ∧ ((updating {}).wr F.hfBootStatus_stage 0 9).stage = 9 := by decide

theorem meets_PowerFaultsComplete_6 :
    (live.wr F.hfPwrPart_dark 0 128).partLive 7 = false ∧ (live.wr F.partPwrZone_phases 47 3).rd F.partPwrZone_phases 47 = 3
    ∧ (live.wr F.partPwrZone_phases 47 0).rd F.partPwrZone_phases 47 = 0 ∧ live.partLive 7 = true ∧ State.reset.board.powered = true
    ∧ countBelow 8 (fun j => bitAt (putBits 0x7F 6 1 0) j) < 7 ∧ (live.wr F.partPwrClu_state 287 3).cluState 287 = 3 := by decide
theorem meets_PowerManagementCompletes_9 :
    bits (3999 : Word64).toNat 0 15 < 4000 ∧ 18000 < bits (18001 : Word64).toNat 0 15 ∧ live.act = none
    ∧ bits (4000 * 2 ^ 8 + 61 * 2 : Word64).toNat 1 6 = 61 ∧ (live.ft / 10000000) ≤ live.power.contractLast
    ∧ (ported 4 {}).mySerial 0 = true ∧ (ported 4 {}).portUp 63 = true ∧ (ported 4 {}).apart 63 = false
    ∧ live.flag F.hfPwrBroker_en 0 = false := by decide
theorem meets_PowerManagementCompletes_12 :
    ({ live.wr F.hfPwrBroker_en 0 1 with ft := 2 ^ 40 } : State).grantT + 100000 ≤ ({ live.wr F.hfPwrBroker_en 0 1 with ft := 2 ^ 40 } : State).ft
    ∧ (∀ s : State, s.grantT + (if s.grantNow.all (fun g => decide (5 % 2 ^ 15 ≤ g)) then 0 else 100000) ≤ s.grantT + 100000) := by
  refine ⟨by decide, fun s => ?_⟩
  split <;> omega
theorem meets_PowerSequencesComplete_12 :
    (live.wr F.partPwrZone_phases 47 0).zoneRating 7 5 < 0 + 300 ∧ live.partLive 7 = true ∧ (switching 1 {}).ftPart 7 < ((switching 1 {}).cluSt 287).softAt + 20000
    ∧ State.reset.thermNow = false ∧ ((switching 2 { hot := true }).cluSt 287).hot = true
    ∧ ((switching 2 { hot := true }).cluSt 287).thermAt + 1000000 ≤ (switching 2 { hot := true }).up := by decide
/-- Sensors that are no cluster's: one hot, and one that has been cool for its time. -/
theorem meets_PowerSequencesComplete_13 :
    ((hotAt 3 : Nat) : Int) ≤ (tripAt 3 : Int) - 1 ∧ (3 : Nat) ≠ 1
    ∧ mget ({ live with power := { live.power with throttled := [(3015, some 0)] } } : State).power.throttled 3015 = some (some 0) := by decide
theorem meets_PowerSequencesComplete_14 :
    (pinned { pwrEn := true, powered := true }).board.pwrEn = true ∧ (pinned { poweringDown := true }).board.poweringDown = true
    ∧ (pinned { pwrEn := false, powered := true, poweringDown := true }).board.powered = true
    ∧ (pinned { powered := false, offHold := true, pwrEn := false }).up < (pinned { powered := false, offHold := true }).board.offSince + 100000000
    ∧ (pinned { pwrEn := false, powered := false, inRange := false }).board.inRange = false := by decide

theorem meets_ResetsComplete_7 :
    ((lased 1).wr F.partRst_busy 7 1).flag F.partRst_busy 7 = true ∧ (lased 1).partRefuse 7 0 576 = true ∧ (lased 1).partRefuse 7 3 0 = true
    ∧ (∃ r ∈ (resetting 3 false).resets, 3 ≤ r.kind) ∧ (∀ r ∈ (resetting 2 false).resets, r.kind < 3)
    ∧ ((lased 1).wr F.hfRst_busy 0 1).flag F.hfRst_busy 0 = true
    ∧ (({ lased 1 with act := some { at_ := 5, mbox := none, begun := true } } : State).act.map (·.begun)) = some true := by decide
theorem meets_ResetsComplete_8 :
    (resetting 4 false).tooHot = false ∧ live.resets[0]? = none ∧ (resetting 1 true).thermNow = false ∧ live.rd F.hfHostLink_vfs 0 ≤ (7 : Fin 8).val
    ∧ (lased 1).vfHasPart 0 7 = false ∧ granted.vfHasPart 0 7 = true ∧ granted.partDark 7 = false ∧ granted.resets = [] := by decide
/-- A module that a trip has left too hot. -/
def hotModule : State := (live.wr F.hfPwrTherm_state 0 2).wr F.hfPwrTherm_hottest 0 381
theorem meets_ResetsComplete_9 :
    hotModule.gate .pf0 .hfRst 0 true = .ok ∧ hotModule.tooHot = true ∧ ((resetting 2 true).setClu 287 { hold := true }).cluSt (36 * 7 + 35) = { hold := true } := by decide
theorem meets_BootEventsComplete_7 :
    ({ live with board := { live.board with pgood := false } } : State).board.pgood = false ∧ State.reset.board.perstN = false
    ∧ (staging 3 false).stage < 4 ∧ (staging 3 false).board.powered = true ∧ (staging 3 false).board.perstN = true
    ∧ live.flash.topIndex < 1048576 ∧ 1048576 ≤ ({ live with flash := { live.flash with topIndex := 1048576 } } : State).flash.topIndex
    ∧ 4 ≤ (staging 6 false).stage ∧ (staging 4 true).testDue = true ∧ ({ staging 6 false with heldLoad := true } : State).heldLoad = true
    ∧ (staging 6 false).rd F.hfBootStatus_testRun 0 ≠ 2 ∧ (0 : Fin 4).val = 0 ∧ (staging 9 false).stage = 9 := by decide
theorem meets_BootEventsComplete_8 :
    ({ live with fuses := { live.fuses with dies := (List.range 8).map (fun p => (p, Config.serial)) } } : State).diesOk = true
    ∧ ({ live with fuses := { live.fuses with dies := [] } } : State).diesOk = false := by
  constructor
  · simp [State.diesOk]
    decide
  · decide

theorem meets_EmptyQueueTicks_2 :
    ({ live with transfers := [{ transfer with rev := some 3 }, { transfer with id := 2 }] } : State).pending = []
    ∧ ∀ x ∈ [{ transfer with rev := some 3 }, { transfer with id := 2 }], ∀ y ∈ [{ transfer with rev := some 3 }, { transfer with id := 2 }],
        x.id = y.id → x = y := by decide
theorem meets_SoftwareAccessByCode_2 :
    regAt 0x200008 = some (.hfLayoutLen, 0) ∧ live.gate .pf0 .hfLayoutLen 0 true = .ok ∧ breaksR7 0x200008 8 = false
    ∧ RegName.hfLayoutLen.flds.all (fun f => decide (63 < f.lo) || decide (f.lo + f.len ≤ 63)) = true := by decide +kernel
theorem meets_HostWriteReadsBack_2 :
    live.serves = true ∧ committed.serves = true ∧ committed.cmRefused false = false ∧ (List.replicate 64 (0 : Byte)).length = 64 := by decide
theorem meets_DeniedAccessChangesNothing_3 :
    breaksR7 (coreOff .coreArithFtz) 8 = false ∧ regAt (coreOff .coreArithFtz) = some (.coreArithFtz, 4607) := by decide +kernel

end Sys2Proof.Machine.Slice0
end

section
/-! Access codes of registers (R8, R10, R61): a software write, a read and what a read clears each rewrite the fields of a register
one by one, so that one law of such a rewriting, over fields that share no bit, answers for all three. -/

namespace Sys2Proof.Machine

/-! ## Rewriting a register field by field -/

/-- A register's word with every listed field `f` replaced by `val f` of what it holds. -/
def mapFlds (val : Fld → Nat → Nat) (l : List Fld) (w : Nat) : Nat :=
  l.foldl (fun w f => putBits w f.lo f.len (val f (bits w f.lo f.len))) w

/-- Two fields share no bit. -/
abbrev Fld.apart (f g : Fld) : Prop := f.lo + f.len ≤ g.lo ∨ g.lo + g.len ≤ f.lo

theorem mapFlds_cons (val : Fld → Nat → Nat) (g : Fld) (l : List Fld) (w : Nat) :
    mapFlds val (g :: l) w = mapFlds val l (putBits w g.lo g.len (val g (bits w g.lo g.len))) := rfl

/-- A bit that lies in no listed field stands. -/
theorem testBit_mapFlds_outside (val : Fld → Nat → Nat) (l : List Fld) (w i : Nat) (h : ∀ f ∈ l, i < f.lo ∨ f.lo + f.len ≤ i) :
    (mapFlds val l w).testBit i = w.testBit i := by
  induction l generalizing w with
  | nil => rfl
  | cons g l ih =>
    have hg := h g (List.mem_cons_self ..)
    rw [mapFlds_cons, ih _ (fun f hf => h f (List.mem_cons_of_mem _ hf)), testBit_putBits, if_neg (by omega)]

/-- A field that shares no bit with a listed one stands. -/
theorem bits_mapFlds_apart (val : Fld → Nat → Nat) (l : List Fld) (w : Nat) (f : Fld) (h : ∀ g ∈ l, f.apart g) :
    bits (mapFlds val l w) f.lo f.len = bits w f.lo f.len := by
  induction l generalizing w with
  | nil => rfl
  | cons g l ih =>
    rw [mapFlds_cons, ih _ (fun x hx => h x (List.mem_cons_of_mem _ hx)), bits_putBits_ne _ _ _ _ _ _ (h g (List.mem_cons_self ..))]

/-- Each listed field is rewritten once, from what it held, where no two of them share a bit. -/
theorem bits_mapFlds_mem (val : Fld → Nat → Nat) {l : List Fld} (hl : l.Pairwise Fld.apart) (w : Nat) {f : Fld} (hf : f ∈ l) :
    bits (mapFlds val l w) f.lo f.len = val f (bits w f.lo f.len) % 2 ^ f.len := by
  induction l generalizing w with
  | nil => cases hf
  | cons g l ih =>
    obtain ⟨hg, hl⟩ := List.pairwise_cons.1 hl
    rw [mapFlds_cons]
    rcases List.mem_cons.1 hf with rfl | hf
    · rw [bits_mapFlds_apart _ _ _ _ hg, bits_putBits_same]
    · rw [ih hl _ hf, bits_putBits_ne _ _ _ _ _ _ (hg f hf).symm]

/-- No two fields of a register share a bit (Tables of the chapters, R10). -/
theorem flds_apart (r : RegName) : r.flds.Pairwise Fld.apart := by cases r <;> decide

/-! ## The three rewritings of a software access -/

/-- What a field that holds `o` holds after a software write of `n` to it (Table 0-3). -/
def Acc.written (a : Acc) (len o n : Nat) : Nat :=
  match a with
  | .rw => n
  | .w1c => o &&& (2 ^ len - 1 - n)
  | .w1s => o ||| n
  | .ro | .wo | .rc => o

theorem Acc.written_lt (a : Acc) {len o n : Nat} (ho : o < 2 ^ len) (hn : n < 2 ^ len) : a.written len o n < 2 ^ len := by
  cases a
  case rw => exact hn
  case w1c => exact Nat.lt_of_le_of_lt Nat.and_le_left ho
  case w1s => exact Nat.or_lt_two_pow ho hn
  all_goals exact ho

theorem Fld.softWrite_eq (f : Fld) (old v : Nat) :
    f.softWrite old v = putBits old f.lo f.len (f.acc.written f.len (bits old f.lo f.len) (bits v f.lo f.len)) := by
  unfold Fld.softWrite Acc.written
  cases f.acc <;> simp only [putBits_self]

theorem softWrite_eq (r : RegName) (old v : Nat) :
    softWrite r old v = mapFlds (fun f o => f.acc.written f.len o (bits v f.lo f.len)) r.flds old := by
  simp only [softWrite, mapFlds, Fld.softWrite_eq]

/-- A rewriting that puts 0 into the fields of one access code. -/
theorem clearAcc_eq (a : Acc) (l : List Fld) (w : Nat) :
    l.foldl (fun w f => if f.acc == a then putBits w f.lo f.len 0 else w) w = mapFlds (fun f o => if f.acc = a then 0 else o) l w := by
  unfold mapFlds
  congr 1
  funext w f
  by_cases h : f.acc = a
  · simp [h]
  · simp [h, putBits_self]

theorem softRead_eq (r : RegName) (w : Nat) : softRead r w = mapFlds (fun f o => if f.acc = .wo then 0 else o) r.flds w :=
  clearAcc_eq .wo r.flds w

theorem afterRead_eq (r : RegName) (w : Nat) : afterRead r w = mapFlds (fun f o => if f.acc = .rc then 0 else o) r.flds w :=
  clearAcc_eq .rc r.flds w

/-- A field after a software write, by its access code. -/
theorem bits_softWrite {r : RegName} {f : Fld} (hf : f ∈ r.flds) (old v : Nat) :
    bits (softWrite r old v) f.lo f.len = f.acc.written f.len (bits old f.lo f.len) (bits v f.lo f.len) := by
  rw [softWrite_eq, bits_mapFlds_mem _ (flds_apart r) _ hf, Nat.mod_eq_of_lt (f.acc.written_lt (bits_lt ..) (bits_lt ..))]

/-- Reserved bits stand (R10). -/
theorem testBit_softWrite_reserved (r : RegName) (old v i : Nat) (h : ∀ f ∈ r.flds, i < f.lo ∨ f.lo + f.len ≤ i) :
    (softWrite r old v).testBit i = old.testBit i := by
  rw [softWrite_eq, testBit_mapFlds_outside _ _ _ _ h]

/-- A field where the fields of one access code are put to 0. -/
theorem bits_clearAcc (a : Acc) {r : RegName} {f : Fld} (hf : f ∈ r.flds) (w : Nat) :
    bits (mapFlds (fun f o => if f.acc = a then 0 else o) r.flds w) f.lo f.len = if f.acc = a then 0 else bits w f.lo f.len := by
  rw [bits_mapFlds_mem _ (flds_apart r) _ hf]
  by_cases h : f.acc = a
  · simp [h]
  · simp [h, Nat.mod_eq_of_lt (bits_lt w f.lo f.len)]

theorem bits_softRead {r : RegName} {f : Fld} (hf : f ∈ r.flds) (w : Nat) :
    bits (softRead r w) f.lo f.len = if f.acc = .wo then 0 else bits w f.lo f.len := by rw [softRead_eq, bits_clearAcc .wo hf]

theorem bits_afterRead {r : RegName} {f : Fld} (hf : f ∈ r.flds) (w : Nat) :
    bits (afterRead r w) f.lo f.len = if f.acc = .rc then 0 else bits w f.lo f.len := by rw [afterRead_eq, bits_clearAcc .rc hf]

end Sys2Proof.Machine
end

section
/-! Reads and writes of registers by address (R7 to R9, R398 to R400): one equation for each way an access to an offset of BAR0 is
answered. -/

namespace Sys2Proof.Machine

variable {s : State} {f : Func} {off w v i : Nat} {r : RegName} {m : MboxGo}

/-! ## The events -/

theorem exec_registerWrite (s : State) (f : Func) (off w : Nat) (d : RegData) :
    exec (.registerWrite f off w d) s = .next (settle (s.bar0Write f off w d.v.toNat d.m)) := rfl

theorem exec_registerRcRead (s : State) (f : Func) (off w : Nat) :
    exec (.registerRcRead f off w) s = .next (settle (s.bar0Read f off w)) := rfl

theorem exec_bar0BadAccess (s : State) (f : Func) (off w : Nat) (wr : Bool) :
    exec (.bar0BadAccess f off w wr) s = .next (settle (s.badAccess f off w wr)) := rfl

/-! ## The end of an event that writes one register -/

theorem settle_setReg_same (s : State) (i v : Nat) (h : r ≠ .hfBoard) : (settle (s.setReg r i v)).reg r i = v % 2 ^ 64 := by
  rw [settle_reg _ i h, reg_setReg_same]

theorem settle_setReg_ne (s : State) {r' : RegName} {i i' : Nat} (v : Nat) (h : r' ≠ r ∨ i' ≠ i) (hb : r' ≠ .hfBoard) :
    (settle (s.setReg r i v)).reg r' i' = s.reg r' i' := by
  rw [settle_reg _ i' hb, reg_setReg_ne _ _ h]

/-! ## The gate -/

theorem host_ok {wr : Bool} (h : s.gate f r i wr = .ok) (eff : State → State) : s.host f r i wr eff = eff s := by
  simp only [State.host, h]

theorem host_silent {wr : Bool} (h : s.gate f r i wr = .silent) (eff : State → State) : s.host f r i wr eff = s := by
  simp only [State.host, h]

theorem host_abort {wr : Bool} (h : s.gate f r i wr = .abort) (eff : State → State) :
    s.host f r i wr eff = s.abortAccess f (regAddr r i) 0 := by
  simp only [State.host, h]

/-! ## Writes -/

/-- Registers of which a write does more than its access codes say, or waits on the unit's state. -/
def effectRegs : List RegName :=
  [.qCtrl, .qBase, .qHead, .qTail, .partMark, .partMarkAdd, .partTallyRd, .partUpdCommit, .partXltReq, .partXltInv, .partRingReset,
   .partCeLand0, .partCeLand1, .partPwrGate, .partRst, .lampCtrl, .vxPortCtrl, .vxPortCal, .hfLayoutCmd, .hfFtCtrl, .hfFtPps,
   .hfSchedTally, .hfVxId, .hfVxBook0, .hfIntMap, .hfMboxCmd, .hfPwrCap, .hfPwrContract, .hfPwrBroker, .hfPwrBrokerGuard, .hfRst]

theorem regWrite_plain (h : r ∉ effectRegs) : s.regWrite f r i v m = s.softWr r i v := by
  unfold State.regWrite
  split
  case h_32 => rfl
  all_goals exact absurd (by decide) h

theorem bar0Write_misshapen (h : breaksR7 off w = true) : s.bar0Write f off w v m = s.badAccess f off w true := by
  simp only [State.bar0Write, h, if_true]

theorem bar0Write_reg (h : breaksR7 off w = false) (hr : regAt off = some (r, i)) :
    s.bar0Write f off w v m = s.host f r i true (fun s => s.regWrite f r i (v % 2 ^ (8 * w)) m) := by
  simp [State.bar0Write, h, hr]

section
variable (h : breaksR7 off w = false) (hr : regAt off = none)
include h hr

theorem bar0Write_payload (hp : inPayload off w = true) (hm : s.mboxUp f = true) :
    s.bar0Write f off w v m = { s with mbox := s.mbox.wrN (off - payloadBase) (leBytes (min w 8) v) } := by
  simp [State.bar0Write, h, hr, hp, hm]

theorem bar0Write_msix (hp : (inPayload off w && s.mboxUp f) = false) (hx : inMsix f off = true) :
    s.bar0Write f off w v m = s.msixWrite f off w v := by
  simp only [State.bar0Write, h, hr, hp, hx, Bool.false_eq_true, if_false, if_true]

theorem bar0Write_outside (hp : (inPayload off w && s.mboxUp f) = false) (hx : inMsix f off = false)
    (hs : s.serves = true) (ho : s.outside f off true = true) : s.bar0Write f off w v m = s.deny f off 0 := by
  simp only [State.bar0Write, h, hr, hp, hx, ho, State.deniedAccess, hs, Bool.not_true, Bool.or_self, Bool.false_eq_true, if_false, if_true]

/-- A write to an offset without a register is aborted where its unit is down, and dropped elsewhere (R400). -/
theorem bar0Write_empty (hp : (inPayload off w && s.mboxUp f) = false) (hx : inMsix f off = false) (ho : s.outside f off true = false) :
    s.bar0Write f off w v m = if (s.serves && s.offsetDown off) = true then s.abortAccess f off 0 else s := by
  simp only [State.bar0Write, h, hr, hp, hx, ho, Bool.false_eq_true, if_false]

end

/-! ## Reads -/

theorem bar0Read_misshapen (h : breaksR7 off w = true) : s.bar0Read f off w = s.badAccess f off w false := by
  simp only [State.bar0Read, h, if_true]

theorem bar0Read_ok (h : breaksR7 off w = false) (hr : regAt off = some (r, i)) (hg : s.gate f r i false = .ok) :
    s.bar0Read f off w = (s.answer (.data (leBytes w (s.regRead r i)))).setReg r i (afterRead r (s.reg r i)) := by
  simp [State.bar0Read, h, hr, hg]

theorem bar0Read_silent (h : breaksR7 off w = false) (hr : regAt off = some (r, i)) (hg : s.gate f r i false = .silent) :
    s.bar0Read f off w = s := by
  simp [State.bar0Read, h, hr, hg]

theorem bar0Read_abort (h : breaksR7 off w = false) (hr : regAt off = some (r, i)) (hg : s.gate f r i false = .abort) :
    s.bar0Read f off w = (s.abortAccess f off 0).answer (.data (List.replicate w 0xFF)) := by
  simp [State.bar0Read, h, hr, hg]

section
variable (h : breaksR7 off w = false) (hr : regAt off = none)
include h hr

theorem bar0Read_payload (hp : inPayload off w = true) (hm : s.mboxUp f = true) :
    s.bar0Read f off w = s.answer (.data (s.mbox.rdN (off - payloadBase) w)) := by
  simp [State.bar0Read, h, hr, hp, hm]

theorem bar0Read_msix (hp : (inPayload off w && s.mboxUp f) = false) (hx : inMsix f off = true) (hs : s.serves = true) :
    s.bar0Read f off w
      = s.answer (.data (leBytes w (s.msixRead f off + (if w == 8 then s.msixRead f (off + 4) * 2 ^ 32 else 0)))) := by
  simp only [State.bar0Read, h, hr, hp, hx, hs, Bool.and_self, Bool.false_eq_true, if_false, if_true]

theorem bar0Read_outside (hp : (inPayload off w && s.mboxUp f) = false) (hx : inMsix f off = false)
    (hs : s.serves = true) (ho : s.outside f off false = true) :
    s.bar0Read f off w = (s.deny f off 0).answer (.data (List.replicate w 0)) := by
  simp only [State.bar0Read, h, hr, hp, hx, ho, State.deniedAccess, hs, Bool.false_and, Bool.not_true, Bool.or_self, Bool.false_eq_true,
    if_false, if_true]

/-- A read of an offset without a register is aborted with all ones where its unit is down, and gives 0 elsewhere (R400). -/
theorem bar0Read_empty (hp : (inPayload off w && s.mboxUp f) = false) (hx : inMsix f off = false)
    (hs : s.serves = true) (ho : s.outside f off false = false) :
    s.bar0Read f off w
      = if s.offsetDown off = true then (s.abortAccess f off 0).answer (.data (List.replicate w 0xFF)) else s.answer (.data (leBytes w 0)) := by
  simp only [State.bar0Read, h, hr, hp, hx, ho, hs, Bool.false_and, Bool.true_and, Bool.false_eq_true, if_false, if_true]

end

end Sys2Proof.Machine
end

section
/-! The statements of the scope: accesses by access code (O5) and by address (O50). -/

namespace Sys2Proof.Machine

/-- A REGISTER_WRITE of a register without effects of its own. -/
theorem exec_registerWrite_plain {s : State} {f : Func} {off w i : Nat} {r : RegName} {d : RegData} (h : breaksR7 off w = false)
    (hr : regAt off = some (r, i)) (hg : s.gate f r i true = .ok) (he : r ∉ effectRegs) :
    exec (.registerWrite f off w d) s
      = .next (settle (s.setReg r i (softWrite r (s.reg r i) (d.v.toNat % 2 ^ (8 * w))))) := by
  rw [exec_registerWrite, bar0Write_reg h hr, host_ok hg, regWrite_plain he]
  rfl

/-- A REGISTER_RC_READ of a register that answers: its content in the reply, its RC fields cleared. -/
theorem exec_registerRcRead_ok {s : State} {f : Func} {off w i : Nat} {r : RegName} (h : breaksR7 off w = false)
    (hr : regAt off = some (r, i)) (hg : s.gate f r i false = .ok) :
    exec (.registerRcRead f off w) s
      = .next (settle ((s.answer (.data (leBytes w (s.regRead r i)))).setReg r i (afterRead r (s.reg r i)))) := by
  rw [exec_registerRcRead, bar0Read_ok h hr hg]

/-- Settles O5: the three folds over a register's fields are field-wise, as no two fields of a register share a bit. -/
theorem softwareAccessByCode : Obligations.SoftwareAccessByCode := by
  refine ⟨fun r f old v hf => ?_, testBit_softWrite_reserved, fun r f w hf => ⟨bits_softRead hf w, bits_afterRead hf w⟩, ?_⟩
  · rw [bits_softWrite hf]
    unfold Acc.written
    cases f.acc <;> rfl
  · intro f off w i r v m s hw hr hg hmem
    have hplain : r ∉ effectRegs ∧ r ≠ .hfBoard := by
      clear hr hg
      revert r
      decide
    refine ⟨_, exec_registerWrite_plain hw hr hg hplain.1, settle_setReg_same _ _ _ hplain.2, by simp, by simp, ?_⟩
    exact fun r' i' hne hb => settle_setReg_ne s _ hne hb

/-- Settles O50, by the ways an access to an offset of BAR0 is answered. -/
theorem registerAccessesComplete : Obligations.RegisterAccessesComplete := by
  refine ⟨?_, ?_, ?_, ?_⟩
  · intro f off w i r v m s hw hr
    rw [exec_registerWrite, bar0Write_reg hw hr]
    exact ⟨fun hg => by rw [host_ok hg], fun hg => by rw [host_silent hg], fun hg => by rw [host_abort hg]⟩
  · intro f off w i r s hw hr
    refine ⟨fun hg hb => ⟨_, exec_registerRcRead_ok hw hr hg, by simp [State.answer], settle_setReg_same _ _ _ hb, by simp [State.answer],
        by simp [State.answer], fun r' i' hne hb' => settle_setReg_ne _ _ hne hb'⟩,
      fun hg _ => ⟨_, exec_registerRcRead_ok hw hr hg, by simp [State.answer], by simp [State.answer]⟩, fun hg => ?_, fun hg => ?_⟩
    · rw [exec_registerRcRead, bar0Read_silent hw hr hg]
    · rw [exec_registerRcRead, bar0Read_abort hw hr hg, State.answer]
  · intro f off w v m s hw hr
    refine ⟨fun hp hm => ⟨?_, ?_⟩, fun hp hx => ⟨?_, fun hs => ?_⟩, fun hp hx => ⟨fun wr hs ho => ?_, fun ho => ?_, fun ho hs => ?_⟩⟩
    · rw [exec_registerWrite, bar0Write_payload hw hr hp hm, payloadBase]
    · rw [exec_registerRcRead, bar0Read_payload hw hr hp hm, payloadBase, State.answer]
    · rw [exec_registerWrite, bar0Write_msix hw hr hp hx]
    · rw [exec_registerRcRead, bar0Read_msix hw hr hp hx hs, State.answer]
    · cases wr
      · simp only [Bool.false_eq_true, if_false]
        rw [exec_registerRcRead, bar0Read_outside hw hr hp hx hs ho, State.answer]
      · simp only [if_true]
        rw [exec_registerWrite, bar0Write_outside hw hr hp hx hs ho]
    · rw [exec_registerWrite, bar0Write_empty hw hr hp hx ho]
    · rw [exec_registerRcRead, bar0Read_empty hw hr hp hx hs ho, State.answer, State.answer]
  · intro f off w v m s hw
    rw [exec_registerWrite, exec_registerRcRead, bar0Write_misshapen hw, bar0Read_misshapen hw, exec_bar0BadAccess,
      exec_bar0BadAccess]
    exact ⟨rfl, rfl⟩

end Sys2Proof.Machine
end

section
/-! What a step of the boot leaves: a relation between two states that every shared operation of the boot keeps (R199, R483, R486). -/

namespace Sys2Proof.Machine

variable {s t u : State} {rs : List RegName}

/-- From `s` to `t` the registers of `rs` stand, and so do the parts of the state that the boot's repair, records and register writes never touch. -/
structure State.Keeps (rs : List RegName) (s t : State) : Prop where
  reg : ∀ r ∈ rs, ∀ i, t.reg r i = s.reg r i
  mem : t.mem = s.mem
  ft : t.ft = s.ft
  queues : t.queues = s.queues
  softRepair : t.softRepair = s.softRepair
  board : t.board = s.board
  firstBoot : t.firstBoot = s.firstBoot
  flash : t.flash = s.flash
  up : t.up = s.up
  bootAt : t.bootAt = s.bootAt
  heldLoad : t.heldLoad = s.heldLoad

/-- Every state keeps itself: the start of a chain of updates `s.keeps.wr.wr`. -/
theorem State.keeps (s : State) : s.Keeps rs s := ⟨fun _ _ _ => rfl, rfl, rfl, rfl, rfl, rfl, rfl, rfl, rfl, rfl, rfl⟩

namespace State.Keeps

theorem trans (h : s.Keeps rs t) (k : t.Keeps rs u) : s.Keeps rs u where
  reg r hr i := (k.reg r hr i).trans (h.reg r hr i)
  mem := k.mem.trans h.mem
  ft := k.ft.trans h.ft
  queues := k.queues.trans h.queues
  softRepair := k.softRepair.trans h.softRepair
  board := k.board.trans h.board
  firstBoot := k.firstBoot.trans h.firstBoot
  flash := k.flash.trans h.flash
  up := k.up.trans h.up
  bootAt := k.bootAt.trans h.bootAt
  heldLoad := k.heldLoad.trans h.heldLoad

/-- The same, with nothing said of the registers. -/
theorem anyRegs (h : s.Keeps rs t) : s.Keeps [] t := { h with reg := nofun }

theorem rd (h : s.Keeps rs t) {f : Fld} (i : Nat) (hf : f.reg ∈ rs := by decide) : t.rd f i = s.rd f i := by
  unfold State.rd; rw [h.reg _ hf]

/-- A field of another register is written. -/
theorem wr (h : s.Keeps rs t) {f : Fld} {i v : Nat} (hf : f.reg ∉ rs := by decide) : s.Keeps rs (t.wr f i v) :=
  h.trans { t.keeps (rs := rs) with reg := fun _ hr _ => reg_wr_ne t f _ v (.inl (ne_of_mem_of_not_mem hr hf)) }

theorem foldl {α : Type} {f : State → α → State} (hf : ∀ (s : State) x, s.Keeps rs (f s x)) (l : List α) (s : State) :
    s.Keeps rs (l.foldl f s) := by
  induction l generalizing s with
  | nil => exact s.keeps
  | cons x l ih => exact (hf s x).trans (ih _)

theorem loop {f : Nat → State → State} (hf : ∀ i (s : State), s.Keeps rs (f i s)) (n : Nat) (s : State) : s.Keeps rs (Machine.loop n f s) :=
  foldl (fun s i => hf i s) _ s

/-- Parts that `Keeps` does not speak of change. The lemmas below state it for the updates of a boot, so that no proof compares two states by
evaluating them. -/
theorem parts (h : s.Keeps rs t) (regs : u.regs = t.regs := by rfl) (mem : u.mem = t.mem := by rfl) (ft : u.ft = t.ft := by rfl)
    (queues : u.queues = t.queues := by rfl) (softRepair : u.softRepair = t.softRepair := by rfl) (board : u.board = t.board := by rfl)
    (firstBoot : u.firstBoot = t.firstBoot := by rfl) (flash : u.flash = t.flash := by rfl) (up : u.up = t.up := by rfl)
    (bootAt : u.bootAt = t.bootAt := by rfl) (heldLoad : u.heldLoad = t.heldLoad := by rfl) : s.Keeps rs u :=
  h.trans ⟨fun r _ i => reg_of_regs regs r i, mem, ft, queues, softRepair, board, firstBoot, flash, up, bootAt, heldLoad⟩

theorem carry (h : s.Keeps rs t) (x : NMap Nat) : s.Keeps rs { t with carry := x } := h.parts

theorem snoops (h : s.Keeps rs t) (x : List Snoop) (y : List HostMsg) : s.Keeps rs { t with snoops := x, sent := y } := h.parts

theorem load (h : s.Keeps rs t) (x : Option LoadRun) (y : Option Layout) (z : List Nat) :
    s.Keeps rs { t with standby := y, sinceLoad := z, load := x } := h.parts

theorem net (h : s.Keeps rs t) (x y : NetMap) : s.Keeps rs { t with net := x, netWant := y } := h.parts

theorem setClu (h : s.Keeps rs t) (c : Nat) (x : Clu) : s.Keeps rs (t.setClu c x) := h.parts

theorem fresh (h : s.Keeps rs t) : s.Keeps rs t.fresh.2 := h.parts

theorem spares (h : s.Keeps rs t) (x : NMap Spares) : s.Keeps rs { t with spares := x } := h.parts

/-- Both sides of a test keep what each does. -/
theorem ite {p : Prop} [Decidable p] (ht : s.Keeps rs t) (hu : s.Keeps rs u) : s.Keeps rs (if p then t else u) := by
  split
  · exact ht
  · exact hu

end State.Keeps

/-! ## Records and reports -/

theorem raise_keeps (s : State) (src : Nat) : s.Keeps rs (s.raise src) := by
  obtain ⟨mp, st, h⟩ := raise_eq s src
  rw [h]
  exact s.keeps.parts

theorem stick_keeps (s : State) (f : Fld) (i p : Nat) (hf : f.reg ∉ rs) : s.Keeps rs (s.stick f i p) :=
  s.keeps.ite ((s.keeps.wr hf).trans (raise_keeps _ _))

theorem partErr_keeps (s : State) (p bit core : Nat) : s.Keeps [.hfBootStatus] (s.partErr p bit core) :=
  .trans (.ite s.keeps s.keeps.wr.wr.wr.wr) (stick_keeps _ _ _ _ (by simp))

theorem coreErr_keeps (s : State) (g bit eng opcode : Nat) : s.Keeps [.hfBootStatus] (s.coreErr g bit eng opcode) :=
  have captured := (State.Keeps.ite s.keeps s.keeps.wr.wr.wr.wr.wr).trans (stick_keeps _ _ _ _ (by simp))
  captured.trans (.ite (partErr_keeps _ _ _ _) (State.keeps _))

theorem hfErr_keeps (s : State) (bit stack : Nat) : s.Keeps [.hfBootStatus] (s.hfErr bit stack) :=
  (State.Keeps.ite s.keeps s.keeps.wr.wr.wr.wr).wr (by simp)

theorem report_keeps (s : State) (cause : Nat) (r : Report) : s.Keeps rs (s.report cause r) :=
  s.keeps.parts

/-- A counter in units is advanced. -/
theorem incUnit_keeps (s : State) (f : Fld) (i u d : Nat) (hf : f.reg ∉ rs) : s.Keeps rs (s.incUnit f i u d) :=
  (s.keeps.wr hf).carry _

/-! ## Repair -/

theorem repairShow_keeps (s : State) : s.Keeps [.hfBootStatus] s.repairShow := by
  unfold State.repairShow
  exact .loop (fun _ s => s.keeps.wr.wr.wr.wr) 8 s

theorem spareOut_keeps (s : State) (row : Nat) : s.Keeps [.hfBootStatus] (s.spareOut row) := by
  unfold State.spareOut
  split
  case h_1 => exact s.keeps
  case h_2 d _ =>
    refine State.Keeps.trans ?_ (report_keeps _ _ _)
    split
    · exact s.keeps.wr.trans (hfErr_keeps _ _ _)
    · split
      · exact s.keeps.wr.wr.trans (coreErr_keeps _ _ _ _ _)
      · exact s.keeps.wr.wr.trans (partErr_keeps _ _ _ _)

theorem bootTestShow_keeps (s : State) : s.Keeps [.hfBootStatus] s.bootTestShow := s.keeps.wr.wr

end Sys2Proof.Machine
end

section
/-! The stages of a boot, each by what it leaves and what it brings (R482 to R487, R520). -/

namespace Sys2Proof.Machine

variable {s : State}

/-! ## Loads and READY -/

theorem snoopLine_keeps (s : State) (l : Nat) (inv eng : Bool) : s.Keeps [.hfBootStatus] (s.snoopLine l inv eng) :=
  (incUnit_keeps s F.hfHdmSf_bisnpK 0 1024 1 (by decide)).snoops _ _

theorem snoop_keeps (s : State) (row : Nat) (write : Bool) : s.Keeps [.hfBootStatus] (s.snoop row write) := by
  unfold State.snoop
  refine .foldl (fun s l => ?_) _ s
  split
  · exact s.keeps.snoops _ _
  · exact snoopLine_keeps _ _ _ _

theorem loadStart_keeps (s : State) : s.Keeps [.hfBootStatus] s.loadStart := by
  have snooped (l : List Nat) : s.Keeps [.hfBootStatus] (l.foldl (fun s d => s.snoop d false) s) := .foldl (fun s d => snoop_keeps s d false) l s
  have shown (t : State) : t.Keeps [.hfBootStatus] (Machine.loop 6 (fun j s => s.wr F.hfLayoutHashStandby_standbyHash j 0) t) :=
    .loop (fun _ s => s.keeps.wr) 6 t
  unfold State.loadStart
  exact ((snooped _).wr.wr.wr.trans (shown _)).load _ _ _

theorem loadStart_load (s : State) : s.loadStart.load.isSome = true := rfl

/-- READY as HF_BOOT_STATUS shows it, with the time the boot took. -/
def State.showReady (s : State) : State :=
  (s.wr F.hfBootStatus_stage 0 7).wr F.hfBootStatus_bootMs 0 ((s.up - s.bootAt) / 1000000)

theorem goReady_free (h : s.heldLoad = false) : s.goReady = s.showReady := by
  simp [State.goReady, State.showReady, h]

theorem goReady_held (h : s.heldLoad = true) : s.goReady = ({ s.showReady with heldLoad := false } : State).loadStart := by
  simp [State.goReady, State.showReady, h]

theorem showReady_stage (s : State) : s.showReady.stage = 7 := by
  unfold State.stage State.showReady
  rw [rd_wr_of_bits _ _ _ _ _ _ (by decide) (.inl (by decide)), rd_wr_same _ _ _ _ (by decide)]
  rfl

theorem showReady_testFail (s : State) : s.showReady.rd F.hfBootStatus_testFail 0 = s.rd F.hfBootStatus_testFail 0 := by
  unfold State.showReady
  rw [rd_wr_of_bits _ _ _ _ _ _ (by decide) (.inl (by decide)), rd_wr_of_bits _ _ _ _ _ _ (by decide) (.inr (by decide))]

theorem showReady_keeps (s : State) : s.Keeps [] s.showReady := s.keeps.wr.wr

/-- A held load that is let go changes no register. -/
theorem releaseLoad_reg (s : State) (r : RegName) (i : Nat) : ({ s with heldLoad := false } : State).reg r i = s.reg r i := reg_of_regs rfl r i

theorem goReady_reg (s : State) (i : Nat) : s.goReady.reg .hfBootStatus i = s.showReady.reg .hfBootStatus i := by
  cases h : s.heldLoad
  · rw [goReady_free h]
  · rw [goReady_held h]
    exact ((loadStart_keeps _).reg _ (by decide) i).trans (releaseLoad_reg ..)

end Sys2Proof.Machine
end

section
/-! The boot from PERST_N's release to the ROM's choice (R21, R199, R483, R502): what it brings and what it leaves. -/

namespace Sys2Proof.Machine

variable {s : State}

/-! ## Flash, repair and the ROM -/

theorem setFence_keeps (s : State) (g : Nat) (on : Bool) : s.Keeps [.hfBootStatus] (s.setFence g on) := s.keeps.wr.wr

theorem logCounts_keeps (s : State) : s.Keeps [.hfBootStatus] s.logCounts := s.keeps.wr.wr

theorem spareOuts_keeps (l : List Nat) (s : State) : s.Keeps [.hfBootStatus] (l.foldl (fun s r => s.spareOut r) s) :=
  .foldl spareOut_keeps l s

/-- What flash and fuses bring into the registers, and the records applied. -/
theorem applyFlash_keeps (s : State) : s.Keeps [.hfBootStatus] s.applyFlash := by
  have svn (t : State) : t.Keeps [.hfBootStatus] (loop 7 (fun c s => s.wr ⟨.hfFwSvn, 7 * c, 7, .ro, 0⟩ 0 (s.flash.svn.getD c 0)) t) :=
    .loop (fun _ s => s.keeps.wr (by simp)) 7 t
  have routers (t : State) : t.Keeps [.hfBootStatus] (loop 8 (fun p s => s.wr F.partNetRouter_failed p (s.flash.routers.getD p 0)) t) :=
    .loop (fun _ s => s.keeps.wr) 8 t
  have ppr (t : State) : t.Keeps [.hfBootStatus] (loop 16 (fun h s => s.fresh.2.wr F.hbmEcc_pprFree h s.fresh.1) t) :=
    .loop (fun _ s => s.keeps.fresh.wr) 16 t
  have retired (t : State) : t.Keeps [.hfBootStatus] (t.retireFlash.foldl (fun s e =>
      ((s.wr F.coreId_retired e.1 1).wr F.coreId_retireCause e.1 e.2).setFence e.1 true) t) :=
    .foldl (fun s _ => s.keeps.wr.wr.trans (setFence_keeps _ _ _)) _ t
  have dark (t : State) : t.Keeps [.hfBootStatus] (t.flash.darkClu.foldl (fun s c => s.wr F.partPwrClu_state c 3) t) :=
    .foldl (fun s _ => s.keeps.wr) _ t
  have phases (t : State) : t.Keeps [.hfBootStatus] (t.flash.phases.foldl (fun s e =>
      ((s.wr F.partPwrClu_phasesOk e.1 e.2).wr F.partPwrClu_op5Cap e.1 1).setClu e.1 { s.cluSt e.1 with regulator := 5 }) t) :=
    .foldl (fun s _ => s.keeps.wr.wr.setClu _ _) _ t
  have trims (t : State) : t.Keeps [.hfBootStatus] (t.clu.foldl (fun s e => s.wr F.cluOp_trim e.1 e.2.trim) t) :=
    .foldl (fun s _ => s.keeps.wr) _ t
  have shown := ((logCounts_keeps s).trans (bootTestShow_keeps _)).trans (svn _)
  unfold State.applyFlash
  exact ((((((((shown.wr.wr.wr.wr.trans (routers _)).trans (ppr _)).trans (repairShow_keeps _)).trans (spareOuts_keeps _ _)).trans
    (retired _)).trans (dark _)).trans (phases _)).trans (trims _)).net _ _

theorem bootRom_recovery (h : s.board.recoveryN = false) :
    s.bootRom = (((s.wr F.hfFwStatus_activeSet 0 s.flash.bootSet).wr F.hfFwStatus_recovery 0 1).wr F.hfFwStatus_recoveryCause 0 2).wr
      F.hfBootStatus_stage 0 9 := by
  simp [State.bootRom, h]

theorem broadcastFw_keeps (s : State) (v : Nat) : s.Keeps [] (s.broadcastFw v) :=
  (State.Keeps.ite s.keeps (.loop (fun _ s => s.keeps.wr) 4608 s)).spares _

theorem bootRom_keeps (s : State) : s.Keeps [] s.bootRom := by
  unfold State.bootRom
  dsimp only
  split
  · exact s.keeps.wr.wr.wr.wr
  · split
    · exact s.keeps.wr.wr.wr.wr
    · split
      · exact (s.keeps.wr.wr.wr.trans (broadcastFw_keeps _ _)).trans (.loop (fun _ s => s.keeps.wr) 144 _)
      · exact s.keeps.wr.wr.wr

/-! ## Module reset -/

/-- The rails' state and the mailbox's end go into registers alone. -/
theorem moduleLost_keeps (s : State) : (s.cleared true).Keeps [] s.moduleLost := by
  have phases (old t : State) : t.Keeps [] (loop 8 (fun p s => s.wr F.partPwrBank_phasesOk p (old.rd F.partPwrBank_phasesOk p)) t) :=
    .loop (fun _ s => s.keeps.wr) 8 t
  have zones (old t : State) : t.Keeps [] (loop 48 (fun z s => s.wr F.partPwrZone_phases z (old.rd F.partPwrZone_phases z)) t) :=
    .loop (fun _ s => s.keeps.wr) 48 t
  have clusters (old t : State) : t.Keeps [] (loop 288 (fun c s =>
      if bitAt (old.rd F.hfPwrPart_dark 0) (c / 36) then s.wr F.partPwrClu_state c 3 else s) t) :=
    .loop (fun _ s => .ite s.keeps.wr s.keeps) 288 t
  have rails (old t : State) : t.Keeps [] (old.keepRails t) :=
    (((t.keeps.wr.wr.trans (phases old _)).trans (zones old _)).trans (clusters old _)).net _ _
  exact (rails s _).trans (.ite (State.keeps _).wr (State.keeps _))

/-- `t` is the module of `s` with nothing under way: FT at 0, no queue holds a command, the pins as they are. -/
structure State.Restarts (s t : State) : Prop where
  ft : t.ft = 0
  queues : t.queues = []
  board : t.board = s.board
  up : t.up = s.up

namespace State.Restarts

variable {t u : State}

theorem cleared (s : State) (k : Bool) : s.Restarts (s.cleared k) := ⟨rfl, rfl, rfl, rfl⟩

theorem keeps {rs : List RegName} (h : s.Restarts t) (k : t.Keeps rs u) : s.Restarts u :=
  ⟨k.ft.trans h.ft, k.queues.trans h.queues, k.board.trans h.board, k.up.trans h.up⟩

/-- Flash counts a power-on. -/
theorem onCount (h : s.Restarts t) (x : Flash) (y : Nat) : s.Restarts { t with flash := x, onAt := y } := ⟨h.ft, h.queues, h.board, h.up⟩

/-- The totals that flash holds are read. -/
theorem totals (h : s.Restarts t) (x : List Nat) (y : Nat) : s.Restarts { t with lifeBase := x, secBase := y } :=
  ⟨h.ft, h.queues, h.board, h.up⟩

theorem testDue (h : s.Restarts t) (x : Bool) : s.Restarts { t with testDue := x } := ⟨h.ft, h.queues, h.board, h.up⟩

theorem ite {p : Prop} [Decidable p] (ht : s.Restarts t) (hu : s.Restarts u) : s.Restarts (if p then t else u) := by
  split
  · exact ht
  · exact hu

end State.Restarts

/-- A boot is marked as begun, and HBM has no defined content. -/
def State.bootBegun (s : State) : State :=
  { s with firstBoot := false, bootAt := s.up, mem := s.mem.forget 0 hbmEnd s.freeCtr, freeCtr := s.freeCtr + 1 }

/-- The pins sampled at the start of a boot, as HF_BOARD shows them. -/
def State.strapShow (s : State) : State :=
  (s.wr F.hfBoard_slotId 0 s.board.strap).wr F.hfBoard_recoveryStrap 0 (ofBool (!s.board.recoveryN))

theorem strapShow_keeps (s : State) : s.Keeps [] s.strapShow := s.keeps.wr.wr

/-- A boot restarts the module, after a power-on as after a module reset, and then takes its steps in order. -/
theorem boot_eq (s : State) : ∃ v : State, s.Restarts v ∧ s.boot = v.bootBegun.strapShow.applyFlash.bootRom := by
  have lost : s.Restarts s.moduleLost := (State.Restarts.cleared s true).keeps (moduleLost_keeps s)
  have base : s.Restarts (if s.firstBoot then s.cleared false else s.moduleLost) := .ite (.cleared s false) lost
  unfold State.boot
  exact ⟨_, .testDue (.ite (.totals (.ite (.onCount base _ _) base) _ _) (.ite (.onCount base _ _) base)) _, rfl⟩

theorem boot_begins (s : State) :
    s.boot.ft = 0 ∧ s.boot.queues = [] ∧ s.boot.board = s.board ∧ s.boot.firstBoot = false ∧ s.boot.bootAt = s.up := by
  obtain ⟨v, hv, hb⟩ := boot_eq s
  have k := ((strapShow_keeps v.bootBegun).trans (applyFlash_keeps _).anyRegs).trans (bootRom_keeps _)
  rw [hb]
  exact ⟨k.ft.trans hv.ft, k.queues.trans hv.queues, k.board.trans hv.board, k.firstBoot, k.bootAt.trans hv.up⟩

theorem boot_recovery (h : s.board.recoveryN = false) : s.boot.stage = 9 ∧ s.boot.rd F.hfFwStatus_recoveryCause 0 = 2 := by
  obtain ⟨v, hv, hb⟩ := boot_eq s
  have k := (strapShow_keeps v.bootBegun).trans (applyFlash_keeps _).anyRegs
  have hpin : v.bootBegun.strapShow.applyFlash.board.recoveryN = false := by rw [k.board.trans hv.board, h]
  rw [hb, bootRom_recovery hpin]
  constructor
  · exact rd_wr_same _ _ _ _ (by decide)
  · rw [rd_wr_of_reg _ _ _ _ _ _ (by decide)]
    exact rd_wr_same _ _ _ _ (by decide)

end Sys2Proof.Machine
end

section
/-! The events of a boot (R393, R482 to R486, R520, R524): one equation for each event in its turn and one out of it. -/

namespace Sys2Proof.Machine

variable {s : State}

/-! ## Management -/

theorem diesOk_of_fuses {t : State} (h : t.fuses = s.fuses) : t.diesOk = s.diesOk := by
  unfold State.diesOk; rw [h]

theorem bootTree_written (h : s.flash.topIndex < 1048576) :
    s.bootTree true = ({ s with flash := { s.flash with topIndex := s.flash.topIndex + 1 } }.wr F.hfSecState_topIndex 0 (s.flash.topIndex + 1)).wr
      F.hfSecState_bootLeaves 0 0 := by
  unfold State.bootTree State.topNext
  rw [if_neg (by omega)]
  rfl

theorem bootTree_unwritten (h : s.flash.topIndex < 1048576) : s.bootTree false = (s.hfErr 2 0).wr F.hfSecState_bootLeaves 0 32768 := by
  unfold State.bootTree State.topNext
  rw [if_neg (by omega)]
  rfl

theorem bootTree_usedUp (b : Bool) (h : 1048576 ≤ s.flash.topIndex) : s.bootTree b = s.topOut.wr F.hfSecState_bootLeaves 0 32768 := by
  unfold State.bootTree State.topNext
  rw [if_pos h]

theorem hfErr_fuses (s : State) (bit stack : Nat) : (s.hfErr bit stack).fuses = s.fuses := by
  obtain ⟨rg, h⟩ := hfErr_eq s bit stack
  rw [h]

theorem bootTree_fuses (s : State) (b : Bool) : (s.bootTree b).fuses = s.fuses := by
  rcases Nat.lt_or_ge s.flash.topIndex 1048576 with h | h
  · cases b
    · rw [bootTree_unwritten h, State.wr_fuses, hfErr_fuses]
    · rw [bootTree_written h, State.wr_fuses, State.wr_fuses]
  · rw [bootTree_usedUp _ h, State.wr_fuses, State.topOut, State.wr_fuses]

/-- The stage that the check of the dies leads to (R21, R482). -/
def State.diesShow (s : State) : State :=
  if s.diesOk then s.wr F.hfBootStatus_stage 0 4 else (s.wr F.hfBootStatus_stage 0 8).wr F.hfBootStatus_stopCause 0 1

theorem diesShow_keeps (s : State) : s.Keeps [.hfSecState, .hfErrSticky] s.diesShow := .ite s.keeps.wr s.keeps.wr.wr

theorem mgmtReady_turn (b : Bool) (hp : s.board.powered = true) (hn : s.board.perstN = true) (hs : s.stage < 4) :
    s.mgmtReady b = (s.bootTree b).diesShow := by
  unfold State.mgmtReady
  rw [if_neg (by simp [hp, hn, hs])]
  rfl

theorem mgmtReady_idle (b : Bool) (h : s.board.powered = false ∨ s.board.perstN = false ∨ 4 ≤ s.stage) : s.mgmtReady b = s := by
  unfold State.mgmtReady
  rw [if_pos (by rcases h with h | h | h <;> simp [h])]

/-! ### The per-boot tree (R520) -/

theorem bootTree_written_leaf (h : s.flash.topIndex < 1048576) :
    (s.bootTree true).flash.topIndex = s.flash.topIndex + 1 ∧ (s.bootTree true).rd F.hfSecState_bootLeaves 0 = 0 := by
  rw [bootTree_written h]
  exact ⟨by rw [State.wr_flash, State.wr_flash], rd_wr_same _ _ _ _ (by decide)⟩

theorem hfErr_bit (s : State) (bit stack : Nat) (h : bit < 64) : (s.hfErr bit stack).rd ⟨.hfErrSticky, bit, 1, .w1c, 0⟩ 0 = 1 :=
  rd_wr_same _ _ _ _ h

theorem bootTree_unwritten_err (h : s.flash.topIndex < 1048576) :
    (s.bootTree false).flash.topIndex = s.flash.topIndex ∧ (s.bootTree false).rd F.hfErrSticky_flashErr 0 = 1 := by
  rw [bootTree_unwritten h]
  refine ⟨by rw [State.wr_flash, (hfErr_keeps s 2 0).flash], ?_⟩
  rw [rd_wr_of_reg _ _ _ _ _ _ (by decide)]
  exact hfErr_bit s 2 0 (by decide)

theorem bootTree_usedUp_shown (b : Bool) (h : 1048576 ≤ s.flash.topIndex) :
    (s.bootTree b).flash.exhausted = true ∧ (s.bootTree b).rd F.hfSecState_lmsExhausted 0 = 1 := by
  rw [bootTree_usedUp b h, State.topOut]
  refine ⟨by rw [State.wr_flash, State.wr_flash], ?_⟩
  rw [rd_wr_of_bits _ _ _ _ _ _ (by decide) (.inl (by decide))]
  exact rd_wr_same _ _ _ _ (by decide)

theorem diesShow_ok (h : s.diesOk = true) : s.diesShow.stage = 4 := by
  rw [State.diesShow, if_pos h]
  exact rd_wr_same _ _ _ _ (by decide)

theorem diesShow_stopped (h : s.diesOk = false) : s.diesShow.stage = 8 ∧ s.diesShow.rd F.hfBootStatus_stopCause 0 = 1 := by
  rw [State.diesShow, if_neg (by simp [h])]
  refine ⟨?_, rd_wr_same _ _ _ _ (by decide)⟩
  rw [State.stage, rd_wr_of_bits _ _ _ _ _ _ (by decide) (.inl (by decide))]
  exact rd_wr_same _ _ _ _ (by decide)

/-! ## HBM training and the memory test -/

theorem hbmTrained_idle (ok : Bool) (h4 : s.stage ≠ 4) (h5 : s.stage ≠ 5) : s.hbmTrained ok = s := by
  simp [State.hbmTrained, h4, h5]

/-- The guard of HBM_TRAINING_DONE lets it pass. -/
theorem training_guard (h : s.stage = 4 ∨ s.stage = 5) : (s.stage != 4 && s.stage != 5) = false := by
  rcases h with h | h <;> rw [h] <;> rfl

theorem hbmTrained_failed (h : s.stage = 4 ∨ s.stage = 5) :
    s.hbmTrained false = (s.wr F.hfBootStatus_stage 0 8).wr F.hfBootStatus_stopCause 0 2 := by
  simp [State.hbmTrained, training_guard h]

theorem hbmTrained_test (h : s.stage = 4 ∨ s.stage = 5) (hd : s.testDue = true) :
    s.hbmTrained true = ((s.wr F.hfBootStatus_stage 0 6).wr F.hfBootStatus_testRun 0 (if s.quickNow.1 then 2 else 1)).wr
      F.hfBootStatus_quickRefused 0 (ofBool s.quickNow.2) := by
  simp [State.hbmTrained, training_guard h, hd]

theorem hbmTrained_ready (h : s.stage = 4 ∨ s.stage = 5) (hd : s.testDue = false) : s.hbmTrained true = s.goReady := by
  simp [State.hbmTrained, training_guard h, hd]

theorem ofBool_lt (b : Bool) : ofBool b < 2 := by cases b <;> decide

theorem hbmTrained_test_shown (h : s.stage = 4 ∨ s.stage = 5) (hd : s.testDue = true) :
    (s.hbmTrained true).stage = 6 ∧ (s.hbmTrained true).rd F.hfBootStatus_testRun 0 = (if s.quickNow.1 then 2 else 1)
    ∧ (s.hbmTrained true).rd F.hfBootStatus_quickRefused 0 = ofBool s.quickNow.2 := by
  rw [hbmTrained_test h hd]
  refine ⟨?_, ?_, ?_⟩
  · rw [State.stage, rd_wr_of_bits _ _ _ _ _ _ (by decide) (.inl (by decide)), rd_wr_of_bits _ _ _ _ _ _ (by decide) (.inl (by decide))]
    exact rd_wr_same _ _ _ _ (by decide)
  · rw [rd_wr_of_bits _ _ _ _ _ _ (by decide) (.inl (by decide)), rd_wr_same _ _ _ _ (by decide)]
    split <;> rfl
  · rw [rd_wr_same _ _ _ _ (by decide)]
    exact Nat.mod_eq_of_lt (ofBool_lt _)

theorem goReady_rd (s : State) (f : Fld) (h : f.reg = .hfBootStatus) : s.goReady.rd f 0 = s.showReady.rd f 0 := by
  unfold State.rd
  rw [h, goReady_reg]

theorem goReady_stage (s : State) : s.goReady.stage = 7 := (goReady_rd s F.hfBootStatus_stage rfl).trans (showReady_stage s)

theorem goReady_testFail (s : State) : s.goReady.rd F.hfBootStatus_testFail 0 = s.rd F.hfBootStatus_testFail 0 :=
  (goReady_rd s F.hfBootStatus_testFail rfl).trans (showReady_testFail s)

theorem goReady_load (h : s.heldLoad = true) : s.goReady.heldLoad = false ∧ s.goReady.load.isSome = true := by
  rw [goReady_held h]
  exact ⟨(loadStart_keeps _).heldLoad, loadStart_load _⟩

/-- A held load starts without a change to the repair table, to flash or to memory. -/
theorem goReady_leaves (s : State) : s.goReady.softRepair = s.softRepair ∧ s.goReady.flash = s.flash ∧ s.goReady.mem = s.mem := by
  have k := showReady_keeps s
  cases h : s.heldLoad
  · rw [goReady_free h]
    exact ⟨k.softRepair, k.flash, k.mem⟩
  · rw [goReady_held h]
    have l := loadStart_keeps { s.showReady with heldLoad := false }
    exact ⟨l.softRepair.trans k.softRepair, l.flash.trans k.flash, l.mem.trans k.mem⟩

theorem testDone_idle (r : TestResult) (h : s.stage ≠ 6) : s.testDone r = s := by
  simp [State.testDone, h]

/-- What a memory test leaves before the next stage: its record in flash, its repairs in the table, and every store zero (R486). -/
theorem testDone_eq (r : TestResult) (h : s.stage = 6) : ∃ u : State, s.testDone r = u.goReady
    ∧ u.rd F.hfBootStatus_testFail 0 = ofBool (!r.left.isEmpty)
    ∧ u.softRepair = s.softRepair ++ (r.cm ++ r.sm ++ r.hbm).map (fun x => (x, 1))
    ∧ u.flash.test.left = r.left.length
    ∧ u.flash.fullAt = (if s.rd F.hfBootStatus_testRun 0 = 1 ∧ r.left = [] then some s.onSecs else s.flash.fullAt)
    ∧ u.mem = { lines := s.mem.lines } ∧ u.heldLoad = s.heldLoad := by
  have tested (t : State) : t.Keeps [.hfBootStatus] (r.left.foldl (fun s r => s.spareOut r) t.repairShow).bootTestShow :=
    ((repairShow_keeps t).trans (spareOuts_keeps _ _)).trans (bootTestShow_keeps _)
  unfold State.testDone
  rw [if_neg (by simp [h])]
  refine ⟨_, rfl, ?_, (tested _).softRepair, ?_, ?_, (tested _).mem, (tested _).heldLoad⟩
  · rw [(tested _).rd, rd_wr_of_bits _ _ _ _ _ _ (by decide) (.inl (by decide)), rd_wr_same _ _ _ _ (by decide)]
    exact Nat.mod_eq_of_lt (ofBool_lt _)
  · rw [(tested _).flash]; rfl
  · rw [(tested _).flash]
    exact ite_congr (by simp) (fun _ => rfl) (fun _ => rfl)

/-! ## The events -/

theorem perstLow_eq (s : State) : s.perstLow = if !s.board.pgood || s.firstBoot || s.tooHot then { s with board := { s.board with perstN := false } }
    else ({ s with board := { s.board with perstN := false } } : State).moduleLost := rfl

theorem perstHigh_idle (straps : Nat) (r : Bool) (h : s.board.perstN = true ∨ s.board.pgood = false) : s.perstHigh straps r = s := by
  unfold State.perstHigh
  rw [if_pos (by rcases h with h | h <;> simp [h])]

/-- The pins as PERST_N's release samples them. -/
def State.pinsSampled (s : State) (straps : Nat) (r : Bool) : State :=
  { s with board := { s.board with perstN := true, strap := straps, recoveryN := r } }

theorem perstHigh_turn (straps : Nat) (r : Bool) (hn : s.board.perstN = false) (hg : s.board.pgood = true) :
    s.perstHigh straps r = if s.tooHot then s.pinsSampled straps r else (s.pinsSampled straps r).boot := by
  unfold State.perstHigh
  rw [if_neg (by simp [hn, hg])]
  rfl

/-- The link stays as it is where it did not train, and without power, in PERST_N and in recovery (R393). -/
def State.linkIdle (s : State) (rate width : Fin 4) : Prop :=
  rate.val = 0 ∨ width.val = 3 ∨ s.board.powered = false ∨ s.board.perstN = false ∨ s.stage = 9

theorem exec_cxlLinkTrainingDone_idle (rate width : Fin 4) (lopt : Bool) (h : s.linkIdle rate width) :
    exec (.cxlLinkTrainingDone rate width lopt) s = .next (settle s) := by
  have guard : (rate.val == 0 || width.val == 3 || !s.board.powered || !s.board.perstN || s.stage == 9) = true := by
    rcases h with h | h | h | h | h <;> simp [h]
  exact congrArg finish (if_pos guard)

theorem exec_cxlLinkTrainingDone_up (rate width : Fin 4) (lopt : Bool) (h : ¬ s.linkIdle rate width) :
    exec (.cxlLinkTrainingDone rate width lopt) s
      = .next (settle (((s.wr F.hfHostLink_rate 0 rate.val).wr F.hfHostLink_width 0 width.val).wr F.hfHostLink_lopt 0 (ofBool lopt))) := by
  have guard : ¬ (rate.val == 0 || width.val == 3 || !s.board.powered || !s.board.perstN || s.stage == 9) = true := by
    simpa [State.linkIdle, or_assoc] using h
  exact congrArg finish (if_neg guard)

theorem exec_perstAssert (s : State) : exec .perstAssert s = .next (settle s.perstLow) := rfl
theorem exec_perstRelease (straps : Fin 16) (r : Bool) (s : State) :
    exec (.perstRelease straps r) s = .next (settle (s.perstHigh straps.val r)) := rfl
theorem exec_managementReady (flashOk : Bool) (s : State) : exec (.managementReady flashOk) s = .next (settle (s.mgmtReady flashOk)) := rfl
theorem exec_hbmTrainingDone (ok : Bool) (s : State) : exec (.hbmTrainingDone ok) s = .next (settle (s.hbmTrained ok)) := rfl
theorem exec_memoryTestDone (r : TestResult) (s : State) : exec (.memoryTestDone r) s = .next (settle (s.testDone r)) := rfl

theorem settle_stage (s : State) : (settle s).stage = s.stage := settle_rd s F.hfBootStatus_stage 0 (by decide)

end Sys2Proof.Machine
end

section
/-! The statement of the boot (O60). -/

namespace Sys2Proof.Machine

variable {s : State}

theorem settle_perstN (s : State) : (settle s).board.perstN = s.board.perstN := by simp only [settle, State.setReg_board]
theorem settle_strap (s : State) : (settle s).board.strap = s.board.strap := by simp only [settle, State.setReg_board]

/-- PERST_N's release starts a module that is not too hot (R21, R502, R524). -/
theorem perstRelease_starts (straps : Fin 16) (r : Bool) (hn : s.board.perstN = false) (hg : s.board.pgood = true) (hh : s.tooHot = false) :
    ∃ t, exec (.perstRelease straps r) s = .next t ∧ t.ft = 0 ∧ t.board.perstN = true ∧ t.board.strap = straps.val
      ∧ t.firstBoot = false ∧ t.bootAt = s.up ∧ t.queues = []
      ∧ (r = false → t.stage = 9 ∧ t.rd F.hfFwStatus_recoveryCause 0 = 2) := by
  obtain ⟨hft, hq, hb, hfirst, hat⟩ := boot_begins (s.pinsSampled straps.val r)
  refine ⟨settle (s.pinsSampled straps.val r).boot, ?_, ?_, ?_, ?_, ?_, ?_, ?_, fun hr => ?_⟩
  · rw [exec_perstRelease, perstHigh_turn _ _ hn hg, if_neg (by simp [hh])]
  · rw [settle_ft, hft]
  · rw [settle_perstN, hb]; rfl
  · rw [settle_strap, hb]; rfl
  · rw [settle_firstBoot, hfirst]
  · rw [settle_bootAt, hat]; rfl
  · rw [settle_queues, hq]
  · obtain ⟨hstage, hcause⟩ := boot_recovery (s := s.pinsSampled straps.val r) hr
    exact ⟨(settle_stage _).trans hstage, (settle_rd _ F.hfFwStatus_recoveryCause 0 (by decide)).trans hcause⟩

/-- The check of the dies leaves what the per-boot tree's step showed. -/
theorem settle_diesShow_rd (s : State) (f : Fld) (h : f.reg ∈ [RegName.hfSecState, .hfErrSticky]) :
    (settle s.diesShow).rd f 0 = s.rd f 0 := by
  have hboard : RegName.hfBoard ∉ [RegName.hfSecState, .hfErrSticky] := by decide
  rw [settle_rd _ _ _ (ne_of_mem_of_not_mem h hboard), (diesShow_keeps s).rd 0 h]

theorem settle_diesShow_flash (s : State) : (settle s.diesShow).flash = s.flash := (settle_flash _).trans (diesShow_keeps s).flash

/-- Management leads on to HBM training or to STOPPED, with the per-boot tree as far as the top tree and flash give one (R21, R482, R520). -/
theorem managementReady_leads (b : Bool) (hp : s.board.powered = true) (hn : s.board.perstN = true) (hs : s.stage < 4) :
    ∃ t, exec (.managementReady b) s = .next t
      ∧ (s.diesOk = true → t.stage = 4)
      ∧ (s.diesOk = false → t.stage = 8 ∧ t.rd F.hfBootStatus_stopCause 0 = 1)
      ∧ (s.flash.topIndex < 1048576 → b = true → t.flash.topIndex = s.flash.topIndex + 1 ∧ t.rd F.hfSecState_bootLeaves 0 = 0)
      ∧ (s.flash.topIndex < 1048576 → b = false → t.flash.topIndex = s.flash.topIndex ∧ t.rd F.hfErrSticky_flashErr 0 = 1)
      ∧ (1048576 ≤ s.flash.topIndex → t.flash.exhausted = true ∧ t.rd F.hfSecState_lmsExhausted 0 = 1) := by
  have hdies := diesOk_of_fuses (bootTree_fuses s b)
  have hflash := settle_diesShow_flash (s.bootTree b)
  have shown := settle_diesShow_rd (s.bootTree b)
  refine ⟨settle (s.bootTree b).diesShow, ?_, fun hd => ?_, fun hd => ?_, fun hi hb => ?_, fun hi hb => ?_, fun hi => ?_⟩
  · rw [exec_managementReady, mgmtReady_turn b hp hn hs]
  · rw [settle_stage, diesShow_ok (hdies.trans hd)]
  · obtain ⟨hstage, hcause⟩ := diesShow_stopped (hdies.trans hd)
    exact ⟨(settle_stage _).trans hstage, (settle_rd _ F.hfBootStatus_stopCause 0 (by decide)).trans hcause⟩
  · rw [hflash, shown F.hfSecState_bootLeaves (by decide), hb]
    exact bootTree_written_leaf hi
  · rw [hflash, shown F.hfErrSticky_flashErr (by decide), hb]
    exact bootTree_unwritten_err hi
  · rw [hflash, shown F.hfSecState_lmsExhausted (by decide)]
    exact bootTree_usedUp_shown b hi

/-- A memory test of a power-on begins (R485). -/
theorem hbmTrainingDone_tests (hs : s.stage = 4 ∨ s.stage = 5) (hd : s.testDue = true) :
    ∃ t, exec (.hbmTrainingDone true) s = .next t ∧ t.stage = 6
      ∧ t.rd F.hfBootStatus_testRun 0 = (if s.quickNow.1 then 2 else 1)
      ∧ t.rd F.hfBootStatus_quickRefused 0 = ofBool s.quickNow.2 := by
  obtain ⟨hstage, hrun, hrefused⟩ := hbmTrained_test_shown hs hd
  exact ⟨_, exec_hbmTrainingDone true s, (settle_stage _).trans hstage, (settle_rd _ F.hfBootStatus_testRun 0 (by decide)).trans hrun,
    (settle_rd _ F.hfBootStatus_quickRefused 0 (by decide)).trans hrefused⟩

/-- READY starts a held load (R483). -/
theorem hbmTrainingDone_loads (hs : s.stage = 4 ∨ s.stage = 5) (hd : s.testDue = false) (hl : s.heldLoad = true) :
    ∃ t, exec (.hbmTrainingDone true) s = .next t ∧ t.stage = 7 ∧ t.heldLoad = false ∧ t.load.isSome = true := by
  refine ⟨settle s.goReady, ?_, ?_, ?_⟩
  · rw [exec_hbmTrainingDone, hbmTrained_ready hs hd]
  · rw [settle_stage, goReady_stage]
  · rw [settle_heldLoad, settle_load]
    exact goReady_load hl

/-- The memory test leads on to READY, with its record, its repairs and zero stores (R486). -/
theorem memoryTestDone_leads (r : TestResult) (h : s.stage = 6) :
    ∃ t, exec (.memoryTestDone r) s = .next t ∧ t.stage = 7
      ∧ t.rd F.hfBootStatus_testFail 0 = ofBool (!r.left.isEmpty)
      ∧ t.softRepair = s.softRepair ++ (r.cm ++ r.sm ++ r.hbm).map (fun x => (x, 1))
      ∧ t.flash.test.left = r.left.length
      ∧ t.flash.fullAt = (if s.rd F.hfBootStatus_testRun 0 = 1 ∧ r.left = [] then some s.onSecs else s.flash.fullAt)
      ∧ (s.heldLoad = false → t.mem = { lines := s.mem.lines })
      ∧ (s.heldLoad = true → t.heldLoad = false ∧ t.load.isSome = true) := by
  obtain ⟨u, hu, hfail, hrepair, hleft, hfull, hmem, hheld⟩ := testDone_eq r h
  obtain ⟨krepair, kflash, kmem⟩ := goReady_leaves u
  refine ⟨settle u.goReady, ?_, ?_, ?_, ?_, ?_, ?_, fun _ => ?_, fun hl => ?_⟩
  · rw [exec_memoryTestDone, hu]
  · rw [settle_stage, goReady_stage]
  · rw [settle_rd _ F.hfBootStatus_testFail 0 (by decide), goReady_testFail, hfail]
  · rw [settle_softRepair, krepair, hrepair]
  · rw [settle_flash, kflash, hleft]
  · rw [settle_flash, kflash, hfull]
  · rw [settle_mem, kmem, hmem]
  · rw [settle_heldLoad, settle_load]
    exact goReady_load (hheld.trans hl)

/-- Settles O60, event by event: each has one equation where its turn has come and one where it has not. -/
theorem bootEventsComplete : Obligations.BootEventsComplete := by
  refine ⟨fun s => ⟨fun hg hf hh => ?_, fun h => ?_⟩,
    fun straps r s => ⟨fun h => ?_, fun hn hg hh => ?_, perstRelease_starts straps r⟩,
    fun b s => ⟨fun h => ?_, managementReady_leads b⟩,
    fun ok s => ⟨fun h4 h5 => ?_, fun hs => ⟨?_, hbmTrainingDone_tests hs, fun hd hl => ?_, hbmTrainingDone_loads hs⟩⟩,
    fun r s => ⟨fun h => ?_, memoryTestDone_leads r⟩,
    fun rate width lopt s => ⟨exec_cxlLinkTrainingDone_idle rate width lopt, fun h1 h2 h3 h4 h5 => ?_⟩⟩
  · rw [exec_perstAssert, perstLow_eq, if_neg (by simp [hg, hf, hh])]
  · rw [exec_perstAssert, perstLow_eq, if_pos (by rcases h with h | h | h <;> simp [h])]
  · rw [exec_perstRelease, perstHigh_idle _ _ h]
  · rw [exec_perstRelease, perstHigh_turn _ _ hn hg, if_pos hh, State.pinsSampled]
  · rw [exec_managementReady, mgmtReady_idle b h]
  · rw [exec_hbmTrainingDone, hbmTrained_idle ok h4 h5]
  · rw [exec_hbmTrainingDone, hbmTrained_failed hs]
  · rw [exec_hbmTrainingDone, hbmTrained_ready hs hd, goReady_free hl, State.showReady]
  · rw [exec_memoryTestDone, testDone_idle r h]
  · exact exec_cxlLinkTrainingDone_up rate width lopt (by simp [State.linkIdle, h1, h2, h3, h4, h5])

end Sys2Proof.Machine
end

section
/-! Arithmetic counters of a core (Tables 2-7 to 2-10, R61): what recording an operation's counts leaves of each counter, and that it
touches registers alone. -/

namespace Sys2Proof.Machine

variable {s : State} {g : Nat} {f k : Fld}

/-! ## One counter, one flag -/

/-- A counter advanced by what was counted, nothing included, stops at all ones. -/
theorem rd_count_same (s : State) (g n : Nat) (hf : f.lo + f.len ≤ 64) : (s.count g f n).rd f g = min (s.rd f g + n) (2 ^ f.len - 1) := by
  unfold State.count
  split
  · next hn =>
    have := rd_lt s f g
    rw [beq_iff_eq.1 hn]
    omega
  · exact rd_inc s f g n hf

theorem rd_count_of_reg (s : State) (g n : Nat) (h : k.reg ≠ f.reg) : (s.count g f n).rd k g = s.rd k g := by
  unfold State.count
  split
  · rfl
  · exact rd_wr_of_reg s f k g g _ h

theorem rd_count_of_bits (s : State) (g n : Nat) (hf : f.lo + f.len ≤ 64) (h : k.apart f) : (s.count g f n).rd k g = s.rd k g := by
  unfold State.count
  split
  · rfl
  · exact rd_wr_of_bits s f k g g _ hf h

theorem rd_arithBit (hk : k.reg ≠ .coreArithSticky) (s : State) (g : Nat) (on : Bool) (hf : f.reg = .coreArithSticky) :
    (s.arithBit g f on).rd k g = s.rd k g := by
  unfold State.arithBit
  split
  · exact rd_wr_of_reg s f k g g 1 (hf ▸ hk)
  · rfl

theorem onlyRegs_count {t : State} (h : ∃ rg, t = { s with regs := rg }) (g : Nat) (f : Fld) (n : Nat) :
    ∃ rg, t.count g f n = { s with regs := rg } := by
  unfold State.count
  split
  · exact h
  · exact onlyRegs_wr h f g _

theorem onlyRegs_arithBit {t : State} (h : ∃ rg, t = { s with regs := rg }) (g : Nat) (f : Fld) (on : Bool) :
    ∃ rg, t.arithBit g f on = { s with regs := rg } := by
  unfold State.arithBit
  split
  · exact onlyRegs_wr h f g 1
  · exact h

/-! ## All counts of an operation -/

/-- The six counters advanced, before the sticky flags of their events. -/
def State.countAll (s : State) (g : Nat) (c : Counts) : State :=
  (((((s.count g F.coreArithFtz_mmFtz c.mmFtz).count g F.coreArithFtz_updFtz c.updFtz).count g F.coreArithConv_convSat c.sat).count g
    F.coreArithConv_nanLost c.lost).count g F.coreArithQuant_zeroBlocks c.zeroBlocks).count g F.coreArithQuant_vanishedElems c.vanished

/-- The flags are all in CORE_ARITH_STICKY: a field elsewhere reads what the counters left. -/
theorem rd_counts (s : State) (g : Nat) (c : Counts) (hk : k.reg ≠ .coreArithSticky) : (s.counts g c).rd k g = (s.countAll g c).rd k g := by
  unfold State.counts State.countAll
  simp (disch := decide) only [rd_arithBit hk]

/-- What an operation counted changes registers alone. -/
theorem counts_eq (s : State) (g : Nat) (c : Counts) : ∃ rg, s.counts g c = { s with regs := rg } := by
  unfold State.counts
  iterate 10 refine onlyRegs_arithBit ?_ _ _ _
  iterate 6 refine onlyRegs_count ?_ _ _ _
  exact onlyRegs_refl s

/-- Each counter of a core after an operation's counts. -/
theorem counts_saturate (s : State) (g : Nat) (c : Counts) :
    (s.counts g c).rd F.coreArithFtz_mmFtz g = min (s.rd F.coreArithFtz_mmFtz g + c.mmFtz) 0xFFFFFFFF
    ∧ (s.counts g c).rd F.coreArithFtz_updFtz g = min (s.rd F.coreArithFtz_updFtz g + c.updFtz) 0xFFFFFFFF
    ∧ (s.counts g c).rd F.coreArithConv_convSat g = min (s.rd F.coreArithConv_convSat g + c.sat) 0xFFFFFFFF
    ∧ (s.counts g c).rd F.coreArithConv_nanLost g = min (s.rd F.coreArithConv_nanLost g + c.lost) 0xFFFFFFFF
    ∧ (s.counts g c).rd F.coreArithQuant_zeroBlocks g = min (s.rd F.coreArithQuant_zeroBlocks g + c.zeroBlocks) 0xFFFFFFFF
    ∧ (s.counts g c).rd F.coreArithQuant_vanishedElems g = min (s.rd F.coreArithQuant_vanishedElems g + c.vanished) 0xFFFFFFFF := by
  refine ⟨?_, ?_, ?_, ?_, ?_, ?_⟩ <;> rw [rd_counts s g c (by decide), State.countAll]
  all_goals
    simp (disch := decide) only [rd_count_of_reg, rd_count_of_bits, rd_count_same]
    rfl

end Sys2Proof.Machine
end

section
/-! The statement on the arithmetic counters (O6): registers of two counters, read and cleared together (R61). -/

namespace Sys2Proof.Machine

/-! ## Reading two counters -/

/-- The registers that hold two saturating counters, the low one first. -/
def counterPairs : List (RegName × Fld × Fld) :=
  [(.coreArithFtz, F.coreArithFtz_mmFtz, F.coreArithFtz_updFtz),
   (.coreArithQuant, F.coreArithQuant_zeroBlocks, F.coreArithQuant_vanishedElems),
   (.coreArithConv, F.coreArithConv_convSat, F.coreArithConv_nanLost)]

/-- A register of two counters is made of them: its halves, each cleared by a read. -/
theorem counterPairs_shape : ∀ e ∈ counterPairs, e.1.flds = [e.2.1, e.2.2] ∧ e.1 ≠ .hfBoard ∧ e.1 ≠ .hfFt
    ∧ (e.2.1.reg = e.1 ∧ e.2.1.lo = 0 ∧ e.2.1.len = 32 ∧ e.2.1.acc = .rc)
    ∧ (e.2.2.reg = e.1 ∧ e.2.2.lo = 32 ∧ e.2.2.len = 32 ∧ e.2.2.acc = .rc) := by decide

/-- A 64-bit number is its two halves. -/
theorem halves_of_lt {w : Nat} (h : w < 2 ^ 64) : w = bits w 0 32 + bits w 32 32 * 2 ^ 32 := by
  simp only [bits, Nat.shiftRight_eq_div_pow]
  omega

theorem bits_mod_word {lo len : Nat} (h : lo + len ≤ 64) (w : Nat) : bits (w % 2 ^ 64) lo len = bits w lo len := by
  apply Nat.eq_of_testBit_eq
  intro i
  simp only [testBit_bits, Nat.testBit_mod_two_pow]
  by_cases hi : i < len
  · simp [show lo + i < 64 by omega]
  · simp [hi]

/-- A read of two counters answers with both and leaves both 0. -/
theorem readCounters {e : RegName × Fld × Fld} (he : e ∈ counterPairs) (s : State) (i : Nat) :
    s.regRead e.1 i = s.rd e.2.1 i + s.rd e.2.2 i * 2 ^ 32
    ∧ bits (afterRead e.1 (s.reg e.1 i)) e.2.1.lo e.2.1.len = 0 ∧ bits (afterRead e.1 (s.reg e.1 i)) e.2.2.lo e.2.2.len = 0 := by
  obtain ⟨hflds, -, hft, ⟨har, hal, han, haa⟩, hbr, hbl, hbn, hba⟩ := counterPairs_shape e he
  refine ⟨?_, ?_, ?_⟩
  · have hread : softRead e.1 (s.reg e.1 i) = s.reg e.1 i := by simp [softRead, hflds, haa, hba]
    rw [State.regRead, if_neg (by simpa using hft), hread, State.rd, State.rd, har, hal, han, hbr, hbl, hbn]
    exact halves_of_lt (reg_lt s e.1 i)
  · rw [bits_afterRead (by simp [hflds]), if_pos haa]
  · rw [bits_afterRead (by simp [hflds]), if_pos hba]

/-- A REGISTER_RC_READ of two counters that answers (R61). -/
theorem exec_registerRcRead_counters {f : Func} {off i : Nat} {r : RegName} {a b : Fld} (s : State) (hw : breaksR7 off 8 = false)
    (hr : regAt off = some (r, i)) (hg : s.gate f r i false = .ok) (he : (r, a, b) ∈ counterPairs) :
    ∃ t, exec (.registerRcRead f off 8) s = .next t ∧ t.rd a i = 0 ∧ t.rd b i = 0
      ∧ t.reply = some (.data (leBytes 8 (s.rd a i + s.rd b i * 2 ^ 32))) ∧ t.mem = s.mem
      ∧ ∀ r' i', (r' ≠ r ∨ i' ≠ i) → r' ≠ .hfBoard → t.reg r' i' = s.reg r' i' := by
  obtain ⟨-, hboard, -, ⟨har, hal, han, -⟩, hbr, hbl, hbn, -⟩ := counterPairs_shape _ he
  obtain ⟨hread, ha, hb⟩ := readCounters he s i
  refine ⟨_, exec_registerRcRead_ok hw hr hg, ?_, ?_, ?_, by simp [State.answer], fun r' i' hne hb' => settle_setReg_ne _ _ hne hb'⟩
  · rw [State.rd, har, settle_setReg_same _ _ _ hboard, bits_mod_word (by dsimp only at hal han; omega), ha]
  · rw [State.rd, hbr, settle_setReg_same _ _ _ hboard, bits_mod_word (by dsimp only at hbl hbn; omega), hb]
  · rw [← hread]
    simp [State.answer]

/-- Settles O6: the counters lie apart from each other and from the sticky flags, and a register of two counters is its two halves. -/
theorem countersSaturate : Obligations.CountersSaturate :=
  ⟨counts_saturate, fun _ _ _ _ _ _ s hw hr hg he => exec_registerRcRead_counters s hw hr hg he⟩

end Sys2Proof.Machine
end

section
/-! What a vector instruction leaves: from the row of an instruction to its effect in the issued state, results into masks, and the words
that a fold of lane writes leaves (R92, R93, R130, R133). -/

namespace Sys2Proof.Machine

variable {s : State} {g n w : Nat} {op : VOp} {q : Gang} {la : Launch} {l : ILine} {c : Instr}

/-! ## From the row to its effect -/

/-- An instruction that issues has its effect in the issued state. -/
theorem exec_issues {eff : VecEff} (hc : exec c s = finish (s.vecStep g n op eff)) (h : Issues s g n op w q la l) :
    exec c s = .next (settle (eff w q la (s.issued g la l (q.errsRead op w).length))) := by
  rw [hc, finish_eq, vecStep_issues h]

/-- A lane-wise instruction that issues has its result. -/
theorem exec_laneResult {F : Nat → Gang → Nat → Nat} {f : Nat → Nat} (hc : exec c s = finish (s.vecMap g n op F))
    (h : Issues s g n op w q la l) (hf : F w q = f) : ∃ t, exec c s = .next t ∧ LaneResult s t g n w q (vWide (vType w)) f :=
  ⟨_, hc, hf ▸ vecMap_result h F⟩

/-! ## Masks -/

theorem Gang.mask_setMask_same (q : Gang) {r : Nat} (hr : r ≠ 0) (x : Nat) : (q.setMask r x).mask r = x % 2 ^ 16 := by
  simp [Gang.setMask, Gang.mask, hr]

/-- Every other mask stands, and so does m0 (R93). -/
theorem Gang.mask_setMask_ne (q : Gang) {r k : Nat} (x : Nat) (h : k ≠ r ∨ k = 0) : (q.setMask r x).mask k = q.mask k := by
  unfold Gang.setMask Gang.mask
  by_cases hr : r = 0
  · simp [hr]
  · by_cases hk : k = 0
    · simp [hk]
    · simp [hr, hk, mgetD_mputD_ne _ _ _ _ (h.resolve_right hk)]

/-- Writing a mask leaves every other part of the gang. -/
theorem Gang.setMask_leaves (q : Gang) (r x : Nat) :
    (q.setMask r x).pc = q.pc ∧ (q.setMask r x).emask = q.emask ∧ (q.setMask r x).stack = q.stack ∧ (q.setMask r x).launch = q.launch
    ∧ (q.setMask r x).v = q.v ∧ (q.setMask r x).sr = q.sr := by
  unfold Gang.setMask
  split <;> exact ⟨rfl, rfl, rfl, rfl, rfl, rfl⟩

/-- Bits put one by one: each listed bit is its value, every other stands. -/
theorem bitAt_foldl_putBits (f : Nat → Bool) (ls : List Nat) (m k : Nat) :
    bitAt (ls.foldl (fun m l => putBits m l 1 (ofBool (f l))) m) k = if k ∈ ls then f k else bitAt m k := by
  induction ls generalizing m with
  | nil => rfl
  | cons a t ih =>
    rw [List.foldl_cons, ih]
    by_cases hk : k ∈ t
    · simp [hk]
    · have hput : bitAt (putBits m a 1 (ofBool (f a))) k = if k = a then f a else bitAt m k := by
        unfold bitAt
        rw [testBit_putBits]
        by_cases ha : k = a
        · rw [if_pos (by omega), if_pos ha, ha, Nat.sub_self]
          cases f a <;> rfl
        · rw [if_neg (by omega), if_neg ha]
      rw [if_neg hk, hput]
      by_cases ha : k = a
      · simp [ha]
      · simp [ha, hk]

/-- A comparison that issues has its result. -/
theorem exec_maskResult {F : Nat → Gang → Nat → Bool} {f : Nat → Bool}
    (hc : exec c s = finish (s.vecStep g n op (fun w q _ s => s.advance g n (laneMask q w (F w q))))) (h : Issues s g n op w q la l)
    (hf : F w q = f) : ∃ t, exec c s = .next t ∧ MaskResult s t g n w q f := by
  subst hf
  obtain ⟨hpc, hem, hst, hla, hv, hsr⟩ := q.setMask_leaves (vD w)
    ((q.lanes w).foldl (fun m l => putBits m l 1 (ofBool (F w q l))) (q.mask (vD w)))
  obtain ⟨hframe, hgang⟩ := vecFrame_setGang s g n la l (q.errsRead op w).length
    { laneMask q w (F w q) with pc := (laneMask q w (F w q)).pc + 1, wait := .run }
  refine ⟨_, exec_issues hc h, hframe, _, hgang, ⟨congrArg (· + 1) hpc, hem, hst, rfl, hla⟩, hv, hsr, fun hd k hk => ?_,
    fun r hr => Gang.mask_setMask_ne q _ hr⟩
  have hbit : bitAt ((laneMask q w (F w q)).mask (vD w)) k = if k ∈ q.lanes w then F w q k else bitAt (q.mask (vD w)) k := by
    rw [laneMask, Gang.mask_setMask_same q hd, ← bitAt_foldl_putBits, bitAt, Nat.testBit_mod_two_pow]
    simp [bitAt, hk]
  refine hbit.trans ?_
  simp [mem_lanes, hk]

end Sys2Proof.Machine
end

section
/-! The statements on vector arithmetic: floating point (O19) and special functions (O21). -/

namespace Sys2Proof.Machine

/-- Settles O19, instruction by instruction: each maps the active lanes, and fcmp writes their bits of a mask. -/
theorem vectorFloatResults : Obligations.VectorFloatResults := by
  refine ⟨?_, ?_, ?_, ?_, ?_, ?_, ?_, ?_⟩ <;> intro g n s w q la l h
  case refine_8 => exact exec_maskResult rfl h rfl
  all_goals exact exec_laneResult rfl h rfl

/-- Settles O21: each special function maps the active lanes. -/
theorem specialFunctionResults : Obligations.SpecialFunctionResults := by
  refine ⟨?_, ?_, ?_, ?_, ?_, ?_⟩ <;> intro g n s w q la l h <;> exact exec_laneResult rfl h rfl

end Sys2Proof.Machine
end

section
/-! The words that mxpack leaves in a gang: packed elements, residuals and the scale (R139, R140). -/

namespace Sys2Proof.Machine

variable {w : Nat} {q : Gang}

/-! ## The words of a fold of lane writes -/

theorem lanes_lt (q : Gang) (w : Nat) : ∀ l ∈ q.lanes w, l < 16 := fun l hl => ((mem_lanes q w l).1 hl).1

/-- The words a lane write leaves in its register, or its pair. -/
theorem Gang.vr_vwrite_same (q : Gang) (wide : Bool) (r l x : Nat) (hl : l < 16) :
    (q.vwrite wide r l x).vr r l = x % 2 ^ 32 ∧ (wide = true → (q.vwrite wide r l x).vr (r + 1) l = x / 2 ^ 32 % 2 ^ 32) := by
  cases wide <;> simp [Gang.vwrite, Gang.vr_setVr _ _ _ _ _ _ hl hl]

/-- Each lane written holds the words of its value. -/
theorem vr_foldl_vwrite (wide : Bool) (d : Nat) (f : Nat → Nat) (ls : List Nat) (hls : ∀ l ∈ ls, l < 16) (hn : ls.Nodup) (q : Gang)
    {k : Nat} (hk : k ∈ ls) :
    (ls.foldl (fun r l => r.vwrite wide d l (f l)) q).vr d k = f k % 2 ^ 32
    ∧ (wide = true → (ls.foldl (fun r l => r.vwrite wide d l (f l)) q).vr (d + 1) k = f k / 2 ^ 32 % 2 ^ 32) := by
  induction ls generalizing q with
  | nil => cases hk
  | cons a t ih =>
    obtain ⟨hat, hnt⟩ := List.nodup_cons.1 hn
    have ht : ∀ l ∈ t, l < 16 := fun l hl => hls l (List.mem_cons_of_mem _ hl)
    rw [List.foldl_cons]
    rcases List.mem_cons.1 hk with rfl | hk
    · have hk16 : k < 16 := hls k (List.mem_cons_self ..)
      obtain ⟨-, -, -, -, -, -, -, hleft⟩ := laneFold wide d f t ht hnt (q.vwrite wide d k (f k))
      rw [hleft d k hk16 (.inl hat), hleft (d + 1) k hk16 (.inl hat)]
      exact Gang.vr_vwrite_same q wide d k (f k) hk16
    · exact ih ht hnt _ hk

/-- Two words written to a pair one by one are one wide write. -/
theorem Gang.setVr_pair (q : Gang) (r l a b : Nat) : (q.setVr r l a).setVr (r + 1) l b = q.vwrite true r l (a % 2 ^ 32 + b * 2 ^ 32) := by
  have hlo : (a % 2 ^ 32 + b * 2 ^ 32) % 2 ^ 32 = a % 2 ^ 32 := by omega
  have hhi : (a % 2 ^ 32 + b * 2 ^ 32) / 2 ^ 32 = b := by omega
  simp only [Gang.vwrite, Gang.setVr, hlo, hhi, if_true]

/-- A lane map leaves each active lane its words. -/
theorem vr_laneMap (q : Gang) (w : Nat) (wide : Bool) (f : Nat → Nat) {k : Nat} (hk : k ∈ q.lanes w) :
    (laneMap q w wide f).vr (vD w) k = f k % 2 ^ 32 :=
  (vr_foldl_vwrite wide (vD w) f (q.lanes w) (lanes_lt q w) (nodup_lanes q w) q hk).1

/-! ## mxpack -/

/-- The block that mxpack makes of its inputs. -/
def Gang.mxBlock (q : Gang) (w : Nat) : MxBlock := (mxOf (bits w 60 4)).quantise (q.mxInputs w)

/-- The two elements of a lane, packed. -/
def Gang.mxPair (q : Gang) (w l : Nat) : Nat :=
  (q.mxBlock w).q.getD (2 * l) 0 + (q.mxBlock w).q.getD (2 * l + 1) 0 * 2 ^ (if mxOf (bits w 60 4) == .e2m1 then 4 else 8)

/-- The residual of input `i`. -/
def Gang.mxResidual (q : Gang) (w i : Nat) : Nat :=
  if (q.mxBlock w).scale == 255 then Fmt.fp32.nanBits
  else Fmt.fp32.ieee (FVal.sub ((q.mxInputs w).getD i .zero) ((mxOf (bits w 60 4)).value (q.mxBlock w).scale ((q.mxBlock w).q.getD i 0)))

/-- The residuals of the active lanes, written to a gang `r`. -/
def Gang.putResiduals (q : Gang) (w : Nat) (r : Gang) : Gang :=
  (q.lanes w).foldl (fun r l => (r.setVr (vB w) l (q.mxResidual w (2 * l))).setVr (vB w + 1) l (q.mxResidual w (2 * l + 1))) r

/-- The vector registers that mxpack leaves: packed elements, then the residuals over them. -/
def Gang.mxWords (q : Gang) (w : Nat) : Gang :=
  if bitAt w 59 then q.putResiduals w (laneMap q w false (q.mxPair w)) else laneMap q w false (q.mxPair w)

/-- An mxpack that issues, with what it counted unless `comp` is set. -/
theorem exec_vMxpack {s : State} {g : CoreId} {n : GangId} {la : Launch} {l : ILine} (h : Issues s g n .mxpack w q la l) :
    exec (.vMxpack g n) s = .next (settle
      ((if bitAt w 58 then s.issued g la l (q.errsRead .mxpack w).length
        else (s.issued g la l (q.errsRead .mxpack w).length).counts g
          { zeroBlocks := (q.mxBlock w).zeroBlocks, vanished := (q.mxBlock w).vanished }).advance g n
        ((q.mxWords w).setSreg (vC w) (q.mxBlock w).scale))) :=
  (exec_issues (c := .vMxpack g n) rfl h).trans rfl

/-- The residuals of a lane, as the value of a pair. -/
def Gang.mxResidualPair (q : Gang) (w l : Nat) : Nat := q.mxResidual w (2 * l) % 2 ^ 32 + q.mxResidual w (2 * l + 1) * 2 ^ 32

theorem putResiduals_eq (q : Gang) (w : Nat) (r : Gang) :
    q.putResiduals w r = (q.lanes w).foldl (fun r l => r.vwrite true (vB w) l (q.mxResidualPair w l)) r := by
  simp only [Gang.putResiduals, Gang.setVr_pair, Gang.mxResidualPair]

/-- Every residual stands in its word of the pair. -/
theorem vr_putResiduals (q : Gang) (w : Nat) (r : Gang) {k e : Nat} (hk : k ∈ q.lanes w) (he : e < 2) :
    (q.putResiduals w r).vr (vB w + e) k = q.mxResidual w (2 * k + e) % 2 ^ 32 := by
  obtain ⟨hlo, hhi⟩ := vr_foldl_vwrite true (vB w) (q.mxResidualPair w) (q.lanes w) (lanes_lt q w) (nodup_lanes q w) r hk
  rw [putResiduals_eq]
  unfold Gang.mxResidualPair at hlo hhi
  match e, he with
  | 0, _ =>
    simp only [Nat.add_zero]
    exact hlo.trans (by omega)
  | 1, _ => exact (hhi rfl).trans (by omega)

theorem vr_putResiduals_ne (q : Gang) (w : Nat) (p : Gang) {r k : Nat} (hk : k < 16)
    (h : k ∉ q.lanes w ∨ (r ≠ vB w ∧ r ≠ vB w + 1)) : (q.putResiduals w p).vr r k = p.vr r k := by
  obtain ⟨-, -, -, -, -, -, -, hleft⟩ := laneFold true (vB w) (q.mxResidualPair w) (q.lanes w) (lanes_lt q w) (nodup_lanes q w) p
  rw [putResiduals_eq]
  exact hleft r k hk (h.imp_right (fun hr => ⟨hr.1, fun _ => hr.2⟩))

/-- The lane writes of mxpack leave where the gang stands and what it runs. -/
theorem mxWords_leaves (q : Gang) (w : Nat) :
    (q.mxWords w).pc = q.pc ∧ (q.mxWords w).emask = q.emask ∧ (q.mxWords w).stack = q.stack ∧ (q.mxWords w).launch = q.launch := by
  obtain ⟨-, -, hpc, hem, hst, hla, -, -⟩ := laneFold false (vD w) (q.mxPair w) (q.lanes w) (lanes_lt q w) (nodup_lanes q w) q
  unfold Gang.mxWords
  split
  · obtain ⟨-, -, hpc', hem', hst', hla', -, -⟩ := laneFold true (vB w) (q.mxResidualPair w) (q.lanes w) (lanes_lt q w)
      (nodup_lanes q w) (laneMap q w false (q.mxPair w))
    rw [putResiduals_eq]
    exact ⟨hpc'.trans hpc, hem'.trans hem, hst'.trans hst, hla'.trans hla⟩
  · exact ⟨hpc, hem, hst, hla⟩

/-- Outside the registers that mxpack writes in its active lanes, every word stands (R133). -/
theorem vr_mxWords_ne (q : Gang) (w : Nat) {r k : Nat} (hk : k < 16)
    (h : k ∉ q.lanes w ∨ (r ≠ vD w ∧ (bitAt w 59 = true → r ≠ vB w ∧ r ≠ vB w + 1))) : (q.mxWords w).vr r k = q.vr r k := by
  obtain ⟨-, -, -, -, -, -, -, hleft⟩ := laneFold false (vD w) (q.mxPair w) (q.lanes w) (lanes_lt q w) (nodup_lanes q w) q
  have hpacked : (laneMap q w false (q.mxPair w)).vr r k = q.vr r k :=
    hleft r k hk (h.imp_right (fun hr => ⟨hr.1, by simp⟩))
  unfold Gang.mxWords
  split
  · next hres => rw [vr_putResiduals_ne q w _ hk (h.imp_right (fun hr => hr.2 hres)), hpacked]
  · exact hpacked

/-- The packed elements of an active lane, where no residual is written over them. -/
theorem vr_mxWords_packed (q : Gang) (w : Nat) {k : Nat} (hk : k ∈ q.lanes w)
    (h : bitAt w 59 = false ∨ (vD w ≠ vB w ∧ vD w ≠ vB w + 1)) : (q.mxWords w).vr (vD w) k = q.mxPair w k % 2 ^ 32 := by
  unfold Gang.mxWords
  split
  · next hres =>
    rw [vr_putResiduals_ne q w _ ((mem_lanes q w k).1 hk).1 (.inr (h.resolve_left (by simp [hres])))]
    exact vr_laneMap q w false _ hk
  · exact vr_laneMap q w false _ hk

/-- The residuals of an active lane. -/
theorem vr_mxWords_residual (q : Gang) (w : Nat) {k e : Nat} (hk : k ∈ q.lanes w) (he : e < 2) (h : bitAt w 59 = true) :
    (q.mxWords w).vr (vB w + e) k = q.mxResidual w (2 * k + e) % 2 ^ 32 := by
  rw [Gang.mxWords, if_pos h, vr_putResiduals q w _ hk he]

theorem Gang.sreg_setSreg_same (q : Gang) (r x : Nat) : (q.setSreg r x).sreg r = x % 2 ^ 32 := by
  simp [Gang.setSreg, Gang.sreg]

end Sys2Proof.Machine
end

section
/-! The statement on conversions (O22). -/

namespace Sys2Proof.Machine

variable {s : State} {g : CoreId} {n : GangId} {w : Nat} {q : Gang} {la : Launch} {l : ILine}

/-- The gang behind an mxpack. -/
def Gang.mxPacked (q : Gang) (w : Nat) : Gang :=
  { (q.mxWords w).setSreg (vC w) (q.mxBlock w).scale with pc := ((q.mxWords w).setSreg (vC w) (q.mxBlock w).scale).pc + 1, wait := .run }

theorem passed_mxPacked (q : Gang) (w : Nat) : Passed q (q.mxPacked w) := by
  obtain ⟨hpc, hem, hst, hla⟩ := mxWords_leaves q w
  exact ⟨congrArg (· + 1) hpc, hem, hst, rfl, hla⟩

theorem sreg_mxPacked (q : Gang) (w : Nat) : (q.mxPacked w).sreg (vC w) = (q.mxBlock w).scale % 2 ^ 32 :=
  Gang.sreg_setSreg_same (q.mxWords w) (vC w) _

theorem vr_mxPacked (q : Gang) (w r k : Nat) : (q.mxPacked w).vr r k = (q.mxWords w).vr r k := rfl

/-- mxpack touches its gang, and its core's counters where it counts. -/
theorem exec_vMxpack_leaves (h : Issues s g n .mxpack w q la l) :
    ∃ t, exec (.vMxpack g n) s = .next t ∧ t.gang g n = some (q.mxPacked w) ∧ t.mem = s.mem ∧ t.bufs = s.bufs ∧ t.queues = s.queues := by
  obtain ⟨hmem, hbufs, hqueues, -, -, -, -⟩ := issued_frame s g la l (q.errsRead .mxpack w).length
  refine ⟨_, exec_vMxpack h, ?_⟩
  generalize s.issued g la l (q.errsRead .mxpack w).length = i at *
  have hregs : ∃ rg, (if bitAt w 58 then i
      else i.counts g { zeroBlocks := (q.mxBlock w).zeroBlocks, vanished := (q.mxBlock w).vanished }) = { i with regs := rg } := by
    split
    · exact onlyRegs_refl i
    · exact counts_eq i g _
  obtain ⟨rg, hrg⟩ := hregs
  rw [hrg, State.advance]
  refine ⟨?_, ?_, ?_, ?_⟩
  · rw [State.gang, settle_gangs, setGang_gangs, mget_mput_same]
    rfl
  · rw [settle_mem, setGang_mem, ← hmem]
  · rw [settle_bufs, setGang_bufs, ← hbufs]
  · rw [settle_queues, setGang_queues, ← hqueues]

/-- With `comp` set mxpack counts nothing and touches its gang alone. -/
theorem exec_vMxpack_comp (h : Issues s g n .mxpack w q la l) (hc : bitAt w 58 = true) :
    ∃ t, exec (.vMxpack g n) s = .next t ∧ VecFrame s t g n ∧ t.gang g n = some (q.mxPacked w) := by
  refine ⟨_, exec_vMxpack h, ?_⟩
  rw [if_pos hc, State.advance]
  exact vecFrame_setGang s g n la l _ (q.mxPacked w)

/-- Settles O22: cvt and mxunpack by their effects, mxpack by the words it leaves. -/
theorem vectorConvertCompletes : Obligations.VectorConvertCompletes := by
  refine ⟨fun g n s w q la l h => (exec_issues (c := .vCvt g n) rfl h).trans rfl, fun g n s w q la l h hcomp hres => ?_,
    fun g n s w q la l b h hb => ?_, fun g n s w q la l h => (exec_issues (c := .vMxunpack g n) rfl h).trans rfl⟩
  · obtain ⟨t, ht, hframe, hgang⟩ := exec_vMxpack_comp h hcomp
    exact ⟨t, _, ht, hframe, hgang, passed_mxPacked q w, sreg_mxPacked q w,
      fun k hk ha => vr_mxWords_packed q w ((mem_lanes q w k).2 ⟨hk, ha⟩) (.inl hres)⟩
  · subst hb
    obtain ⟨t, ht, hgang, hmem, hbufs, hqueues⟩ := exec_vMxpack_leaves h
    refine ⟨t, _, ht, hgang, passed_mxPacked q w, sreg_mxPacked q w, hmem, hbufs, hqueues,
      fun r k hk hr => vr_mxWords_ne q w hk (hr.imp_left (fun ha hm => ?_)), fun k hk ha => ?_⟩
    · rw [((mem_lanes q w k).1 hm).2] at ha
      cases ha
    · have hmem := (mem_lanes q w k).2 ⟨hk, ha⟩
      exact ⟨vr_mxWords_packed q w hmem, fun hres e he => vr_mxWords_residual q w hmem he hres⟩

end Sys2Proof.Machine
end

section
/-! States that differ in their records only: counters and corrections of the matrix engine leave memory, buffers and queues, and whatever
is computed from these alone agrees in two such states (R61, R195). -/

namespace Sys2Proof.Machine

/-! ## Bytes written -/

/-- Bytes written to memory. -/
def State.putMem (s : State) (a : Nat) (l : List Byte) : State := { s with mem := s.mem.wrN a l }

/-- Bytes written to the buffers of the cores. -/
def State.putBufs (s : State) (a : Nat) (l : List Byte) : State := { s with bufs := s.bufs.wrN a l }

@[simp] theorem putMem_mem (s : State) (a : Nat) (l : List Byte) : (s.putMem a l).mem = s.mem.wrN a l := rfl
@[simp] theorem putMem_queues (s : State) (a : Nat) (l : List Byte) : (s.putMem a l).queues = s.queues := rfl
@[simp] theorem putBufs_mem (s : State) (a : Nat) (l : List Byte) : (s.putBufs a l).mem = s.mem := rfl
@[simp] theorem putBufs_queues (s : State) (a : Nat) (l : List Byte) : (s.putBufs a l).queues = s.queues := rfl

/-! ## Alike -/

/-- Memory, buffers and queues are the same: nothing that the matrix engine's arithmetic reads tells the two states apart. -/
structure State.Alike (s t : State) : Prop where
  mem : t.mem = s.mem
  bufs : t.bufs = s.bufs
  queues : t.queues = s.queues

namespace State.Alike

variable {s t u : State}

theorem refl (s : State) : s.Alike s := ⟨rfl, rfl, rfl⟩

theorem symm (h : s.Alike t) : t.Alike s := ⟨h.mem.symm, h.bufs.symm, h.queues.symm⟩

theorem trans (h : s.Alike t) (k : t.Alike u) : s.Alike u :=
  ⟨k.mem.trans h.mem, k.bufs.trans h.bufs, k.queues.trans h.queues⟩

/-- Both branches of a test. -/
theorem ite {p : Prop} [Decidable p] (ht : s.Alike t) (hu : s.Alike u) : s.Alike (if p then t else u) := by
  split
  · exact ht
  · exact hu

/-- The same bytes written on both sides. -/
theorem putMem (h : s.Alike t) (a : Nat) (l : List Byte) : (s.putMem a l).Alike (t.putMem a l) :=
  ⟨congrArg (·.wrN a l) h.mem, h.bufs, h.queues⟩

theorem putBufs (h : s.Alike t) (a : Nat) (l : List Byte) : (s.putBufs a l).Alike (t.putBufs a l) :=
  ⟨h.mem, congrArg (·.wrN a l) h.bufs, h.queues⟩

/-- A fold of steps that each keep two states alike. -/
theorem foldl {α : Type} {f : State → α → State} (l : List α) (hf : ∀ x ∈ l, ∀ s t, s.Alike t → (f s x).Alike (f t x))
    (h : s.Alike t) : (l.foldl f s).Alike (l.foldl f t) := List.foldl_rel h hf

theorem loop {f : Nat → State → State} (n : Nat) (hf : ∀ i s t, State.Alike s t → (f i s).Alike (f i t)) (h : s.Alike t) :
    (Machine.loop n f s).Alike (Machine.loop n f t) := foldl _ (fun i _ => hf i) h

/-! ## Operations that change records only -/

theorem inc (s : State) (f : Fld) (i d : Nat) : s.Alike (s.inc f i d) := ⟨State.inc_mem .., State.inc_bufs .., State.inc_queues ..⟩

theorem count (s : State) (g : Nat) (f : Fld) (n : Nat) : s.Alike (s.count g f n) := ite (refl s) (inc s f g n)

theorem counts (s : State) (g : Nat) (c : Counts) : s.Alike (s.counts g c) := by
  obtain ⟨rg, h⟩ := counts_eq s g c
  rw [h]
  exact ⟨rfl, rfl, rfl⟩

/-- The same counts recorded on both sides. -/
theorem counted (h : s.Alike t) (g : Nat) (c : Counts) : (s.counts g c).Alike (t.counts g c) :=
  ((counts s g c).symm.trans h).trans (counts t g c)

theorem carry (s : State) (x : NMap Nat) : s.Alike { s with carry := x } := ⟨rfl, rfl, rfl⟩

theorem incUnit (s : State) (f : Fld) (i u d : Nat) : s.Alike (s.incUnit f i u d) := by
  unfold State.incUnit
  exact (inc ..).trans (carry _ _)

theorem corr (s : State) (d n : Nat) : s.Alike (s.corr d n) := ite (refl s) (ite (inc ..) (ite (inc ..) (inc ..)))

theorem corrBuf (s : State) (g a n : Nat) : s.Alike (s.corrBuf g a n) := ite (refl s) (inc ..)

theorem corrBufs (s : State) (g : Nat) (l : List (Nat × Nat)) : s.Alike (l.foldl (fun s a => s.corrBuf g a.1 a.2) s) := by
  induction l generalizing s with
  | nil => exact refl s
  | cons a l ih => exact (corrBuf s g a.1 a.2).trans (ih _)

theorem countWait (s : State) (g : Nat) (f : Fld) (n : Nat) : s.Alike (s.countWait g f n) :=
  have fresh : s.Alike s.fresh.2 := ⟨rfl, rfl, rfl⟩
  ite fresh (fresh.trans (inc ..))

theorem accRd (h : s.Alike t) (g i k : Nat) : t.accRd g i k = s.accRd g i k := congrArg (·.rdLE (accWord g i k) 4) h.bufs

end State.Alike

/-! ## Started commands -/

theorem setQ_queues (s : State) (u : Nat) (q : Queue) : (s.setQ u q).queues = mputD s.queues u q {} := State.wr_queues ..

theorem modStarted_mem (s : State) (u id : Nat) (f : Started → Started) : (s.modStarted u id f).mem = s.mem := State.setQ_mem ..
theorem modStarted_bufs (s : State) (u id : Nat) (f : Started → Started) : (s.modStarted u id f).bufs = s.bufs := State.setQ_bufs ..

/-- What becomes of the queues when a started command changes depends on the queues alone. -/
theorem modStarted_queues_congr {s t : State} (h : t.queues = s.queues) (u id : Nat) (f : Started → Started) :
    (t.modStarted u id f).queues = (s.modStarted u id f).queues := by
  simp only [State.modStarted, setQ_queues, State.q, h]

@[simp] theorem opDone_mem (s : State) (u id : Nat) : (s.opDone u id).mem = s.mem := modStarted_mem ..
@[simp] theorem opDone_bufs (s : State) (u id : Nat) : (s.opDone u id).bufs = s.bufs := modStarted_bufs ..
@[simp] theorem opDone_rings (s : State) (u id : Nat) : (s.opDone u id).rings = s.rings := State.setQ_rings ..

theorem opDone_queues_congr {s t : State} (h : t.queues = s.queues) (u id : Nat) : (t.opDone u id).queues = (s.opDone u id).queues :=
  modStarted_queues_congr h u id _

end Sys2Proof.Machine
end

section
/-! MM (R73, R83): what an instruction step, a round and a command do to the tiles, and that they leave memory and queues. -/

namespace Sys2Proof.Machine

/-! ## Instruction steps and rounds -/

section
variable {s t : State} (g : Nat) (m : MmCmd) (ki : Nat) (p : Pass) (mi ni : Nat)

/-- First tile of the part of an output position that a pass accumulates into. -/
def MmCmd.stepTile (m : MmCmd) (p : Pass) (mi ni : Nat) : Nat := m.accTile + m.w * (ni + m.nt * mi) + (if p.im then m.w / 2 else 0)

/-- The results of one instruction step. -/
def State.mmOuts (s : State) (g : Nat) (m : MmCmd) (ki : Nat) (p : Pass) (mi ni : Nat) : List MmOut :=
  (List.range 256).map (fun i => m.element g s.bufs ki mi ni p (i / 16) (i % 16) (s.accRd g (m.stepTile p mi ni) i)
    (if m.pair then s.accRd g (m.stepTile p mi ni + 1) i else 0))

/-- The results of a step in their tile, or in their S and E tiles. -/
def State.mmLand (s : State) (g : Nat) (m : MmCmd) (t : Nat) (outs : List MmOut) : State :=
  let s' := s.putBufs (accWord g t 0) (outs.flatMap (fun o => leBytes 4 o.s))
  if m.pair then s'.putBufs (accWord g (t + 1) 0) (outs.flatMap (fun o => leBytes 4 o.e)) else s'

theorem mmStep_eq (s : State) : s.mmStep g m ki p mi ni =
    (s.mmLand g m (m.stepTile p mi ni) (s.mmOuts g m ki p mi ni)).counts g (Counts.sum ((s.mmOuts g m ki p mi ni).map MmOut.n)) := rfl

theorem State.Alike.mmOuts (h : s.Alike t) : t.mmOuts g m ki p mi ni = s.mmOuts g m ki p mi ni := by
  simp only [State.mmOuts, h.accRd, h.bufs]

theorem State.Alike.mmLand (h : s.Alike t) (i : Nat) (outs : List MmOut) : (s.mmLand g m i outs).Alike (t.mmLand g m i outs) := by
  unfold State.mmLand
  split
  · exact (h.putBufs _ _).putBufs _ _
  · exact h.putBufs _ _

theorem State.Alike.mmStep (h : s.Alike t) : (s.mmStep g m ki p mi ni).Alike (t.mmStep g m ki p mi ni) := by
  rw [mmStep_eq, mmStep_eq, h.mmOuts]
  exact (h.mmLand g m _ _).counted g _

theorem putBufs_keeps (s : State) (a : Nat) (l : List Byte) : s.Keeps [] (s.putBufs a l) := s.keeps.parts

theorem counts_keeps (s : State) (c : Counts) : s.Keeps [] (s.counts g c) := by
  obtain ⟨rg, h⟩ := counts_eq s g c
  rw [h]
  exact ⟨nofun, rfl, rfl, rfl, rfl, rfl, rfl, rfl, rfl, rfl, rfl⟩

theorem mmLand_keeps (s : State) (i : Nat) (outs : List MmOut) : s.Keeps [] (s.mmLand g m i outs) :=
  .ite ((putBufs_keeps ..).trans (putBufs_keeps ..)) (putBufs_keeps ..)

theorem mmStep_keeps (s : State) : s.Keeps [] (s.mmStep g m ki p mi ni) := (mmLand_keeps ..).trans (counts_keeps ..)

end

section
variable {s t : State} (g : Nat) (m : MmCmd) (ks : List Nat)

theorem State.Alike.mmRounds (h : s.Alike t) : (s.mmRounds g m ks).Alike (t.mmRounds g m ks) :=
  .loop _ (fun _ _ _ h => .foldl _ (fun _ _ _ _ h => .foldl _ (fun _ _ _ _ h => h.mmStep ..) h) h) h

theorem mmRounds_keeps (s : State) : s.Keeps [] (s.mmRounds g m ks) :=
  .loop (fun _ s => .foldl (fun s _ => .foldl (fun s _ => mmStep_keeps _ _ _ _ _ _ s) _ s) _ s) _ s

/-! ## The tiles before the first round -/

/-- The tiles of some positions at zero. -/
def State.mmZeroed (s : State) (g : Nat) (m : MmCmd) (ks : List Nat) : State :=
  ks.foldl (fun s k => s.putBufs (accWord g (m.tile k) 0) (List.replicate (1024 * m.w) 0)) s

/-- The tiles of some positions before their first round: zero with acc_init, else as they stand. -/
def State.mmInit (s : State) (g : Nat) (m : MmCmd) (ks : List Nat) : State := if m.accInit then s.mmZeroed g m ks else s

theorem State.Alike.mmZeroed (h : s.Alike t) : (s.mmZeroed g m ks).Alike (t.mmZeroed g m ks) :=
  .foldl ks (fun _ _ _ _ h => h.putBufs _ _) h

theorem mmInit_keeps (s : State) : s.Keeps [] (s.mmInit g m ks) := .ite (.foldl (fun s _ => putBufs_keeps s _ _) ks s) s.keeps

/-- The same with the records of a command that begins: its waits, and the correctable errors of what it reads. -/
def State.mmReady (s : State) (g : Nat) (m : MmCmd) (did ks : List Nat) : State :=
  let s := if did.isEmpty then s.mmBegin g m else s
  if m.accInit then s.mmZeroed g m ks else (m.accReads g ks).foldl (fun s a => s.corrBuf g a.1 a.2) s

theorem mmBegin_alike (s : State) : s.Alike (s.mmBegin g m) := by
  unfold State.mmBegin
  exact ((State.Alike.countWait ..).trans (.countWait ..)).trans (.corrBufs ..)

theorem mmReady_alike (s : State) (did : List Nat) : (s.mmInit g m ks).Alike (s.mmReady g m did ks) := by
  have begun : s.Alike (if did.isEmpty then s.mmBegin g m else s) := .ite (mmBegin_alike g m s) (.refl s)
  unfold State.mmInit State.mmReady
  split
  · exact begun.mmZeroed g m ks
  · exact begun.trans (.corrBufs ..)

end

/-! ## The command -/

section
variable (s : State) (g : Nat) (x : Started)

/-- The rounds of an MM on its open positions. -/
def State.mmIssued (s : State) (g : Nat) (x : Started) : State :=
  (s.mmInit g (MmCmd.of x.e.cmd) (s.mmOpen g x)).mmRounds g (MmCmd.of x.e.cmd) (s.mmOpen g x)

/-- The same with the records that the model keeps of them. -/
def State.mmRan (s : State) (g : Nat) (x : Started) : State :=
  let m := MmCmd.of x.e.cmd
  let ks := s.mmOpen g x
  ((s.mmReady g m x.prog.did ks).mmRounds g m ks).incUnit F.coreMmAct_stepsK g 1024 (m.steps ks.length)

theorem mmIssued_keeps : s.Keeps [] (s.mmIssued g x) := (mmInit_keeps ..).trans (mmRounds_keeps ..)

theorem mmRan_alike : (s.mmIssued g x).Alike (s.mmRan g x) := ((mmReady_alike ..).mmRounds ..).trans (.incUnit ..)

theorem mmRan_mem : (s.mmRan g x).mem = s.mem := (mmRan_alike ..).mem.trans (mmIssued_keeps ..).mem

theorem mmRan_queues : (s.mmRan g x).queues = s.queues := (mmRan_alike ..).queues.trans (mmIssued_keeps ..).queues

/-- Behind its rounds an MM is over, or keeps note of the positions it has done. -/
def State.mmEnded (s : State) (g : Nat) (x : Started) : State :=
  if s.mmOpen g x == (MmCmd.of x.e.cmd).todo x.prog.did then
    ((s.mmRan g x).count g F.coreMmAct_depWait (MmCmd.of x.e.cmd).depWait).opDone (unitEng g 0) x.id
  else (s.mmRan g x).modStarted (unitEng g 0) x.id (fun y => { y with prog := { y.prog with did := y.prog.did ++ s.mmOpen g x } })

theorem mmEnded_mem : (s.mmEnded g x).mem = s.mem := by
  unfold State.mmEnded
  split
  · exact (opDone_mem ..).trans ((State.Alike.count ..).mem.trans (mmRan_mem s g x))
  · exact (modStarted_mem ..).trans (mmRan_mem s g x)

theorem mmEnded_bufs : (s.mmEnded g x).bufs = (s.mmIssued g x).bufs := by
  unfold State.mmEnded
  split
  · exact (opDone_bufs ..).trans ((State.Alike.count ..).bufs.trans (mmRan_alike s g x).bufs)
  · exact (modStarted_bufs ..).trans (mmRan_alike s g x).bufs

theorem mmEnded_queues : (s.mmEnded g x).queues =
    (if s.mmOpen g x = (MmCmd.of x.e.cmd).todo x.prog.did then s.opDone (unitEng g 0) x.id
      else s.modStarted (unitEng g 0) x.id (fun y => { y with prog := { y.prog with did := y.prog.did ++ s.mmOpen g x } })).queues := by
  unfold State.mmEnded
  split
  · next hall =>
    rw [if_pos (beq_iff_eq.1 hall)]
    exact opDone_queues_congr ((State.Alike.count ..).queues.trans (mmRan_queues s g x)) ..
  · next hsome =>
    rw [if_neg (fun hall => hsome (beq_iff_eq.2 hall))]
    exact modStarted_queues_congr (mmRan_queues s g x) ..

variable {s g x}

/-- An MM with open positions, no locked tile and no uncorrectable error in its way runs its rounds. -/
theorem mmRun_eq
    (hx : (s.q (unitEng g 0)).started.find? (fun x =>
      x.e.cmd.opcode == 0x20 && x.done.isNone && x.prog.ready && !(s.mmOpen g x).isEmpty) = some x)
    (hruns : s.runs g = true)
    (hfree : ∀ k ∈ s.mmOpen g x, s.lockedBuf (accWord g ((MmCmd.of x.e.cmd).tile k) 0) (1024 * (MmCmd.of x.e.cmd).w) = false)
    (hsound : s.mmHurt g (MmCmd.of x.e.cmd) (s.mmOpen g x) = none) :
    s.mmRun g = s.mmEnded g x := by
  have hlock : (s.mmOpen g x).any (fun k => s.lockedBuf (accWord g ((MmCmd.of x.e.cmd).tile k) 0) (1024 * (MmCmd.of x.e.cmd).w)) = false :=
    List.any_eq_false.2 (fun k hk => Bool.eq_false_iff.1 (hfree k hk))
  simp only [State.mmRun, hx, hruns, hlock, hsound, Bool.not_true, Bool.or_self, Bool.false_eq_true, if_false]
  rfl

end

end Sys2Proof.Machine
end

section
/-! MM_LOAD (R74): tiles filled from rows. -/

namespace Sys2Proof.Machine

section
variable (s : State) (g fmt acc row count : Nat)

theorem State.Alike.mmLoadTile {s t : State} (h : s.Alike t) (g fmt row i : Nat) : t.mmLoadTile g fmt row i = s.mmLoadTile g fmt row i := by
  simp only [State.mmLoadTile, h.mem]

/-- The tiles of an MM_LOAD, written one after the other. -/
def State.mmFill (s : State) (g fmt acc row count : Nat) : State :=
  loop count (fun i s => s.putBufs (accWord g (acc + i) 0) ((s.mmLoadTile g fmt row i).flatMap (leBytes 4))) s

/-- The tiles come from memory, which the load leaves: it changes the buffers alone, each tile by the rows as they stood. -/
theorem mmFill_eq : s.mmFill g fmt acc row count =
    { s with bufs := loop count (fun i b => b.wrN (accWord g (acc + i) 0) ((s.mmLoadTile g fmt row i).flatMap (leBytes 4))) s.bufs } := by
  unfold State.mmFill loop
  refine List.foldl_hom (fun b => { s with bufs := b }) ?_
  intro b i
  rfl

/-- Rows that MM_LOAD reads (Table 3-7). -/
def mmLoadRows (fmt count : Nat) : Nat := if fmt == 0 then 2 * count else if fmt == 1 then count else ceilDiv count 8

/-- The tiles filled from their rows, whose correctable errors are counted. -/
def State.mmLoaded (s : State) (g fmt acc row count : Nat) : State :=
  (s.corr (cmRow g row) (512 * mmLoadRows fmt count)).mmFill g fmt acc row count

theorem mmLoaded_mem : (s.mmLoaded g fmt acc row count).mem = s.mem := by
  rw [State.mmLoaded, mmFill_eq]
  exact (State.Alike.corr ..).mem

theorem mmLoaded_queues : (s.mmLoaded g fmt acc row count).queues = s.queues := by
  rw [State.mmLoaded, mmFill_eq]
  exact (State.Alike.corr ..).queues

theorem mmLoaded_bufs : (s.mmLoaded g fmt acc row count).bufs =
    loop count (fun i b => b.wrN (accWord g (acc + i) 0) ((s.mmLoadTile g fmt row i).flatMap (leBytes 4))) s.bufs := by
  have corrected := State.Alike.corr s (cmRow g row) (512 * mmLoadRows fmt count)
  rw [State.mmLoaded, mmFill_eq]
  simp only [corrected.mmLoadTile, corrected.bufs]

end

/-- An MM_LOAD whose turn it is, with no locked tile and no uncorrectable error in its way, fills its tiles. -/
theorem mmLoadRun_eq {s : State} {g acc fmt count row rows : Nat} {x : Started} (hx : s.oldest (unitEng g 0) 0x21 = some x)
    (hacc : acc = bits x.e.cmd.w4 0 6) (hfmt : fmt = bits x.e.cmd.w4 6 2) (hcount : count = bits x.e.cmd.w4 8 7)
    (hrow : row = bits x.e.cmd.w4 16 12) (hrows : rows = if fmt == 0 then 2 * count else if fmt == 1 then count else ceilDiv count 8)
    (hruns : s.runs g = true) (hport : s.portWait g x.id = false) (htile : s.tileWait g x.id acc (acc + count) = false)
    (hfree : s.lockedBuf (accWord g acc 0) (1024 * count) = false) (hsound : s.mem.hurt (cmRow g row) (512 * rows) = false) :
    s.mmLoadRun g = (s.mmLoaded g fmt acc row count).opDone (unitEng g 0) x.id := by
  subst hacc hfmt hcount hrow hrows
  simp only [State.mmLoadRun, hx, hruns, hport, htile, hfree, hsound, Bool.not_true, Bool.or_self, Bool.false_eq_true, if_false]
  rfl

end Sys2Proof.Machine
end

section
/-! The groups of MM_STORE (R75, R76): their bytes by format, the rows they fill, and that nothing else changes in memory. -/

namespace Sys2Proof.Machine

/-! ## The bytes of a group -/

section
variable {s t : State} (g fmt : Nat) (nonsat : Bool) (i : Nat)

theorem length_flatMap_of_forall {α β : Type} {f : α → List β} {l : List α} {k : Nat} (h : ∀ x ∈ l, (f x).length = k) :
    (l.flatMap f).length = l.length * k := by
  rw [List.length_flatMap, List.map_congr_left h, List.map_const', List.sum_replicate_nat]

/-- Bytes of one element of a store format (Table 3-8). -/
def mmElemBytes (fmt : Nat) : Nat :=
  if fmt == 0 then 4 else if fmt == 1 then 2 else if fmt == 2 then 2 else if fmt == 3 then 1 else if fmt == 4 then 1
  else if fmt == 5 then 1 else if fmt == 6 then 8 else 4

theorem length_mmStoreBytes : (s.mmStoreBytes g fmt nonsat i).1.length = 256 * mmElemBytes fmt := by
  have word (n : Nat) (l : List Nat) (f : Nat → Nat) : (l.flatMap (fun k => leBytes n (f k))).length = l.length * n :=
    length_flatMap_of_forall (fun _ _ => length_leBytes ..)
  have conv (n : Nat) (l : List Nat) (f : Nat → Conv) : ((l.map f).flatMap (fun c => leBytes n c.w)).length = l.length * n :=
    (length_flatMap_of_forall (fun _ _ => length_leBytes ..)).trans (congrArg (· * n) (List.length_map ..))
  have pair (l : List Nat) (f h : Nat → Nat) : (l.flatMap (fun k => leBytes 4 (f k) ++ leBytes 4 (h k))).length = l.length * 8 :=
    length_flatMap_of_forall (fun _ _ => by rw [List.length_append, length_leBytes, length_leBytes])
  unfold State.mmStoreBytes mmElemBytes
  dsimp only
  repeat' split
  all_goals simp only [word, conv, pair, List.length_range]

/-- Rows of a group: half a row for each tile and each byte of an element; three formats store two tiles to a group, one behind the other. -/
theorem mmGroupRows_eq : 2 * mmGroupRows fmt = if 3 ≤ fmt && fmt ≤ 5 then 2 * mmElemBytes fmt else mmElemBytes fmt :=
  match fmt with
  | 0 | 1 | 2 | 3 | 4 | 5 | 6 => rfl
  | _ + 7 => rfl

/-- A group fills its rows. -/
theorem length_mmGroupBytes : (s.mmGroupBytes g fmt nonsat i).1.length = 512 * mmGroupRows fmt := by
  have rows := mmGroupRows_eq fmt
  unfold State.mmGroupBytes
  split at rows
  · next h =>
    rw [if_pos h, List.length_append, length_mmStoreBytes, length_mmStoreBytes]
    omega
  · next h =>
    rw [if_neg h, length_mmStoreBytes]
    omega

theorem State.Alike.mmStoreBytes (h : s.Alike t) : t.mmStoreBytes g fmt nonsat i = s.mmStoreBytes g fmt nonsat i := by
  simp only [State.mmStoreBytes, h.accRd]

theorem State.Alike.mmGroupBytes (h : s.Alike t) : t.mmGroupBytes g fmt nonsat i = s.mmGroupBytes g fmt nonsat i := by
  simp only [State.mmGroupBytes, h.mmStoreBytes]

end

/-! ## The groups of a command -/

section
variable {t : State} (s : State) (g fmt acc dst n : Nat) (nonsat clear : Bool)

/-- One group stored, its tiles cleared where asked. -/
def State.mmStoreGroup (s : State) (g fmt acc dst : Nat) (nonsat clear : Bool) (i : Nat) : State :=
  let out := s.mmGroupBytes g fmt nonsat (acc + mmGroup fmt * i)
  let s := (s.putMem (cmRow g (dst + mmGroupRows fmt * i)) out.1).counts g out.2
  if clear then s.putBufs (accWord g (acc + mmGroup fmt * i) 0) (List.replicate (1024 * mmGroup fmt) 0) else s

theorem mmStoreGroups_eq :
    s.mmStoreGroups g fmt acc dst n nonsat clear = loop n (fun i s => s.mmStoreGroup g fmt acc dst nonsat clear i) s := rfl

theorem mmStoreGroup_mem (i : Nat) : (s.mmStoreGroup g fmt acc dst nonsat clear i).mem =
    s.mem.wrN (cmRow g (dst + mmGroupRows fmt * i)) (s.mmGroupBytes g fmt nonsat (acc + mmGroup fmt * i)).1 := by
  unfold State.mmStoreGroup
  split
  · rw [putBufs_mem, (State.Alike.counts ..).mem, putMem_mem]
  · rw [(State.Alike.counts ..).mem, putMem_mem]

theorem mmStoreGroup_queues (i : Nat) : (s.mmStoreGroup g fmt acc dst nonsat clear i).queues = s.queues := by
  unfold State.mmStoreGroup
  split
  · rw [putBufs_queues, (State.Alike.counts ..).queues, putMem_queues]
  · rw [(State.Alike.counts ..).queues, putMem_queues]

/-- A part of the state that every group leaves, all groups leave. -/
theorem mmStoreGroups_leaves {β : Type} (q : State → β)
    (h : ∀ i < n, ∀ t : State, q (t.mmStoreGroup g fmt acc dst nonsat clear i) = q t) :
    q (s.mmStoreGroups g fmt acc dst n nonsat clear) = q s := by
  rw [mmStoreGroups_eq]
  exact List.foldlRecOn (motive := fun t => q t = q s) (List.range n) _ rfl (fun t ht i hi => (h i (List.mem_range.1 hi) t).trans ht)

theorem mmStoreGroups_queues : (s.mmStoreGroups g fmt acc dst n nonsat clear).queues = s.queues :=
  mmStoreGroups_leaves s g fmt acc dst n nonsat clear (·.queues) (fun _ _ t => mmStoreGroup_queues t ..)

theorem cmRow_add (g r k : Nat) : cmRow g (r + k) = cmRow g r + 512 * k := by unfold cmRow; omega

/-- Each group writes the rows behind those of the groups before it, and no byte outside its rows. -/
theorem mmStoreGroups_frame (a : Nat) (ha : a < cmRow g dst ∨ cmRow g (dst + mmGroupRows fmt * n) ≤ a) :
    (s.mmStoreGroups g fmt acc dst n nonsat clear).mem.rd a = s.mem.rd a := by
  rw [cmRow_add] at ha
  refine mmStoreGroups_leaves s g fmt acc dst n nonsat clear (·.mem.rd a) (fun i hi t => ?_)
  have inside : mmGroupRows fmt * (i + 1) ≤ mmGroupRows fmt * n := Nat.mul_le_mul_left _ hi
  rw [Nat.mul_add_one] at inside
  rw [mmStoreGroup_mem]
  refine Store.rd_wrN_outside _ _ _ _ ?_
  rw [length_mmGroupBytes, cmRow_add]
  omega

variable {s}

theorem State.Alike.mmStoreGroup (h : s.Alike t) (i : Nat) :
    (s.mmStoreGroup g fmt acc dst nonsat clear i).Alike (t.mmStoreGroup g fmt acc dst nonsat clear i) := by
  have stored := (h.putMem (cmRow g (dst + mmGroupRows fmt * i)) (s.mmGroupBytes g fmt nonsat (acc + mmGroup fmt * i)).1).counted g
    (s.mmGroupBytes g fmt nonsat (acc + mmGroup fmt * i)).2
  unfold State.mmStoreGroup
  rw [h.mmGroupBytes]
  split
  · exact stored.putBufs _ _
  · exact stored

theorem State.Alike.mmStoreGroups (h : s.Alike t) :
    (s.mmStoreGroups g fmt acc dst n nonsat clear).Alike (t.mmStoreGroups g fmt acc dst n nonsat clear) :=
  .loop n (fun i _ _ h => h.mmStoreGroup g fmt acc dst nonsat clear i) h

end

end Sys2Proof.Machine
end

section
/-! MM_STORE (R75 to R77, R83, R178): into rows, or into the ring slot it is granted. -/

namespace Sys2Proof.Machine

/-! ## Ring slots -/

section
variable {s t : State} {r : Ring} {wr : Bool} {who : Who} {now : Nat} {a : RingGrant}

/-- An access that asks for a slot changes rings and waits alone, whatever it is granted. -/
theorem ringAsk_eq (s : State) (r : Ring) (wr : Bool) (who : Who) (now : Nat) :
    ∃ rings waits, (s.ringAsk r wr who now).2 = { s with rings := rings, ringWaits := waits } := by
  unfold State.ringAsk
  dsimp only
  split
  · split
    · exact ⟨s.rings, _, rfl⟩
    · exact ⟨s.rings, s.ringWaits, rfl⟩
  · split
    · exact ⟨_, s.ringWaits, rfl⟩
    · split
      · exact ⟨s.rings, s.ringWaits, rfl⟩
      · exact ⟨s.rings, _, rfl⟩

theorem ringAsk_alike (h : s.ringAsk r wr who now = (a, t)) : s.Alike t ∧ t.samples = s.samples := by
  obtain ⟨rings, waits, ht⟩ := ringAsk_eq s r wr who now
  rw [h] at ht
  subst ht
  exact ⟨⟨rfl, rfl, rfl⟩, rfl⟩

theorem ringRelease_alike (s : State) (p n i : Nat) (wr : Bool) : s.Alike (s.ringRelease p n i wr) := ⟨rfl, rfl, rfl⟩

theorem ringSt_congr (h : t.rings = s.rings) (p n : Nat) : t.ringSt p n = s.ringSt p n := by
  simp only [State.ringSt, h]

/-- A slot released is FULL after a write and EMPTY after a read, and unclaimed (R178). -/
theorem slot_ringRelease (s : State) (p n i : Nat) (wr : Bool) : ((s.ringRelease p n i wr).ringSt p n).slot i = { full := wr } := by
  simp only [State.ringRelease, State.setRing, State.ringSt, RingState.slot, mgetD_mputD_same]

end

/-! ## What an MM_STORE waits for and what it leaves -/

section
variable {s t : State} (g fmt acc count row : Nat) (nonsat clear : Bool)

theorem lockedMem_congr (h : t.samples = s.samples) (d n : Nat) : t.lockedMem d n = s.lockedMem d n := by
  simp only [State.lockedMem, h]

theorem State.Alike.badTile (h : s.Alike t) : t.badTile g acc count = s.badTile g acc count := by
  simp only [State.badTile, h.bufs]

/-- The tiles of an MM_STORE in rows, their correctable errors counted. -/
def State.mmStored (s : State) (g fmt acc count row : Nat) (nonsat clear : Bool) : State :=
  (s.corrBuf g (accWord g acc 0) (1024 * count)).mmStoreGroups g fmt acc row (count / mmGroup fmt) nonsat clear

theorem mmStored_alike (h : s.Alike t) :
    (s.mmStoreGroups g fmt acc row (count / mmGroup fmt) nonsat clear).Alike (t.mmStored g fmt acc count row nonsat clear) :=
  (h.trans (.corrBuf ..)).mmStoreGroups ..

theorem mmStored_queues (s : State) : (s.mmStored g fmt acc count row nonsat clear).queues = s.queues :=
  (mmStoreGroups_queues ..).trans (State.Alike.corrBuf ..).queues

end

/-! ## The command -/

section
variable {s t : State} {g acc fmt count dst i : Nat} {x : Started} {r : Ring} (hx : s.oldest (unitEng g 0) 0x22 = some x)
  (hacc : acc = bits x.e.cmd.w4 0 6) (hfmt : fmt = bits x.e.cmd.w4 8 4) (hcount : count = bits x.e.cmd.w4 12 7)
  (hdst : dst = bits x.e.cmd.w4 20 12) (hruns : s.runs g = true) (hport : s.portWait g x.id = false)
  (htile : s.tileWait g x.id acc (acc + count) = false)
include hx hacc hfmt hcount hdst hruns hport htile

/-- An MM_STORE into rows whose turn it is, with no locked row and no uncorrectable error in its way. -/
theorem mmStoreRun_rows (hkind : bitAt x.e.cmd.w4 19 = false) (hfree : s.lockedMem (cmRow g dst) (512 * mmFoot fmt count) = false)
    (hsound : s.badTile g acc count = none) :
    s.mmStoreRun g = (s.mmStored g fmt acc count dst (bitAt x.e.cmd.w4 7) (bitAt x.e.cmd.w4 6)).opDone (unitEng g 0) x.id := by
  subst hacc hfmt hcount hdst
  simp only [State.mmStoreRun, hx, hruns, hport, htile, hkind, hfree, hsound, Bool.not_true, Bool.not_false, Bool.or_self,
    Bool.false_eq_true, if_false, if_true]
  rfl

/-- The same into the ring slot it is granted. -/
theorem mmStoreRun_ring (hkind : bitAt x.e.cmd.w4 19 = true) (hring : s.ringDef (partOf g) dst = some r)
    (hask : s.ringAsk r true (.cmd (unitEng g 0) x.id) (s.ftCore g) = (.slot i, t))
    (hfree : t.lockedMem (cmRow g (r.first + i * r.slotRows)) (512 * mmFoot fmt count) = false)
    (hsound : t.badTile g acc count = none) :
    s.mmStoreRun g =
      ((t.mmStored g fmt acc count (r.first + i * r.slotRows) (bitAt x.e.cmd.w4 7) (bitAt x.e.cmd.w4 6)).ringRelease r.part r.number i
        true).opDone (unitEng g 0) x.id := by
  subst hacc hfmt hcount hdst
  simp only [State.mmStoreRun, hx, hruns, hport, htile, hkind, hring, hask, hfree, hsound, Bool.not_true, Bool.or_self,
    Bool.false_eq_true, if_false]
  rfl

end

end Sys2Proof.Machine
end

section
/-! The statement on the matrix engine (O28). -/

namespace Sys2Proof.Machine

theorem exec_mm (s : State) (g : CoreId) : exec (.mm g) s = .next (settle (s.mmRun g)) := rfl
theorem exec_mmLoad (s : State) (g : CoreId) : exec (.mmLoad g) s = .next (settle (s.mmLoadRun g)) := rfl
theorem exec_mmStore (s : State) (g : CoreId) : exec (.mmStore g) s = .next (settle (s.mmStoreRun g)) := rfl

/-- Settles O28: each command by the equation of its run, whose counts and corrections leave memory, buffers and queues alone. -/
theorem matrixCommandsComplete : Obligations.MatrixCommandsComplete := by
  refine ⟨fun g s x m ks hx hm hks hruns hfree hsound => ⟨_, exec_mm s g, ?mm⟩,
    fun g s x acc fmt count row rows hx hacc hfmt hcount hrow hrows hruns hport htile hfree hsound => ⟨_, exec_mmLoad s g, ?load⟩,
    fun g s x acc fmt count dst hx hacc hfmt hcount hdst hruns hport htile hkind hfree hsound => ⟨_, exec_mmStore s g, ?rows⟩,
    fun g s x acc fmt count dst i r hx hacc hfmt hcount hdst hruns hport htile hkind hring hask hfree hsound =>
      ⟨_, exec_mmStore s g, ?ring⟩⟩
  case mm =>
    subst hm hks
    rw [settle_mem, settle_bufs, settle_queues, mmRun_eq hx hruns hfree hsound]
    exact ⟨mmEnded_mem .., mmEnded_bufs .., mmEnded_queues ..⟩
  case load =>
    rw [settle_mem, settle_bufs, settle_queues, mmLoadRun_eq hx hacc hfmt hcount hrow hrows hruns hport htile hfree hsound, opDone_mem,
      opDone_bufs]
    exact ⟨mmLoaded_mem .., opDone_queues_congr (mmLoaded_queues ..) .., mmLoaded_bufs ..⟩
  case rows =>
    have stored := mmStored_alike g fmt acc count dst (bitAt x.e.cmd.w4 7) (bitAt x.e.cmd.w4 6) (.refl s)
    rw [settle_mem, settle_bufs, settle_queues, mmStoreRun_rows hx hacc hfmt hcount hdst hruns hport htile hkind hfree hsound, opDone_mem,
      opDone_bufs, stored.mem]
    exact ⟨opDone_queues_congr (mmStored_queues ..) .., rfl, stored.bufs, mmStoreGroups_frame s g fmt acc dst _ _ _⟩
  case ring =>
    obtain ⟨t, granted⟩ : ∃ t, s.ringAsk r true (.cmd (unitEng g 0) x.id) (s.ftCore g) = (.slot i, t) := ⟨_, Prod.ext hask rfl⟩
    obtain ⟨asked, samples⟩ := ringAsk_alike granted
    have stored := mmStored_alike g fmt acc count (r.first + i * r.slotRows) (bitAt x.e.cmd.w4 7) (bitAt x.e.cmd.w4 6) asked
    have released := ringRelease_alike (t.mmStored g fmt acc count (r.first + i * r.slotRows) (bitAt x.e.cmd.w4 7) (bitAt x.e.cmd.w4 6))
      r.part r.number i true
    have queues := released.queues.trans ((mmStored_queues ..).trans asked.queues)
    rw [settle_mem, settle_bufs, settle_queues, mmStoreRun_ring hx hacc hfmt hcount hdst hruns hport htile hkind hring granted
      ((lockedMem_congr samples ..).trans hfree) ((asked.badTile ..).trans hsound), opDone_mem, opDone_bufs]
    refine ⟨opDone_queues_congr queues .., released.mem.trans stored.mem, released.bufs.trans stored.bufs, ?_⟩
    rw [ringSt_congr ((settle_rings _).trans (opDone_rings ..)), slot_ringRelease]

end Sys2Proof.Machine
end

section
/-! The statement on data movement (O20): lane maps of any width, and results in scalar registers (R94, R130, R142). -/

namespace Sys2Proof.Machine

variable {s : State} {g n w : Nat} {op : VOp} {q : Gang} {la : Launch} {l : ILine}

/-! ## Lane maps of any width -/

/-- A lane map of a width that the instruction fixes has its result. -/
theorem laneResult_advance (s : State) (g n w : Nat) (q : Gang) (la : Launch) (l : ILine) (k : Nat) (wide : Bool) (f : Nat → Nat) :
    LaneResult s (settle ((s.issued g la l k).advance g n (laneMap q w wide f))) g n w q wide f := by
  obtain ⟨hframe, hgang⟩ := vecFrame_setGang s g n la l k { laneMap q w wide f with pc := (laneMap q w wide f).pc + 1, wait := .run }
  obtain ⟨hm, hsr, hpc, hem, hst, hla, hin, hout⟩ := laneFold wide (vD w) f (q.lanes w) (lanes_lt q w) (nodup_lanes q w) q
  refine ⟨hframe, _, hgang, ⟨congrArg (· + 1) hpc, hem, hst, rfl, hla⟩, hm, hsr,
    fun j hj ha => hin j ((mem_lanes q w j).2 ⟨hj, ha⟩), fun r j hj hr => hout r j hj (hr.imp_left fun ha hmem => ?_)⟩
  rw [((mem_lanes q w j).1 hmem).2] at ha
  cases ha

/-! ## Scalar registers -/

/-- Writing a scalar register leaves every other one. -/
theorem Gang.sreg_setSreg_ne (q : Gang) {r k : Nat} (x : Nat) (h : k ≠ r) : (q.setSreg r x).sreg k = q.sreg k :=
  mgetD_mputD_ne _ _ _ _ h

/-- A scalar register or pair reads what was written to it. -/
theorem Gang.sread_swrite (q : Gang) (wide : Bool) (r x : Nat) :
    (q.swrite wide r x).sread wide r = x % 2 ^ (if wide then 64 else 32) := by
  cases wide
  · simp [Gang.swrite, Gang.sread, Gang.sreg_setSreg_same]
  · have hlow : ((q.setSreg r x).setSreg (r + 1) (x / 2 ^ 32)).sreg r = x % 2 ^ 32 := by
      rw [Gang.sreg_setSreg_ne _ _ (by omega), Gang.sreg_setSreg_same]
    simp only [Gang.swrite, Gang.sread, if_true, hlow, Gang.sreg_setSreg_same]
    omega

/-- Writing a scalar register or pair leaves every other one. -/
theorem Gang.sreg_swrite_ne (q : Gang) (wide : Bool) (r x : Nat) {k : Nat} (h : k ≠ r) (h' : wide = true → k ≠ r + 1) :
    (q.swrite wide r x).sreg k = q.sreg k := by
  cases wide
  · exact Gang.sreg_setSreg_ne q x h
  · exact (Gang.sreg_setSreg_ne _ _ (h' rfl)).trans (Gang.sreg_setSreg_ne q x h)

/-- Writing a scalar register or pair leaves every other part of the gang. -/
theorem Gang.swrite_eq (q : Gang) (wide : Bool) (r x : Nat) : ∃ sr, q.swrite wide r x = { q with sr := sr } := by
  cases wide <;> exact ⟨_, rfl⟩

/-- An instruction that writes a scalar register or pair has its result. -/
theorem scalarResult_advance (s : State) (g n d : Nat) (q : Gang) (la : Launch) (l : ILine) (k : Nat) (wide : Bool) (x : Nat) :
    ScalarResult s (settle ((s.issued g la l k).advance g n (q.swrite wide d x))) g n d q wide x := by
  obtain ⟨hframe, hgang⟩ := vecFrame_setGang s g n la l k { q.swrite wide d x with pc := (q.swrite wide d x).pc + 1, wait := .run }
  refine ⟨hframe, _, hgang, ?_, ?_, ?_, Gang.sread_swrite q wide d x, fun r => Gang.sreg_swrite_ne q wide d x⟩
  all_goals
    obtain ⟨sr, h⟩ := q.swrite_eq wide d x
    rw [h]
  exact ⟨rfl, rfl, rfl, rfl, rfl⟩

/-! ## The instructions -/

/-- movi into a vector register maps the immediate to the active lanes. -/
theorem exec_vMovi_vector {g : CoreId} {n : GangId} (h : Issues s g n .movi w q la l) (hs : vSa w = false) :
    exec (.vMovi g n) s = .next (settle ((s.issued g la l (q.errsRead .movi w).length).advance g n
      (laneMap q w false fun _ => vImm32 w))) :=
  (exec_issues (c := .vMovi g n) rfl h).trans (by rw [hs]; rfl)

/-- movi into a scalar register writes the immediate whatever lanes are active. -/
theorem exec_vMovi_scalar {g : CoreId} {n : GangId} (h : Issues s g n .movi w q la l) (hs : vSa w = true) :
    exec (.vMovi g n) s = .next (settle ((s.issued g la l (q.errsRead .movi w).length).advance g n
      (q.swrite false (vD w) (vImm32 w)))) :=
  (exec_issues (c := .vMovi g n) rfl h).trans (by rw [hs]; rfl)

/-- vtos of one of the 16 lanes writes that lane's word to a scalar register. -/
theorem exec_vVtos_lane {g : CoreId} {n : GangId} (h : Issues s g n .vtos w q la l) (hb : q.laneB w 0 < 16) :
    exec (.vVtos g n) s = .next (settle ((s.issued g la l (q.errsRead .vtos w).length).advance g n
      (q.swrite (vWide (vType w)) (vD w) (q.srcA w (q.laneB w 0))))) :=
  (exec_issues (c := .vVtos g n) rfl h).trans (by simp only [if_pos hb])

/-- Settles O20: shfl, mov and movi map the active lanes; movi to a scalar and vtos write a scalar register. -/
theorem vectorMoveResults : Obligations.VectorMoveResults := by
  refine ⟨fun g n s w q la l h => exec_laneResult rfl h rfl, fun g n s w q la l h => exec_laneResult rfl h ?mov,
    fun g n s w q la l h hs => ⟨_, exec_vMovi_vector h hs, laneResult_advance ..⟩,
    fun g n s w q la l h hs => ⟨_, exec_vMovi_scalar h hs, scalarResult_advance ..⟩,
    fun g n s w q la l h hb => ⟨_, exec_vVtos_lane h hb, scalarResult_advance ..⟩⟩
  case mov =>
    funext k
    simp only [beq_iff_eq]

end Sys2Proof.Machine
end

section
/-! What the issue of an instruction and the end of its duplicate leave: memory, rings, and whatever decides whether a row answers
(R120, R314, R458, R461). -/

namespace Sys2Proof.Machine

/-! ## States that differ in their records -/

/-- The state without registers and without what the issue of an instruction and the end of a duplicate record. -/
def State.unrecorded (s : State) : State :=
  { s with regs := [], carry := [], icache := [], launches := [], freeCtr := 0, samples := [], clu := [], queues := [], adds := [],
           msgNext := 0 }

/-- The fields that decide whether a row answers a core. -/
def reachFlds : List Fld :=
  [F.coreId_fenced, F.partPwrClu_state, F.hfPwrPart_dark, F.hfPwrTherm_state, F.hfLayoutStatus_hbmFixed, F.hfLayoutStatus_hbmMode,
   F.partD2dLink_state]

/-- A field that shares no bit with those that decide whether a row answers. -/
abbrev Fld.offReach (f : Fld) : Prop := ∀ k ∈ reachFlds, k.reg ≠ f.reg ∨ f.lo + f.len ≤ 64 ∧ k.apart f

/-- Two states that differ in records only: the fields and clocks that decide whether a row answers stand, and no sample is new. -/
structure State.Aside (s t : State) : Prop where
  rest : t.unrecorded = s.unrecorded
  rd : ∀ f ∈ reachFlds, ∀ i, t.rd f i = s.rd f i
  clocks : ∀ c, t.clockStopped c = s.clockStopped c
  samples : ∀ x ∈ t.samples, x ∈ s.samples

namespace State.Aside

variable {s t u : State}

theorem refl (s : State) : s.Aside s := ⟨rfl, fun _ _ _ => rfl, fun _ => rfl, fun _ h => h⟩

theorem trans (h : s.Aside t) (k : t.Aside u) : s.Aside u :=
  ⟨k.rest.trans h.rest, fun f hf i => (k.rd f hf i).trans (h.rd f hf i), fun c => (k.clocks c).trans (h.clocks c),
    fun x hx => h.samples x (k.samples x hx)⟩

/-- Whatever is read of the rest of the state. -/
theorem part {α : Type} (h : s.Aside t) (f : State → α) : f t.unrecorded = f s.unrecorded := congrArg f h.rest

theorem mem (h : s.Aside t) : t.mem = s.mem := h.part (·.mem)
theorem bufs (h : s.Aside t) : t.bufs = s.bufs := h.part (·.bufs)
theorem rings (h : s.Aside t) : t.rings = s.rings := h.part (·.rings)
theorem ringWaits (h : s.Aside t) : t.ringWaits = s.ringWaits := h.part (·.ringWaits)
theorem ringResets (h : s.Aside t) : t.ringResets = s.ringResets := h.part (·.ringResets)
theorem active (h : s.Aside t) : t.active = s.active := h.part (·.active)
theorem roles (h : s.Aside t) : t.roles = s.roles := h.part (·.roles)
theorem resets (h : s.Aside t) : t.resets = s.resets := h.part (·.resets)
theorem net (h : s.Aside t) : t.net = s.net := h.part (·.net)
theorem netWant (h : s.Aside t) : t.netWant = s.netWant := h.part (·.netWant)
theorem transitHold (h : s.Aside t) : t.transitHold = s.transitHold := h.part (·.transitHold)
theorem ft (h : s.Aside t) : t.ft = s.ft := h.part (·.ft)
theorem skew (h : s.Aside t) : t.skew = s.skew := h.part (·.skew)

/-! ## Operations that only record -/

theorem wr (s : State) (f : Fld) (i v : Nat) (hf : f.offReach) : s.Aside (s.wr f i v) where
  rest := rfl
  rd k hk j := by
    rcases hf k hk with hreg | ⟨hlen, hbits⟩
    · exact rd_wr_of_reg s f k i j v hreg
    · exact rd_wr_of_bits s f k i j v hlen hbits
  clocks _ := rfl
  samples _ h := h

theorem fresh (s : State) : s.Aside s.fresh.2 := ⟨rfl, fun _ _ _ => rfl, fun _ => rfl, fun _ h => h⟩

theorem sendAdd (s : State) (a : MarkAdd) : s.Aside (s.sendAdd a) := ⟨rfl, fun _ _ _ => rfl, fun _ => rfl, fun _ h => h⟩

theorem setQ (s : State) (u : Nat) (q : Queue) : s.Aside (s.setQ u q) :=
  have stored : s.Aside { s with queues := mputD s.queues u q {} } := ⟨rfl, fun _ _ _ => rfl, fun _ => rfl, fun _ h => h⟩
  stored.trans (wr _ F.qState_idle u _ (by decide))

/-- A cluster whose hold and frequency change stand runs as it did. -/
theorem setClu (s : State) (c : Nat) (x : Clu) (hold : x.hold = (s.cluSt c).hold) (fchg : x.fchg = (s.cluSt c).fchg) :
    s.Aside (s.setClu c x) where
  rest := rfl
  rd _ _ _ := rfl
  clocks k := by
    by_cases hk : k = c
    · subst hk
      have same : (s.setClu k x).cluSt k = x := mgetD_mputD_same ..
      rw [State.clockStopped, State.clockStopped, same, hold, fchg]
    · have other : (s.setClu c x).cluSt k = s.cluSt k := mgetD_mputD_ne _ _ _ _ hk
      rw [State.clockStopped, State.clockStopped, other]
  samples _ h := h

theorem dropSamples (s : State) (p : Sample → Bool) : s.Aside { s with samples := s.samples.filter p } :=
  ⟨rfl, fun _ _ _ => rfl, fun _ => rfl, fun _ h => (List.mem_filter.1 h).1⟩

/-- A fold of steps that only record. -/
theorem foldl {α : Type} {f : State → α → State} (hf : ∀ s x, State.Aside s (f s x)) (l : List α) (s : State) :
    s.Aside (l.foldl f s) := by
  induction l generalizing s with
  | nil => exact refl s
  | cons x l ih => exact (hf s x).trans (ih _)

/-! ## A duplicate's end -/

theorem assayLast (s : State) (x : Sample) (verdict cause : Nat) : s.Aside (s.assayLast x verdict cause) := by
  have recorded := (((wr s F.coreAssayLast_verdict x.core verdict (by decide)).trans
    (wr _ F.coreAssayLast_kind x.core x.kind (by decide))).trans
    (wr _ F.coreAssayLast_abandon x.core cause (by decide))).trans
    (wr _ F.coreAssayLast_witness x.core x.witness (by decide))
  unfold State.assayLast
  dsimp only
  split
  · exact recorded.trans (wr _ F.coreAssayLast_third _ _ (by decide))
  · exact (recorded.trans (fresh _)).trans (wr _ F.coreAssayLast_third _ _ (by decide))

/-- A core that served a sample is free again, and its cluster idle from now on. -/
theorem freeServer (s : State) (w : Nat) :
    s.Aside ((s.wr F.coreId_witness w 0).setClu (cluIdx w) { s.cluSt (cluIdx w) with busyAt := s.up }) :=
  have stands : (s.wr F.coreId_witness w 0).cluSt (cluIdx w) = s.cluSt (cluIdx w) := by rw [State.cluSt, State.wr_clu, State.cluSt]
  (wr s F.coreId_witness w 0 (by decide)).trans (setClu _ _ _ (by rw [stands]) (by rw [stands]))

theorem endSample (s : State) (x : Sample) : s.Aside (s.endSample x) := (dropSamples s _).trans (foldl freeServer _ _)

theorem flushHeld (s : State) (u : Nat) : s.Aside (s.flushHeld u) :=
  (setQ s u _).trans (foldl (fun s (h : HeldAdd) => sendAdd s h.add) _ _)

/-- An abandoned duplicate leaves what its core's instructions work on (R461). -/
theorem abandon (s : State) (x : Sample) (cause : Nat) : s.Aside (s.abandon x cause) := by
  have ended : s.Aside (((s.assayLast x 6 cause).inc F.coreAssayCnt2_abandoned x.core).endSample x) :=
    ((assayLast s x 6 cause).trans (wr _ F.coreAssayCnt2_abandoned x.core _ (by decide))).trans (endSample _ x)
  unfold State.abandon
  split
  · exact refl s
  · dsimp only
    split
    · exact (ended.trans (setQ _ x.unit _)).trans (flushHeld _ x.unit)
    · exact ended.trans (flushHeld _ x.unit)

theorem sampleKernel (s : State) (g id : Nat) : s.Aside (s.sampleKernel g id) := by
  unfold State.sampleKernel State.abandonOf
  split
  · exact refl s
  · exact abandon s _ 2

/-! ## The issue of an instruction -/

theorem issued (s : State) (g : Nat) (la : Launch) (l : ILine) (n : Nat) : s.Aside (s.issued g la l n) := by
  obtain ⟨ic, rg, ca, ls, fc, h, hreg⟩ := issued_eq s g la l n
  have apart : ∀ f ∈ reachFlds, f.reg ≠ .coreVecAct ∧ f.reg ≠ .coreVecStall ∧ f.reg ≠ .partMemCorr := by decide
  refine ⟨by rw [h]; rfl, fun f hf i => ?_, fun c => by rw [h]; rfl, fun x hx => by rw [h] at hx; exact hx⟩
  obtain ⟨hact, hstall, hcorr⟩ := apart f hf
  rw [State.rd, hreg f.reg i (.inl hact) (.inl hstall) (.inl hcorr), State.rd]

/-- The state a ring transfer acts in: issued, and its launch's duplicate abandoned (R458). -/
theorem issuedKernel (s : State) (g : Nat) (la : Launch) (l : ILine) (n : Nat) :
    s.Aside ((s.issued g la l n).sampleKernel g la.id) := (issued s g la l n).trans (sampleKernel _ g la.id)

/-! ## What reads the same -/

theorem ftCore (h : s.Aside t) (g : Nat) : t.ftCore g = s.ftCore g := by
  simp only [State.ftCore, State.ftAt, h.ft, h.skew]

theorem fenced (h : s.Aside t) (g : Nat) : t.fenced g = s.fenced g :=
  congrArg (· == 1) (h.rd F.coreId_fenced (by decide) g)

theorem ringDef (h : s.Aside t) (p n : Nat) : t.ringDef p n = s.ringDef p n := by
  simp only [State.ringDef, h.active]

theorem ringCore (h : s.Aside t) (r : Ring) : t.ringCore r = s.ringCore r := by
  simp only [State.ringCore, State.memberOf, h.roles]

theorem ringRow (h : s.Aside t) (r : Ring) (i k : Nat) : t.ringRow r i k = s.ringRow r i k := by
  simp only [State.ringRow, h.ringCore]

theorem hbmLocal (h : s.Aside t) : t.hbmLocal = s.hbmLocal := by
  simp (disch := decide) only [State.hbmLocal, State.flag, h.rd]

theorem partDark (h : s.Aside t) (p : Nat) : t.partDark p = s.partDark p := by
  simp (disch := decide) only [State.partDark, h.rd]

theorem cluOn (h : s.Aside t) (g : Nat) : t.cluOn g = s.cluOn g := by
  simp (disch := decide) only [State.cluOn, State.cluState, h.rd]

theorem coreInReset (h : s.Aside t) (g : Nat) : t.coreInReset g = s.coreInReset g := by
  simp only [State.coreInReset, h.resets]

theorem partInReset (h : s.Aside t) (p : Nat) : t.partInReset p = s.partInReset p := by
  simp only [State.partInReset, h.resets]

theorem stackOf (h : s.Aside t) (d : Nat) : t.stackOf d = s.stackOf d := by
  simp only [State.stackOf, h.hbmLocal]

theorem ownerOf (h : s.Aside t) (d : Nat) : t.ownerOf d = s.ownerOf d := by
  simp only [State.ownerOf, h.stackOf]

/-- A row refuses a core in both states or in neither (R314, R491). -/
theorem nack (h : s.Aside t) (g d : Nat) : t.nack g d = s.nack g d := by
  simp only [State.nack, h.ownerOf, h.partDark, h.coreInReset, h.partInReset, h.fenced, h.cluOn]

theorem rowPath (h : s.Aside t) (m : NetMap) (g d : Nat) (read : Bool) : t.rowPath m g d read = s.rowPath m g d read := by
  simp only [State.rowPath, State.rowPos, State.routeFor, State.rowIsEnd, State.isEnd, h.ownerOf, h.stackOf, h.roles, h.active]

/-- A row waits in the network in both states or in neither (R310, R315). -/
theorem rowHeld (h : s.Aside t) (g d : Nat) (read : Bool) : t.rowHeld g d read = s.rowHeld g d read := by
  simp (disch := decide) only [State.rowHeld, State.pathHeld, State.keyTrains, State.linkTrains, h.clocks, h.rowPath, h.net, h.netWant,
    h.transitHold, h.rd]

theorem lockedMem (h : s.Aside t) {d n : Nat} (free : s.lockedMem d n = false) : t.lockedMem d n = false :=
  List.any_eq_false.2 fun x hx => List.any_eq_false.1 free x (h.samples x hx)

theorem lockedBuf (h : s.Aside t) {a n : Nat} (free : s.lockedBuf a n = false) : t.lockedBuf a n = false :=
  List.any_eq_false.2 fun x hx => List.any_eq_false.1 free x (h.samples x hx)

end State.Aside

/-- What a sampled launch's rows are logged as leaves memory and buffers, whether its duplicate fits or is abandoned (R458). -/
theorem sampleRows_stores (s : State) (g id : Nat) (read wrote : List (Nat × Nat)) :
    (s.sampleRows g id read wrote).mem = s.mem ∧ (s.sampleRows g id read wrote).bufs = s.bufs := by
  unfold State.sampleRows
  split
  · exact ⟨rfl, rfl⟩
  · dsimp only
    split
    · exact ⟨(State.Aside.abandon ..).mem, (State.Aside.abandon ..).bufs⟩
    · exact ⟨rfl, rfl⟩

end Sys2Proof.Machine
end

section
/-! Row and ring transfers of the row stage (R133, R145, R146, R178, R179): one equation for each way a transfer goes. -/

namespace Sys2Proof.Machine

/-! ## Asking for a slot -/

section
variable {s t : State} {r : Ring} {wr : Bool} {who : Who} {now : Nat}

/-- What an access is answered, and what rings and waits become of it, depends on rings, waits and resets alone. -/
theorem State.Aside.ringAsk (h : s.Aside t) : t.ringAsk r wr who now = ((s.ringAsk r wr who now).1,
    { t with rings := (s.ringAsk r wr who now).2.rings, ringWaits := (s.ringAsk r wr who now).2.ringWaits }) := by
  simp only [State.ringAsk, State.setRing, ← ringSt_congr h.rings, ← h.rings, ← h.ringWaits, ← h.ringResets]
  generalize List.find? _ t.ringWaits = claimed
  cases claimed with
  | some x =>
    dsimp only
    cases x.slot <;> simp only [← h.rings, ← h.ringWaits]
  | none =>
    dsimp only
    split
    · rfl
    · split <;> simp only [← h.rings, ← h.ringWaits]

/-- An access is granted a slot, or faults and leaves everything, or waits and leaves every slot and pointer (R179). -/
theorem ringAsk_cases (s : State) (r : Ring) (wr : Bool) (who : Who) (now : Nat) :
    (∃ i, (s.ringAsk r wr who now).1 = .slot i) ∨ s.ringAsk r wr who now = (.fault, s)
    ∨ ∃ waits, s.ringAsk r wr who now = (.wait, { s with ringWaits := waits }) := by
  unfold State.ringAsk
  dsimp only
  split
  · split
    · exact .inl ⟨_, rfl⟩
    · exact .inr (.inr ⟨s.ringWaits, rfl⟩)
  · split
    · exact .inl ⟨_, rfl⟩
    · split
      · exact .inr (.inl rfl)
      · exact .inr (.inr ⟨_, rfl⟩)

theorem ringAsk_fault (h : (s.ringAsk r wr who now).1 = .fault) : s.ringAsk r wr who now = (.fault, s) := by
  rcases ringAsk_cases s r wr who now with ⟨i, hi⟩ | hf | ⟨waits, hw⟩
  · cases h.symm.trans hi
  · exact hf
  · rw [hw] at h
    cases h

theorem ringAsk_wait (h : (s.ringAsk r wr who now).1 = .wait) :
    ∃ waits, s.ringAsk r wr who now = (.wait, { s with ringWaits := waits }) := by
  rcases ringAsk_cases s r wr who now with ⟨i, hi⟩ | hf | hw
  · cases h.symm.trans hi
  · rw [hf] at h
    cases h
  · exact hw

end

/-! ## Row transfers -/

section
variable {s : State} {g n w : Nat} {q : Gang} {run : Nat → Nat → Nat → State → State}

theorem rowXfer_idle (h : q.active w = 0) : s.rowXfer g n w q run = s.advance g n q := by
  simp only [State.rowXfer, h, beq_self_eq_true, if_true]

theorem rowXfer_run (ha : q.active w ≠ 0) (hr : q.stageRow w + vCount w ≤ 256) (hm : q.memRow w + vCount w ≤ 3072) :
    s.rowXfer g n w q run = run (q.stageRow w) (q.memRow w) (vCount w) s := by
  simp only [State.rowXfer, beq_iff_eq, ha, if_false, Nat.not_lt.2 hr, Nat.not_lt.2 hm]

/-- Rows out of range fault, those of the row stage before those of core memory (R145). -/
theorem rowXfer_range (ha : q.active w ≠ 0) (h : 256 < q.stageRow w + vCount w ∨ 3072 < q.memRow w + vCount w) :
    s.rowXfer g n w q run = s.vecFault g n 0x49 (if 256 < q.stageRow w + vCount w then 4 else 3) (q.active w)
      (if 256 < q.stageRow w + vCount w then q.stageRow w else q.memRow w) := by
  by_cases hr : 256 < q.stageRow w + vCount w
  · simp only [State.rowXfer, beq_iff_eq, ha, if_false, hr, if_true]
  · simp only [State.rowXfer, beq_iff_eq, ha, if_false, hr, h.resolve_left hr, if_true]

end

/-! ## Ring transfers -/

/-- A ring transfer of the gang passes its checks and asks for a slot: it has active lanes, its rows fit the row stage and the slot, and
its ring is a core-memory ring that the core's fence does not hide (R146, R313). -/
structure State.RingOpen (s : State) (g w : Nat) (q : Gang) (r : Ring) : Prop where
  active : q.active w ≠ 0
  rows : q.stageRow w + vCount w ≤ 256
  ring : s.ringDef (partOf g) (q.memRow w) = some r
  place : r.place ≠ 2
  fits : vCount w ≤ r.slotRows
  fence : s.fenced g = false ∨ s.ringCore r = some g

/-- The core's fence does not hold an open transfer back (R313). -/
theorem State.RingOpen.clear {s : State} {g w : Nat} {q : Gang} {r : Ring} (h : s.RingOpen g w q r) :
    (s.fenced g && s.ringCore r != some g) = false := by
  rcases h.fence with h | h <;> simp [h]

theorem State.Aside.ringOpen {s t : State} {g w : Nat} {q : Gang} {r : Ring} (h : s.Aside t) (open_ : s.RingOpen g w q r) :
    t.RingOpen g w q r where
  active := open_.active
  rows := open_.rows
  ring := (h.ringDef ..).trans open_.ring
  place := open_.place
  fits := open_.fits
  fence := open_.fence.imp (h.fenced g).trans (h.ringCore r).trans

section
variable {s t u : State} {g n w i d : Nat} {q : Gang} {r : Ring} {write : Bool} {run : Nat → Nat → Nat → State → State × Bool}

theorem ringXfer_idle (h : q.active w = 0) : s.ringXfer g n w q write run = s.advance g n q := by
  simp only [State.ringXfer, h, beq_self_eq_true, if_true]

/-- In a strict ring a transfer whose slot is not ready faults (R179). -/
theorem ringXfer_fault (h : s.RingOpen g w q r) (ask : s.ringAsk r write (.gang g n) (s.ftCore g) = (.fault, t)) :
    s.ringXfer g n w q write run = t.vecFault g n 0x4E (if write then 2 else 1) (q.active w) (q.stageRow w) := by
  have clear := h.clear
  obtain ⟨ha, hrows, hring, hplace, hfits, -⟩ := h
  simp only [State.ringXfer, beq_iff_eq, ha, hring, hplace, if_false, Nat.not_lt.2 hrows, Nat.not_lt.2 hfits, clear,
    Bool.false_eq_true, ask]

/-- In a blocking ring it waits for its slot (R179). -/
theorem ringXfer_wait (h : s.RingOpen g w q r) (ask : s.ringAsk r write (.gang g n) (s.ftCore g) = (.wait, t)) :
    s.ringXfer g n w q write run = t.setGang g n { q with wait := .ring } := by
  have clear := h.clear
  obtain ⟨ha, hrows, hring, hplace, hfits, -⟩ := h
  simp only [State.ringXfer, beq_iff_eq, ha, hring, hplace, if_false, Nat.not_lt.2 hrows, Nat.not_lt.2 hfits, clear,
    Bool.false_eq_true, ask]

theorem ringReach_open {k : Nat} (hn : s.nack g d = none) (hh : s.rowHeld g d (!write) = false) :
    s.ringReach g d k write = (true, s) := by
  simp only [State.ringReach, hn, hh, Bool.not_false]

/-- A transfer whose slot answers moves its rows and releases the slot (R178). -/
theorem ringXfer_moves (h : s.RingOpen g w q r) (ask : s.ringAsk r write (.gang g n) (s.ftCore g) = (.slot i, t))
    (row : t.ringRow r i 0 = some d) (reach : t.ringReach g d (vCount w) write = (true, t))
    (free : (if write then t.lockedMem d (512 * vCount w) else t.lockedBuf (stageBuf g + 512 * q.stageRow w) (512 * vCount w)) = false)
    (moved : run (q.stageRow w) d (vCount w) t = (u, true)) :
    s.ringXfer g n w q write run = (u.ringRelease r.part r.number i write).advance g n q := by
  have clear := h.clear
  obtain ⟨ha, hrows, hring, hplace, hfits, -⟩ := h
  simp only [State.ringXfer, beq_iff_eq, ha, hring, hplace, if_false, Nat.not_lt.2 hrows, Nat.not_lt.2 hfits, clear,
    Bool.false_eq_true, ask, row, reach, free, moved]

end

end Sys2Proof.Machine
end

section
/-! The statement on row and ring transfers (O24): which rows move, what the ring's slot becomes, and when nothing moves (R133, R145,
R146, R178, R179). -/

namespace Sys2Proof.Machine

/-! ## What a transfer leaves -/

section
variable (s : State) (g n : Nat) (q : Gang)

/-- A gang stored at the end of an instruction reads back, and memory, buffers, rings and waits stand. -/
theorem settle_setGang_leaves : (settle (s.setGang g n q)).gang g n = some q ∧ (settle (s.setGang g n q)).mem = s.mem
    ∧ (settle (s.setGang g n q)).bufs = s.bufs ∧ (settle (s.setGang g n q)).rings = s.rings
    ∧ (settle (s.setGang g n q)).ringWaits = s.ringWaits := by
  refine ⟨?_, by rw [settle_mem, setGang_mem], by rw [settle_bufs, setGang_bufs], settle_rings _, settle_ringWaits _⟩
  rw [State.gang, settle_gangs, setGang_gangs, mget_mput_same]

end

section
variable (s : State) (g r d k : Nat)

/-- `k` rows of memory from `d` on read into the row stage from its row `r` on, with what the read corrects counted. -/
def State.rowsIn : State :=
  (s.corr d (512 * k)).putBufs (stageBuf g + 512 * r) ((s.corr d (512 * k)).mem.rdN d (512 * k))

/-- `k` rows of the row stage from its row `r` on written to memory from `d` on, with what the read corrects counted. -/
def State.rowsOut : State :=
  (s.corrBuf g (stageBuf g + 512 * r) (512 * k)).putMem d
    ((s.corrBuf g (stageBuf g + 512 * r) (512 * k)).bufs.rdN (stageBuf g + 512 * r) (512 * k))

theorem rowsIn_mem : (s.rowsIn g r d k).mem = s.mem := (State.Alike.corr ..).mem

theorem rowsIn_bufs : (s.rowsIn g r d k).bufs = s.bufs.wrN (stageBuf g + 512 * r) (s.mem.rdN d (512 * k)) := by
  show (s.corr d (512 * k)).bufs.wrN _ _ = _
  rw [(State.Alike.corr ..).bufs, (State.Alike.corr ..).mem]

theorem rowsOut_bufs : (s.rowsOut g r d k).bufs = s.bufs := (State.Alike.corrBuf ..).bufs

theorem rowsOut_mem : (s.rowsOut g r d k).mem = s.mem.wrN d (s.bufs.rdN (stageBuf g + 512 * r) (512 * k)) := by
  rw [State.rowsOut, putMem_mem, (State.Alike.corrBuf ..).mem, (State.Alike.corrBuf ..).bufs]

end

/-- Bytes outside those copied from one store to another stand. -/
theorem Store.rd_copy_outside (st src : Store) (a b m : Nat) {x : Nat} (h : x < a ∨ a + m ≤ x) :
    (st.wrN a (src.rdN b m)).rd x = st.rd x :=
  st.rd_wrN_outside a _ x (by rwa [Store.rdN, List.length_map, List.length_range])

/-! ## Row transfers -/

section
variable {s : State} {g : CoreId} {n : GangId} {w : Nat} {q : Gang} {la : Launch} {l : ILine}

/-- Both row transfers are `rowXfer` with a run of their own. -/
theorem exec_rowOp {op : VOp} {c : Instr} (hc : (op, c) ∈ [(VOp.rowld, Instr.vRowld g n), (.rowst, .vRowst g n)])
    (h : Issues s g n op w q la l) :
    ∃ run, exec c s = .next (settle ((s.issued g la l (q.errsRead op w).length).rowXfer g n w q run)) := by
  rcases (List.mem_cons.1 hc).imp_right List.mem_singleton.1 with hc | hc <;> cases hc
  · have issues := exec_issues (c := .vRowld g n) rfl h
    exact ⟨_, issues⟩
  · have issues := exec_issues (c := .vRowst g n) rfl h
    exact ⟨_, issues⟩

/-- The rows of core memory that a transfer moves, as ranges of addresses. -/
def rowSpans (g m k : Nat) : List (Nat × Nat) := (List.range k).map (fun i => (cmRow g (m + i), cmRow g (m + i + 1)))

theorem exec_vRowld_moves (h : Issues s g n .rowld w q la l) (ha : q.active w ≠ 0) (hr : q.stageRow w + vCount w ≤ 256)
    (hm : q.memRow w + vCount w ≤ 3072) (free : s.lockedBuf (stageBuf g + 512 * q.stageRow w) (512 * vCount w) = false)
    (sound : s.mem.hurt (cmRow g (q.memRow w)) (512 * vCount w) = false) :
    exec (.vRowld g n) s = .next (settle
      ((((s.issued g la l (q.errsRead .rowld w).length).rowsIn g (q.stageRow w) (cmRow g (q.memRow w)) (vCount w)).sampleRows g la.id
        (rowSpans g (q.memRow w) (vCount w)) []).advance g n q)) := by
  have aside := State.Aside.issued s g la l (q.errsRead .rowld w).length
  rw [exec_issues (c := .vRowld g n) rfl h, rowXfer_run ha hr hm, if_neg (Bool.eq_false_iff.1 (aside.lockedBuf free)),
    if_neg (Bool.eq_false_iff.1 ((congrArg (Store.hurt · _ _) aside.mem).trans sound))]
  rfl

theorem exec_vRowst_moves (h : Issues s g n .rowst w q la l) (ha : q.active w ≠ 0) (hr : q.stageRow w + vCount w ≤ 256)
    (hm : q.memRow w + vCount w ≤ 3072) (free : s.lockedMem (cmRow g (q.memRow w)) (512 * vCount w) = false)
    (sound : s.bufs.hurt (stageBuf g + 512 * q.stageRow w) (512 * vCount w) = false) :
    exec (.vRowst g n) s = .next (settle
      ((((s.issued g la l (q.errsRead .rowst w).length).rowsOut g (q.stageRow w) (cmRow g (q.memRow w)) (vCount w)).sampleRows g la.id
        [] (rowSpans g (q.memRow w) (vCount w))).advance g n q)) := by
  have aside := State.Aside.issued s g la l (q.errsRead .rowst w).length
  rw [exec_issues (c := .vRowst g n) rfl h, rowXfer_run ha hr hm, if_neg (Bool.eq_false_iff.1 (aside.lockedMem free)),
    if_neg (Bool.eq_false_iff.1 ((congrArg (Store.hurt · _ _) aside.bufs).trans sound))]
  rfl

end

/-! ## Ring transfers -/

section
variable {s t : State} {g n w i d : Nat} {q : Gang} {r : Ring} {write : Bool}

/-- A transfer whose slot is granted and answers finds memory and buffers as they were, moves its rows and releases the slot. -/
theorem State.Aside.ringXfer_moves (h : s.Aside t) (open_ : s.RingOpen g w q r)
    (ask : (s.ringAsk r write (.gang g n) (s.ftCore g)).1 = .slot i) (row : s.ringRow r i 0 = some d) (answers : s.nack g d = none)
    (flows : s.rowHeld g d (!write) = false)
    (free : (if write then s.lockedMem d (512 * vCount w) else s.lockedBuf (stageBuf g + 512 * q.stageRow w) (512 * vCount w)) = false) :
    ∃ u : State, u.mem = s.mem ∧ u.bufs = s.bufs ∧ ∀ run v, run (q.stageRow w) d (vCount w) u = (v, true) →
      t.ringXfer g n w q write run = (v.ringRelease r.part r.number i write).advance g n q := by
  obtain ⟨rg, ws, asked⟩ : ∃ rg ws, t.ringAsk r write (.gang g n) (t.ftCore g) = (.slot i, { t with rings := rg, ringWaits := ws }) :=
    ⟨_, _, by rw [h.ftCore, h.ringAsk, ask]⟩
  have locks : (if write then t.lockedMem d (512 * vCount w)
      else t.lockedBuf (stageBuf g + 512 * q.stageRow w) (512 * vCount w)) = false := by
    cases write
    · exact h.lockedBuf free
    · exact h.lockedMem free
  exact ⟨{ t with rings := rg, ringWaits := ws }, h.mem, h.bufs, fun run v moved =>
    Machine.ringXfer_moves (h.ringOpen open_) asked ((h.ringRow r i 0).trans row)
      (ringReach_open ((h.nack g d).trans answers) ((h.rowHeld g d _).trans flows)) locks moved⟩

end

section
variable {s : State} {g : CoreId} {n : GangId} {w : Nat} {q : Gang} {la : Launch} {l : ILine} {r : Ring}

/-- Both ring transfers are `ringXfer`, of their direction and with a run of their own. -/
theorem exec_ringOp {op : VOp} {c : Instr} {wr : Bool}
    (hc : (op, c, wr) ∈ [(VOp.ringrd, Instr.vRingrd g n, false), (.ringwr, .vRingwr g n, true)]) (h : Issues s g n op w q la l) :
    ∃ run, exec c s = .next (settle (((s.issued g la l (q.errsRead op w).length).sampleKernel g la.id).ringXfer g n w q wr run)) := by
  rcases (List.mem_cons.1 hc).imp_right List.mem_singleton.1 with hc | hc <;> cases hc
  · have issues := exec_issues (c := .vRingrd g n) rfl h
    exact ⟨_, issues⟩
  · have issues := exec_issues (c := .vRingwr g n) rfl h
    exact ⟨_, issues⟩

theorem exec_vRingrd_moves {i d : Nat} (h : Issues s g n .ringrd w q la l) (open_ : s.RingOpen g w q r)
    (ask : (s.ringAsk r false (.gang g n) (s.ftCore g)).1 = .slot i) (row : s.ringRow r i 0 = some d) (answers : s.nack g d = none)
    (flows : s.rowHeld g d true = false) (free : s.lockedBuf (stageBuf g + 512 * q.stageRow w) (512 * vCount w) = false)
    (sound : s.mem.hurt d (512 * vCount w) = false) :
    ∃ u : State, u.mem = s.mem ∧ u.bufs = s.bufs ∧ exec (.vRingrd g n) s = .next (settle
      (((u.rowsIn g (q.stageRow w) d (vCount w)).ringRelease r.part r.number i false).advance g n q)) := by
  obtain ⟨u, hmem, hbufs, moves⟩ := (State.Aside.issuedKernel s g la l (q.errsRead .ringrd w).length).ringXfer_moves open_ ask row
    answers flows free
  have whole : ¬ u.mem.hurt d (512 * vCount w) = true := by simp [hmem, sound]
  refine ⟨u, hmem, hbufs, ?_⟩
  rw [exec_issues (c := .vRingrd g n) rfl h, moves _ (u.rowsIn g (q.stageRow w) d (vCount w)) (if_neg whole)]

theorem exec_vRingwr_moves {i d : Nat} (h : Issues s g n .ringwr w q la l) (open_ : s.RingOpen g w q r)
    (ask : (s.ringAsk r true (.gang g n) (s.ftCore g)).1 = .slot i) (row : s.ringRow r i 0 = some d) (answers : s.nack g d = none)
    (flows : s.rowHeld g d false = false) (free : s.lockedMem d (512 * vCount w) = false)
    (sound : s.bufs.hurt (stageBuf g + 512 * q.stageRow w) (512 * vCount w) = false) :
    ∃ u : State, u.mem = s.mem ∧ u.bufs = s.bufs ∧ exec (.vRingwr g n) s = .next (settle
      (((u.rowsOut g (q.stageRow w) d (vCount w)).ringRelease r.part r.number i true).advance g n q)) := by
  obtain ⟨u, hmem, hbufs, moves⟩ := (State.Aside.issuedKernel s g la l (q.errsRead .ringwr w).length).ringXfer_moves open_ ask row
    answers flows free
  have whole : ¬ u.bufs.hurt (stageBuf g + 512 * q.stageRow w) (512 * vCount w) = true := by simp [hbufs, sound]
  refine ⟨u, hmem, hbufs, ?_⟩
  rw [exec_issues (c := .vRingwr g n) rfl h, moves _ (u.rowsOut g (q.stageRow w) d (vCount w)) (if_neg whole)]

/-- A transfer that is refused its slot ends in the fault of its direction (R179). -/
theorem exec_ringOp_fault {op : VOp} {c : Instr} {wr : Bool}
    (hc : (op, c, wr) ∈ [(VOp.ringrd, Instr.vRingrd g n, false), (.ringwr, .vRingwr g n, true)]) (h : Issues s g n op w q la l)
    (open_ : s.RingOpen g w q r) (ask : (s.ringAsk r wr (.gang g n) (s.ftCore g)).1 = .fault) :
    exec c s = .next (settle (((s.issued g la l (q.errsRead op w).length).sampleKernel g la.id).vecFault g n 0x4E
      (if wr then 2 else 1) (q.active w) (q.stageRow w))) := by
  have aside := State.Aside.issuedKernel s g la l (q.errsRead op w).length
  obtain ⟨run, hrun⟩ := exec_ringOp hc h
  rw [hrun, ringXfer_fault (aside.ringOpen open_) (ringAsk_fault ?_)]
  rw [aside.ftCore, aside.ringAsk, ask]

/-- A transfer that waits for its slot moves nothing (R179). -/
theorem exec_ringOp_wait {op : VOp} {c : Instr} {wr : Bool}
    (hc : (op, c, wr) ∈ [(VOp.ringrd, Instr.vRingrd g n, false), (.ringwr, .vRingwr g n, true)]) (h : Issues s g n op w q la l)
    (open_ : s.RingOpen g w q r) (ask : (s.ringAsk r wr (.gang g n) (s.ftCore g)).1 = .wait) :
    ∃ u : State, u.mem = s.mem ∧ u.bufs = s.bufs ∧ u.rings = s.rings
      ∧ u.ringWaits = (s.ringAsk r wr (.gang g n) (s.ftCore g)).2.ringWaits
      ∧ exec c s = .next (settle (u.setGang g n { q with wait := .ring })) := by
  have aside := State.Aside.issuedKernel s g la l (q.errsRead op w).length
  obtain ⟨run, hrun⟩ := exec_ringOp hc h
  obtain ⟨ws, hws⟩ := ringAsk_wait ask
  generalize (s.issued g la l (q.errsRead op w).length).sampleKernel g la.id = t at aside hrun
  have asked : t.ringAsk r wr (.gang g n) (t.ftCore g) = (.wait, { t with rings := s.rings, ringWaits := ws }) := by
    rw [aside.ftCore, aside.ringAsk, hws]
  rw [hrun, ringXfer_wait (aside.ringOpen open_) asked, hws]
  exact ⟨{ t with rings := s.rings, ringWaits := ws }, aside.mem, aside.bufs, rfl, rfl, rfl⟩

end

/-! ## The statement -/

/-- A transfer that logged its rows has moved on, and the log leaves memory and buffers (R458). -/
theorem settle_logged_leaves (v : State) (g n id : Nat) (read wrote : List (Nat × Nat)) (q : Gang) :
    (settle ((v.sampleRows g id read wrote).advance g n q)).gang g n = some { q with pc := q.pc + 1, wait := .run }
    ∧ (settle ((v.sampleRows g id read wrote).advance g n q)).mem = v.mem
    ∧ (settle ((v.sampleRows g id read wrote).advance g n q)).bufs = v.bufs := by
  obtain ⟨hgang, hmem, hbufs, -⟩ := settle_setGang_leaves (v.sampleRows g id read wrote) g n { q with pc := q.pc + 1, wait := .run }
  obtain ⟨smem, sbufs⟩ := sampleRows_stores v g id read wrote
  exact ⟨hgang, hmem.trans smem, hbufs.trans sbufs⟩

/-- A transfer that released its slot has moved on; the slot is FULL after a write and EMPTY after a read (R178). -/
theorem settle_released_leaves (v : State) (g n p k i : Nat) (wr : Bool) (q : Gang) :
    (settle ((v.ringRelease p k i wr).advance g n q)).gang g n = some { q with pc := q.pc + 1, wait := .run }
    ∧ (settle ((v.ringRelease p k i wr).advance g n q)).mem = v.mem ∧ (settle ((v.ringRelease p k i wr).advance g n q)).bufs = v.bufs
    ∧ ((settle ((v.ringRelease p k i wr).advance g n q)).ringSt p k).slot i = { full := wr } := by
  obtain ⟨hgang, hmem, hbufs, hrings, -⟩ := settle_setGang_leaves (v.ringRelease p k i wr) g n { q with pc := q.pc + 1, wait := .run }
  obtain ⟨rmem, rbufs, -⟩ := ringRelease_alike v p k i wr
  refine ⟨hgang, hmem.trans rmem, hbufs.trans rbufs, ?_⟩
  rw [State.advance, ringSt_congr hrings, slot_ringRelease]

/-- Settles O24: each transfer by the equation of the way it goes. -/
theorem rowTransfersComplete : Obligations.RowTransfersComplete := by
  refine ⟨fun g n s w q la l h ha hr hm free sound => ⟨_, exec_vRowld_moves h ha hr hm free sound, ?load⟩,
    fun g n s w q la l h ha hr hm free sound => ⟨_, exec_vRowst_moves h ha hr hm free sound, ?store⟩,
    fun g n s w i d q la l r h ha hr hdef hplace hfits hfence ask row answers flows free sound => ?read,
    fun g n s w i d q la l r h ha hr hdef hplace hfits hfence ask row answers flows free sound => ?write,
    fun g n s w q la l op c hc h ha => ?rowIdle, fun g n s w q la l op c hc h ha => ?ringIdle,
    fun g n s w q la l op c hc h ha hrange => ?range,
    fun g n s w q la l r op c wr hc h ha hr hdef hplace hfits hfence ask => ?wait,
    fun g n s w q la l r op c wr hc h ha hr hdef hplace hfits hfence ask =>
      exec_ringOp_fault hc h ⟨ha, hr, hdef, hplace, hfits, hfence⟩ ask⟩
  case load =>
    have aside := State.Aside.issued s g la l (q.errsRead .rowld w).length
    obtain ⟨hgang, hmem, hbufs⟩ := settle_logged_leaves
      ((s.issued g la l (q.errsRead .rowld w).length).rowsIn g (q.stageRow w) (cmRow g (q.memRow w)) (vCount w)) g n la.id
      (rowSpans g (q.memRow w) (vCount w)) [] q
    rw [rowsIn_mem, aside.mem] at hmem
    rw [rowsIn_bufs, aside.mem, aside.bufs] at hbufs
    exact ⟨hgang, hmem, hbufs, fun a ha => by rw [hbufs, Store.rd_copy_outside _ _ _ _ _ ha]⟩
  case store =>
    have aside := State.Aside.issued s g la l (q.errsRead .rowst w).length
    obtain ⟨hgang, hmem, hbufs⟩ := settle_logged_leaves
      ((s.issued g la l (q.errsRead .rowst w).length).rowsOut g (q.stageRow w) (cmRow g (q.memRow w)) (vCount w)) g n la.id
      [] (rowSpans g (q.memRow w) (vCount w)) q
    rw [rowsOut_mem, aside.mem, aside.bufs] at hmem
    rw [rowsOut_bufs, aside.bufs] at hbufs
    exact ⟨hgang, hbufs, hmem, fun a ha => by rw [hmem, Store.rd_copy_outside _ _ _ _ _ ha]⟩
  case read =>
    obtain ⟨u, umem, ubufs, hexec⟩ := exec_vRingrd_moves h ⟨ha, hr, hdef, hplace, hfits, hfence⟩ ask row answers flows free sound
    obtain ⟨hgang, hmem, hbufs, hslot⟩ := settle_released_leaves (u.rowsIn g (q.stageRow w) d (vCount w)) g n r.part r.number i false q
    rw [rowsIn_mem, umem] at hmem
    rw [rowsIn_bufs, umem, ubufs] at hbufs
    exact ⟨_, hexec, hgang, hmem, hbufs, hslot⟩
  case write =>
    obtain ⟨u, umem, ubufs, hexec⟩ := exec_vRingwr_moves h ⟨ha, hr, hdef, hplace, hfits, hfence⟩ ask row answers flows free sound
    obtain ⟨hgang, hmem, hbufs, hslot⟩ := settle_released_leaves (u.rowsOut g (q.stageRow w) d (vCount w)) g n r.part r.number i true q
    rw [rowsOut_mem, umem, ubufs] at hmem
    rw [rowsOut_bufs, ubufs] at hbufs
    exact ⟨_, hexec, hgang, hbufs, hmem, hslot⟩
  case rowIdle =>
    obtain ⟨run, hrun⟩ := exec_rowOp hc h
    rw [rowXfer_idle ha] at hrun
    exact ⟨_, hrun, vecFrame_setGang ..⟩
  case ringIdle =>
    obtain ⟨wr, hwr⟩ : ∃ wr, (op, c, wr) ∈ [(VOp.ringrd, Instr.vRingrd g n, false), (.ringwr, .vRingwr g n, true)] := by
      rcases (List.mem_cons.1 hc).imp_right List.mem_singleton.1 with hc | hc <;> cases hc
      · exact ⟨false, .head _⟩
      · exact ⟨true, .tail _ (.head _)⟩
    have aside := State.Aside.issuedKernel s g la l (q.errsRead op w).length
    obtain ⟨run, hrun⟩ := exec_ringOp hwr h
    rw [ringXfer_idle ha] at hrun
    obtain ⟨hgang, hmem, hbufs, hrings, -⟩ := settle_setGang_leaves ((s.issued g la l (q.errsRead op w).length).sampleKernel g la.id) g n
      { q with pc := q.pc + 1, wait := .run }
    exact ⟨_, hrun, hgang, hmem.trans aside.mem, hbufs.trans aside.bufs, hrings.trans aside.rings⟩
  case range =>
    obtain ⟨run, hrun⟩ := exec_rowOp hc h
    rw [hrun, rowXfer_range ha hrange]
  case wait =>
    obtain ⟨u, umem, ubufs, urings, uwaits, hexec⟩ := exec_ringOp_wait hc h ⟨ha, hr, hdef, hplace, hfits, hfence⟩ ask
    obtain ⟨hgang, hmem, hbufs, hrings, hwaits⟩ := settle_setGang_leaves u g n { q with wait := .ring }
    exact ⟨_, hexec, hgang, hmem.trans umem, hbufs.trans ubufs, hrings.trans urings, hwaits.trans uwaits⟩

end Sys2Proof.Machine
end

section
/-! UPD (R151, R158, R160 to R166, R171): what a group computes from its rows, the rows it fills, that nothing else changes in memory, and
the command on all its groups. -/

namespace Sys2Proof.Machine

/-! ## Records -/

namespace State.Alike

theorem wr (s : State) (f : Fld) (i v : Nat) : s.Alike (s.wr f i v) := ⟨State.wr_mem .., State.wr_bufs .., State.wr_queues ..⟩

theorem arithBit (s : State) (g : Nat) (f : Fld) (on : Bool) : s.Alike (s.arithBit g f on) := ite (wr s f g 1) (refl s)

theorem fresh (s : State) : s.Alike s.fresh.2 := ⟨rfl, rfl, rfl⟩

/-- A fold of steps that each change records only. -/
theorem records {α : Type} {f : State → α → State} (hf : ∀ s x, State.Alike s (f s x)) (l : List α) (s : State) :
    s.Alike (l.foldl f s) := by
  induction l generalizing s with
  | nil => exact refl s
  | cons x l ih => exact (hf s x).trans (ih _)

end State.Alike

/-! ## What a group computes -/

section
variable {s t : State} (g : Nat) (u : UpdCmd) (r : UpdRow) (j : Nat)

/-- A group's elements of a state in memory, with fresh check bits for the whole row (R171). -/
def UpdCmd.putState (u : UpdCmd) (g j : Nat) (m : Store) (row : Nat) (l : List Byte) : Store :=
  (m.wrN (sAddr g u row j 0) l).clean (cmRow g (row + (if u.sBf then j / 2 else j))) 512

/-- Address of the byte that holds a group's fresh bit. -/
def UpdCmd.freshAddr (u : UpdCmd) (g j : Nat) : Nat := cmRow g u.fresh + (u.freshBit + j) / 8

/-- A group's fresh bit cleared, with fresh check bits for its row (R163, R171). -/
def UpdCmd.clearFresh (u : UpdCmd) (g j : Nat) (m : Store) : Store :=
  (m.wr (u.freshAddr g j) (BitVec.ofNat 8 (putBits (m.rd (u.freshAddr g j)).toNat ((u.freshBit + j) % 8) 1 0))).clean (cmRow g u.fresh) 512

/-- The results of a group's 128 elements. -/
def State.updOuts (s : State) (g : Nat) (u : UpdCmd) (r : UpdRow) (j : Nat) : List UpdOut :=
  (List.range 128).map (fun i =>
    updElem u r (s.frozenOf g u j i) (s.mem.rdLE (cmRow g (u.p + j) + 4 * i) 4) (s.updS g u u.s1 j i (s.freshOf g u j))
      (s.updS g u u.s2 j i (s.freshOf g u j)) (s.updG g u j i))

/-- Memory with a group's results: the parameters, the states that the command has, and the fresh bit cleared where it was set. -/
def State.updStore (s : State) (g : Nat) (u : UpdCmd) (r : UpdRow) (j : Nat) : Store :=
  let outs := s.updOuts g u r j
  let m := s.mem.wrN (cmRow g (u.p + j)) (outs.flatMap (fun o => leBytes 4 o.p))
  let m := if 1 ≤ u.nstate then u.putState g j m u.s1 (outs.flatMap (fun o => leBytes u.sBytes o.s1)) else m
  let m := if u.nstate == 2 then u.putState g j m u.s2 (outs.flatMap (fun o => leBytes u.sBytes o.s2)) else m
  if s.freshOf g u j then u.clearFresh g j m else m

/-- What the results of a group leave in counters and sticky flags. -/
def State.updRecord (s : State) (g : Nat) (outs : List UpdOut) : State :=
  let s := s.counts g (Counts.sum (outs.map UpdOut.n))
  let s := s.arithBit g F.coreUpdSticky_pNonfinite (outs.any UpdOut.pBad)
  let s := s.arithBit g F.coreUpdSticky_sNonfinite (outs.any UpdOut.sBad)
  let fz := (outs.filter UpdOut.frozen).length
  (s.incUnit F.coreUpdAct_elemK g 1024 (128 - fz)).incUnit F.coreUpdAct_frozenK g 1024 fz

theorem updGroup_eq (s : State) : s.updGroup g u r j = ({ s with mem := s.updStore g u r j } : State).updRecord g (s.updOuts g u r j) := rfl

theorem updRecord_alike (s : State) (outs : List UpdOut) : s.Alike (s.updRecord g outs) :=
  ((((State.Alike.counts ..).trans (.arithBit ..)).trans (.arithBit ..)).trans (.incUnit ..)).trans (.incUnit ..)

theorem updGroup_mem (s : State) : (s.updGroup g u r j).mem = s.updStore g u r j := by
  rw [updGroup_eq]
  exact (updRecord_alike ..).mem

theorem updGroup_bufs (s : State) : (s.updGroup g u r j).bufs = s.bufs := by
  rw [updGroup_eq]
  exact (updRecord_alike ..).bufs

theorem updGroup_queues (s : State) : (s.updGroup g u r j).queues = s.queues := by
  rw [updGroup_eq]
  exact (updRecord_alike ..).queues

/-- A group's results depend on memory alone. -/
theorem State.Alike.updOuts (h : s.Alike t) : t.updOuts g u r j = s.updOuts g u r j :=
  congrArg (fun m => State.updOuts { s with mem := m } g u r j) h.mem

theorem State.Alike.freshOf (h : s.Alike t) : t.freshOf g u j = s.freshOf g u j := by
  simp only [State.freshOf, h.mem]

theorem State.Alike.updStore (h : s.Alike t) : t.updStore g u r j = s.updStore g u r j := by
  simp only [State.updStore, h.updOuts, h.freshOf, h.mem]

theorem State.Alike.updGroup (h : s.Alike t) : (s.updGroup g u r j).Alike (t.updGroup g u r j) where
  mem := by rw [updGroup_mem, updGroup_mem, h.updStore]
  bufs := by rw [updGroup_bufs, updGroup_bufs, h.bufs]
  queues := by rw [updGroup_queues, updGroup_queues, h.queues]

end

/-! ## What a group leaves in memory -/

section
variable {c : Cmd} {g a : Nat} {u : UpdCmd} {j : Nat}

/-- The address lies outside a range of rows of a core's memory. -/
abbrev offRows (g a row n : Nat) : Prop := a < cmRow g row ∨ cmRow g (row + n) ≤ a

/-- Row by row or two groups to a row, a group's elements of a state lie in the rows of that state (R160). -/
theorem sAddr_inside (hj : j < u.count) (g row : Nat) :
    cmRow g row ≤ sAddr g u row j 0 ∧ sAddr g u row j 0 + 128 * u.sBytes ≤ cmRow g (row + u.sRows) := by
  unfold sAddr UpdCmd.sBytes UpdCmd.sRows ceilDiv
  split
  · simp only [cmRow_add]
    omega
  · simp only [cmRow_add]
    omega

/-- A fresh bit lies in the row of fresh bits. -/
theorem freshAddr_inside (hfit : u.freshBit + u.count ≤ 4096) (hj : j < u.count) (g : Nat) :
    cmRow g u.fresh ≤ u.freshAddr g j ∧ u.freshAddr g j < cmRow g (u.fresh + 1) := by
  rw [cmRow_add, UpdCmd.freshAddr]
  omega

/-- The bytes of one field of a group's 128 elements. -/
theorem length_updBytes (s : State) (r : UpdRow) (j n : Nat) (f : UpdOut → Nat) :
    ((s.updOuts g u r j).flatMap (fun o => leBytes n (f o))).length = 128 * n := by
  rw [length_flatMap_of_forall (fun _ _ => length_leBytes ..), State.updOuts, List.length_map, List.length_range]

theorem rd_putState_outside (hj : j < u.count) (m : Store) (row : Nat) (l : List Byte) (hl : l.length = 128 * u.sBytes)
    (ha : offRows g a row u.sRows) : (u.putState g j m row l).rd a = m.rd a := by
  obtain ⟨lo, hi⟩ := sAddr_inside hj g row
  exact Store.rd_wrN_outside _ _ _ _ (by omega)

theorem rd_clearFresh_outside (hfit : u.freshBit + u.count ≤ 4096) (hj : j < u.count) (m : Store) (ha : offRows g a u.fresh 1) :
    (u.clearFresh g j m).rd a = m.rd a := by
  obtain ⟨lo, hi⟩ := freshAddr_inside hfit hj g
  exact Store.rd_wr_ne _ _ (by omega)

theorem mem_writes_p (u : UpdCmd) : (u.p, u.count) ∈ u.writes := by simp [UpdCmd.writes]
theorem mem_writes_s1 (h : 1 ≤ u.nstate) : (u.s1, u.sRows) ∈ u.writes := by simp [UpdCmd.writes, h]
theorem mem_writes_fresh (h : 1 ≤ u.nstate) : (u.fresh, 1) ∈ u.writes := by simp [UpdCmd.writes, h]
theorem mem_writes_s2 (h : u.nstate = 2) : (u.s2, u.sRows) ∈ u.writes := by simp [UpdCmd.writes, h]

/-- Only a command that stores states has fresh groups (R163). -/
theorem nstate_pos_of_fresh {s : State} (h : s.freshOf g u j = true) : 1 ≤ u.nstate :=
  of_decide_eq_true (Bool.and_eq_true_iff.1 h).1

/-- Check 0x52 keeps the fresh bits of a command in one row (R165). -/
theorem freshBit_fits (h : updCheck c = 0) : (UpdCmd.of c).freshBit + (UpdCmd.of c).count ≤ 4096 := by
  unfold updCheck at h
  dsimp only at h
  split at h
  · contradiction
  split at h
  · contradiction
  next rows =>
    simp only [Bool.or_eq_true, decide_eq_true_eq, not_or] at rows
    obtain ⟨⟨⟨-, fits⟩, -⟩, -⟩ := rows
    omega

/-- A byte that a change of the store leaves stands whether or not the change is made. -/
theorem Store.rd_ite_of {p : Prop} [Decidable p] {m m' : Store} (h : p → m'.rd a = m.rd a) : (if p then m' else m).rd a = m.rd a := by
  split
  · next hp => exact h hp
  · rfl

/-- A group writes no byte outside the rows that its command names. -/
theorem updStore_frame (s : State) (r : UpdRow) (hfit : u.freshBit + u.count ≤ 4096) (hj : j < u.count)
    (ha : ∀ w ∈ u.writes, offRows g a w.1 w.2) : (s.updStore g u r j).rd a = s.mem.rd a := by
  have param : (s.mem.wrN (cmRow g (u.p + j)) ((s.updOuts g u r j).flatMap (fun o => leBytes 4 o.p))).rd a = s.mem.rd a := by
    have outside : offRows g a u.p u.count := ha _ (mem_writes_p u)
    rw [offRows, cmRow_add] at outside
    refine Store.rd_wrN_outside _ _ _ _ ?_
    rw [length_updBytes, cmRow_add]
    omega
  unfold State.updStore
  dsimp only
  rw [Store.rd_ite_of (fun h => rd_clearFresh_outside hfit hj _ (ha _ (mem_writes_fresh (nstate_pos_of_fresh h)))),
    Store.rd_ite_of (fun h => rd_putState_outside hj _ _ _ (length_updBytes ..) (ha _ (mem_writes_s2 (beq_iff_eq.1 h)))),
    Store.rd_ite_of (fun h => rd_putState_outside hj _ _ _ (length_updBytes ..) (ha _ (mem_writes_s1 h))), param]

end

/-! ## The groups of a command -/

section
variable {s t : State} (g : Nat) (u : UpdCmd) (r : UpdRow) (n : Nat)

/-- The first groups of a command, one after the other. -/
def State.updGroups (s : State) (g : Nat) (u : UpdCmd) (r : UpdRow) (n : Nat) : State := loop n (fun i s => s.updGroup g u r i) s

theorem State.Alike.updGroups (h : s.Alike t) : (s.updGroups g u r n).Alike (t.updGroups g u r n) :=
  .loop n (fun i _ _ h => h.updGroup g u r i) h

/-- A part of the state that every group leaves, all groups leave. -/
theorem updGroups_leaves {β : Type} (q : State → β) (h : ∀ i < n, ∀ t : State, q (t.updGroup g u r i) = q t) (s : State) :
    q (s.updGroups g u r n) = q s :=
  List.foldlRecOn (motive := fun t => q t = q s) (List.range n) _ rfl (fun t ht i hi => (h i (List.mem_range.1 hi) t).trans ht)

theorem updGroups_bufs (s : State) : (s.updGroups g u r n).bufs = s.bufs :=
  updGroups_leaves g u r n (·.bufs) (fun i _ t => updGroup_bufs g u r i t) s

theorem updGroups_queues (s : State) : (s.updGroups g u r n).queues = s.queues :=
  updGroups_leaves g u r n (·.queues) (fun i _ t => updGroup_queues g u r i t) s

theorem updGroups_frame (s : State) {a : Nat} (hfit : u.freshBit + u.count ≤ 4096) (ha : ∀ w ∈ u.writes, offRows g a w.1 w.2) :
    (s.updGroups g u r u.count).mem.rd a = s.mem.rd a :=
  updGroups_leaves g u r u.count (·.mem.rd a)
    (fun i hi t => (congrArg (·.rd a) (updGroup_mem g u r i t)).trans (updStore_frame t r hfit hi ha)) s

end

/-! ## The command -/

section
variable (s : State) (g : Nat) (u : UpdCmd) (r : UpdRow)

theorem updReads_alike (n : Nat) : s.Alike (s.updReads g u n) :=
  (((State.Alike.countWait ..).trans (.fresh _)).trans (.inc ..)).trans (.records (fun s k => .corr s (cmRow g k) 512) _ _)

/-- Every group of a command applied, its waits and the correctable errors of its reads counted. -/
def State.updDone (s : State) (g : Nat) (u : UpdCmd) (r : UpdRow) : State := (s.updReads g u u.count).updGroups g u r u.count

theorem updDone_alike : (s.updGroups g u r u.count).Alike (s.updDone g u r) := (updReads_alike ..).updGroups ..

end

/-- A UPD whose turn it is, with no locked row and no uncorrectable error in its way, applies all its groups. -/
theorem updRun_eq {s : State} {g : Nat} {x : Started} (hx : s.oldest (unitEng g 2) 0x60 = some x) (hruns : s.runs g = true)
    (hfree : ∀ w ∈ (UpdCmd.of x.e.cmd).writes, s.lockedMem (cmRow g w.1) (512 * w.2) = false)
    (hsound : ∀ j < (UpdCmd.of x.e.cmd).count, ∀ k ∈ (UpdCmd.of x.e.cmd).groupRows j, s.cmHurt g k = false) :
    s.updRun g = (s.updDone g (UpdCmd.of x.e.cmd) (UpdRow.ofWords x.prog.words)).opDone (unitEng g 2) x.id := by
  have hlock : (UpdCmd.of x.e.cmd).writes.any (fun w => s.lockedMem (cmRow g w.1) (512 * w.2)) = false :=
    List.any_eq_false.2 (fun w hw => Bool.eq_false_iff.1 (hfree w hw))
  have hnone : lowest (UpdCmd.of x.e.cmd).count (fun j => ((UpdCmd.of x.e.cmd).groupRows j).any (fun k => s.cmHurt g k)) = none :=
    List.find?_eq_none.2 (fun j hj => Bool.eq_false_iff.1
      (List.any_eq_false.2 (fun k hk => Bool.eq_false_iff.1 (hsound j (List.mem_range.1 hj) k hk))))
  simp only [State.updRun, hx, hruns, hlock, hnone, Bool.not_true, Bool.or_self, Bool.false_eq_true, if_false]
  rfl

end Sys2Proof.Machine
end

section
/-! Commits of update rows (R156, R157): the write that starts one, its instant, its adoption by the cores and its end. -/

namespace Sys2Proof.Machine

variable {s : State} {p : Nat}

/-! ## The go write -/

/-- PART_UPD_COMMIT as a write leaves it before go takes effect: go itself stands. -/
def State.commitFields (s : State) (p v : Nat) : State :=
  (s.softWr .partUpdCommit p v).wr F.partUpdCommit_go p (s.rd F.partUpdCommit_go p)

/-- A write of go with no commit pending starts one. -/
theorem commitWrite_go {v : Nat} (hgo : bitAt v 16 = true) (hfree : s.flag F.partUpdCommit_pending p = false) :
    s.commitWrite p v = (s.commitFields p v).commitGo p := by
  simp only [State.commitWrite, hgo, hfree, Bool.not_false, Bool.and_self, if_true]
  rfl

/-- The state a commit validates its staged rows in. -/
def State.validating (s : State) (p : Nat) : State := s.wr F.partUpdCommit_go p 1

/-- The first of the rows named that fails its validation. -/
def State.badRow (s : State) (p : Nat) : Option Nat :=
  (rowsOf (s.rd F.partUpdCommit_rows p)).find? (fun k => rowFault ((s.validating p).stagedRow p k) != 0)

/-- What a valid commit holds until its instant: the words of the rows named, and its mark (R156). -/
def State.validated (s : State) (p : Nat) : UpdPend where
  rows := s.rd F.partUpdCommit_rows p
  words := (rowsOf (s.rd F.partUpdCommit_rows p)).flatMap
    (fun r => (List.range 8).map (fun k => (8 * r + k, ((s.validating p).stagedRow p r).word k)))
  markEn := (s.validating p).flag F.partUpdCommit_markEn p
  mark := (s.validating p).rd F.partUpdCommit_mark p

/-- A commit with a row that fails ends at once, with the row and its fault. -/
theorem commitGo_bad {r : Nat} (h : s.badRow p = some r) :
    s.commitGo p = (((s.validating p).wr F.partUpdCommit_status p (rowFault ((s.validating p).stagedRow p r))).wr
      F.partUpdCommit_badRow p r).wr F.partUpdCommit_go p 0 := by
  unfold State.badRow State.validating at h
  simp only [State.commitGo, h]
  rfl

/-- Staged rows without a fault have no bad row among them. -/
theorem badRow_none (h : ∀ r ∈ rowsOf (s.rd F.partUpdCommit_rows p), rowFault ((s.validating p).stagedRow p r) = 0) : s.badRow p = none :=
  List.find?_eq_none.2 (fun r hr => by simp [h r hr])

/-- A commit that names no row ends at once. -/
theorem commitGo_empty (h : s.rd F.partUpdCommit_rows p = 0) :
    s.commitGo p = ((s.validating p).wr F.partUpdCommit_status p 4).wr F.partUpdCommit_go p 0 := by
  have none_named : rowsOf 0 = [] := by decide
  simp only [State.commitGo, h, none_named, List.find?_nil, beq_self_eq_true, if_true]
  rfl

/-- A valid commit that waits for its instant. -/
def State.setPend (s : State) (p : Nat) (c : UpdPend) : State := { s with updPend := mput s.updPend p c }

theorem setPend_rd (s : State) (p : Nat) (c : UpdPend) (f : Fld) (i : Nat) : (s.setPend p c).rd f i = s.rd f i :=
  rd_of_regs rfl f i
theorem setPend_mem (s : State) (p : Nat) (c : UpdPend) : (s.setPend p c).mem = s.mem := rfl
theorem setPend_updPend (s : State) (p : Nat) (c : UpdPend) : mget (s.setPend p c).updPend p = some c := mget_mput_same ..

/-- A commit of valid rows is pending from now on. -/
theorem commitGo_valid (h : s.badRow p = none) (hrows : s.rd F.partUpdCommit_rows p ≠ 0) :
    s.commitGo p = (((s.validating p).wr F.partUpdCommit_status p 0).wr F.partUpdCommit_pending p 1).setPend p (s.validated p) := by
  unfold State.badRow State.validating at h
  simp only [State.commitGo, h, beq_eq_false_iff_ne.2 hrows, Bool.false_eq_true, if_false]
  rfl

theorem rowFault_lt (r : UpdRow) : rowFault r < 8 := by
  unfold rowFault
  repeat' split
  all_goals decide

/-- There are 16 rows. -/
theorem badRow_lt {r : Nat} (h : s.badRow p = some r) : r < 16 :=
  List.mem_range.1 (List.mem_filter.1 (List.mem_of_find?_eq_some h)).1

/-- What a commit with a bad row shows (R156). -/
theorem commitGo_bad_shown {r : Nat} (h : s.badRow p = some r) :
    (s.commitGo p).rd F.partUpdCommit_go p = 0 ∧ (s.commitGo p).rd F.partUpdCommit_badRow p = r
    ∧ (s.commitGo p).rd F.partUpdCommit_status p = rowFault ((s.validating p).stagedRow p r)
    ∧ (s.commitGo p).updPend = s.updPend := by
  have status := Nat.mod_eq_of_lt (rowFault_lt ((s.validating p).stagedRow p r))
  have row := Nat.mod_eq_of_lt (badRow_lt h)
  rw [commitGo_bad h]
  simp (disch := decide) only [rd_wr_of_bits, rd_wr_same, State.validating, State.wr_updPend]
  exact ⟨rfl, row, status, trivial⟩

/-- What a commit of no rows shows (R156). -/
theorem commitGo_empty_shown (h : s.rd F.partUpdCommit_rows p = 0) :
    (s.commitGo p).rd F.partUpdCommit_go p = 0 ∧ (s.commitGo p).rd F.partUpdCommit_status p = 4 ∧ (s.commitGo p).updPend = s.updPend := by
  rw [commitGo_empty h]
  simp (disch := decide) only [rd_wr_of_bits, rd_wr_same, State.validating, State.wr_updPend]
  exact ⟨rfl, rfl, trivial⟩

/-- What a commit of valid rows shows, and that memory stands (R156). -/
theorem commitGo_valid_shown (h : s.badRow p = none) (hrows : s.rd F.partUpdCommit_rows p ≠ 0) :
    (s.commitGo p).rd F.partUpdCommit_go p = 1 ∧ (s.commitGo p).rd F.partUpdCommit_pending p = 1
    ∧ (s.commitGo p).rd F.partUpdCommit_status p = 0 ∧ mget (s.commitGo p).updPend p = some (s.validated p)
    ∧ (s.commitGo p).mem = s.mem := by
  rw [commitGo_valid h hrows, setPend_rd, setPend_rd, setPend_rd, setPend_mem, setPend_updPend]
  simp (disch := decide) only [rd_wr_of_bits, rd_wr_same, State.validating, State.wr_mem]
  exact ⟨rfl, rfl, rfl, trivial, trivial⟩

/-! ## The instant -/

/-- The live rows after a commit's words. -/
def State.withWords (s : State) (p : Nat) (words : NMap Nat) : State :=
  words.foldl (fun s e => s.setReg (liveRegs.getD (e.1 % 8) .partUpdL0) (p * 16 + e.1 / 8) e.2) s

/-- Words written to live rows change registers alone. -/
theorem withWords_mem (s : State) (p : Nat) (words : NMap Nat) : (s.withWords p words).mem = s.mem :=
  List.foldlRecOn (motive := fun t => t.mem = s.mem) words _ rfl (fun t ht _ _ => (State.setReg_mem t ..).trans ht)

/-- What the cores adopt of a commit: the words it replaces, the cores waited for, and its mark (R157). -/
def State.castOf (s : State) (p : Nat) (c : UpdPend) : UpdBcast where
  rows := c.rows
  old := c.words.map (fun e => (e.1, s.reg (liveRegs.getD (e.1 % 8) .partUpdL0) (p * 16 + e.1 / 8)))
  waiting := s.awaited p
  markEn := c.markEn
  mark := c.mark

theorem castOf_waiting (s : State) (p : Nat) (c : UpdPend) : (s.castOf p c).waiting = s.awaited p := by simp only [State.castOf]

/-- A commit no longer pending, on its way to the cores. -/
def State.cast (s : State) (p : Nat) (b : UpdBcast) : State := { s with updPend := mdel s.updPend p, upd := mput s.upd p b }

theorem cast_updPend (s : State) (p : Nat) (b : UpdBcast) : mget (s.cast p b).updPend p = none := mget_mdel_same ..
theorem cast_upd (s : State) (p : Nat) (b : UpdBcast) : mget (s.cast p b).upd p = some b := mget_mput_same ..
theorem cast_mem (s : State) (p : Nat) (b : UpdBcast) : (s.cast p b).mem = s.mem := rfl
theorem cast_reg (s : State) (p : Nat) (b : UpdBcast) (r : RegName) (i : Nat) : (s.cast p b).reg r i = s.reg r i := reg_of_regs rfl r i

/-- A pending commit whose instant is 0 or has come takes effect. -/
theorem commitFt_due {c : UpdPend} (hc : mget s.updPend p = some c)
    (hdue : s.rd F.partUpdCommitFt_commitFt p = 0 ∨ s.rd F.partUpdCommitFt_commitFt p ≤ s.ftPart p) :
    s.commitFt p = (s.withWords p c.words).cast p (s.castOf p c) := by
  have due : (s.rd F.partUpdCommitFt_commitFt p != 0 && decide (s.ftPart p < s.rd F.partUpdCommitFt_commitFt p)) = false := by
    rcases hdue with h | h <;> simp [h]
  simp only [State.commitFt, hc, due, Bool.false_eq_true, if_false]
  rfl

/-! ## Adoption -/

/-- A core without an update command in execution is waited for no longer (R157). -/
theorem rowAdopt_idle {g : Nat} {b : UpdBcast} (hb : mget s.upd (partOf g) = some b) (hidle : s.updIdle g = true) :
    s.rowAdopt g = { s with upd := mput s.upd (partOf g) { b with waiting := b.waiting.filter (fun h => h != g) } } := by
  simp only [State.rowAdopt, hb, hidle, if_true]

/-! ## The end -/

/-- A commit no longer on its way. -/
def State.endCast (s : State) (p : Nat) : State := { s with upd := mdel s.upd p }

theorem endCast_rd (s : State) (p : Nat) (f : Fld) (i : Nat) : (s.endCast p).rd f i = s.rd f i := rd_of_regs rfl f i
theorem endCast_upd (s : State) (p : Nat) : mget (s.endCast p).upd p = none := mget_mdel_same ..
theorem endCast_adds (s : State) (p : Nat) : (s.endCast p).adds = s.adds := rfl
theorem endCast_msgNext (s : State) (p : Nat) : (s.endCast p).msgNext = s.msgNext := rfl
theorem endCast_ftPart (s : State) (p q : Nat) : (s.endCast p).ftPart q = s.ftPart q := rfl
theorem wr_ftPart (s : State) (f : Fld) (i v q : Nat) : (s.wr f i v).ftPart q = s.ftPart q := by
  simp only [State.ftPart, State.ftAt, State.wr_ft, State.wr_skew]

/-- A commit that is over: neither pending nor on its way. -/
def State.commitOver (s : State) (p : Nat) : State :=
  ((s.wr F.partUpdCommit_pending p 0).wr F.partUpdCommit_go p 0).endCast p

/-- The mark add that a commit ends with. -/
def State.commitMark (s : State) (p : Nat) (b : UpdBcast) : MarkAdd :=
  { part := p, mark := b.mark, add := 1, stamp := s.ftPart p, src := unitPart p }

/-- The end of a commit, with its mark where it has one. -/
def State.commitMarked (s : State) (p : Nat) (b : UpdBcast) : State := if b.markEn then s.sendAdd (s.commitMark p b) else s

/-- A core that is still waited for keeps a commit from its end. -/
theorem commitEnd_waits {b : UpdBcast} {g : Nat} (hb : mget s.upd p = some b) (hg : g ∈ b.waiting) (halive : s.alive g = true) :
    s.commitEnd p = s := by
  simp only [State.commitEnd, hb, List.any_eq_true.2 ⟨g, hg, halive⟩, if_true]

/-- A commit that no core is waited for ends. -/
theorem commitEnd_over {b : UpdBcast} (hb : mget s.upd p = some b) (hwait : ∀ g ∈ b.waiting, s.alive g = false) :
    s.commitEnd p = (s.commitOver p).commitMarked p b := by
  have adopted : b.waiting.any (fun g => s.alive g) = false := List.any_eq_false.2 (fun g hg => Bool.eq_false_iff.1 (hwait g hg))
  simp only [State.commitEnd, hb, adopted, Bool.false_eq_true, if_false]
  rfl

/-- A mark sent leaves registers and commits. -/
theorem commitMarked_regs (s : State) (p : Nat) (b : UpdBcast) : (s.commitMarked p b).regs = s.regs := by
  unfold State.commitMarked
  split <;> rfl

theorem commitMarked_upd (s : State) (p : Nat) (b : UpdBcast) : (s.commitMarked p b).upd = s.upd := by
  unfold State.commitMarked
  split <;> rfl

theorem commitMarked_adds (s : State) (p : Nat) (b : UpdBcast) :
    (s.commitMarked p b).adds = s.adds ++ (if b.markEn then [{ s.commitMark p b with num := s.msgNext }] else []) := by
  unfold State.commitMarked
  split
  · rfl
  · exact (List.append_nil _).symm

/-- A commit that is over leaves messages and time. -/
theorem commitOver_leaves (s : State) (p : Nat) :
    (s.commitOver p).adds = s.adds ∧ (s.commitOver p).msgNext = s.msgNext ∧ (s.commitOver p).ftPart p = s.ftPart p := by
  rw [State.commitOver, endCast_adds, endCast_msgNext, endCast_ftPart]
  simp only [State.wr_adds, State.wr_msgNext, wr_ftPart, and_self]

/-- What a commit that ends shows and sends (R157). -/
theorem commitEnd_shown {b : UpdBcast} (hb : mget s.upd p = some b) (hwait : ∀ g ∈ b.waiting, s.alive g = false) :
    (s.commitEnd p).rd F.partUpdCommit_pending p = 0 ∧ (s.commitEnd p).rd F.partUpdCommit_go p = 0 ∧ mget (s.commitEnd p).upd p = none
    ∧ (s.commitEnd p).adds = s.adds ++ (if b.markEn then [{ s.commitMark p b with num := s.msgNext }] else []) := by
  obtain ⟨adds, msgNext, ft⟩ := commitOver_leaves s p
  have regs := commitMarked_regs (s.commitOver p) p b
  rw [commitEnd_over hb hwait, rd_of_regs regs, rd_of_regs regs, commitMarked_upd, commitMarked_adds, adds, msgNext, State.commitMark, ft]
  refine ⟨?_, ?_, endCast_upd .., rfl⟩
  · rw [State.commitOver, endCast_rd, rd_wr_of_bits _ _ _ _ _ _ (by decide) (.inr (by decide))]
    exact rd_wr_same _ _ _ _ (by decide)
  · rw [State.commitOver, endCast_rd]
    exact rd_wr_same _ _ _ _ (by decide)

end Sys2Proof.Machine
end

section
/-! The statement on the update engine (O29). -/

namespace Sys2Proof.Machine

theorem exec_upd (s : State) (g : CoreId) : exec (.upd g) s = .next (settle (s.updRun g)) := rfl
theorem exec_updCommitFt (s : State) (p : PartId) : exec (.updCommitFt p) s = .next (settle (s.commitFt p)) := rfl
theorem exec_rowAdopt (s : State) (g : CoreId) : exec (.rowAdopt g) s = .next (settle (s.rowAdopt g)) := rfl
theorem exec_updCommitComplete (s : State) (p : PartId) : exec (.updCommitComplete p) s = .next (settle (s.commitEnd p)) := rfl

/-- A write of go that the gate lets through, with no commit pending, starts a commit. -/
theorem exec_updCommitGo {s : State} {f : Func} {p : PartId} {v : Word64} (hgate : s.gate f .partUpdCommit p true = .ok)
    (hgo : bitAt v.toNat 16 = true) (hfree : s.flag F.partUpdCommit_pending p = false) :
    exec (.updCommitGo f p v) s = .next (settle ((s.commitFields p v.toNat).commitGo p)) := by
  rw [← commitWrite_go hgo hfree]
  exact congrArg finish (host_ok hgate _)

/-- The fields that a write to PART_UPD_COMMIT sets are registers alone. -/
theorem commitFields_leaves (s : State) (p v : Nat) :
    (s.commitFields p v).updPend = s.updPend ∧ (s.commitFields p v).mem = s.mem := by
  simp only [State.commitFields, State.softWr, State.wr_updPend, State.setReg_updPend, State.wr_mem, State.setReg_mem, and_self]

/-- Settles O29: UPD by the groups of its run, a commit by the equation of each of its events in its turn. -/
theorem updateEngineCompletes : Obligations.UpdateEngineCompletes := by
  refine ⟨fun g s x u hx hu hruns hfree hcheck hsound => ⟨_, exec_upd s g, ?upd⟩,
    fun f p v s s1 hgate hgo hfree hs1 hrows hvalid => ⟨_, s1.validated p, exec_updCommitGo hgate hgo hfree, ?valid⟩,
    fun f p v s s1 r hgate hgo hfree hs1 hbad => ⟨_, exec_updCommitGo hgate hgo hfree, ?bad⟩,
    fun f p v s s1 hgate hgo hfree hs1 hrows => ⟨_, exec_updCommitGo hgate hgo hfree, ?empty⟩,
    fun p s c hc hdue => ⟨_, s.castOf p c, exec_updCommitFt s p, ?instant⟩,
    fun g s b hb hidle => ?adopt,
    fun p s b hb hwait => ⟨_, exec_updCommitComplete s p, ?ended⟩,
    fun p s b g hb hg halive => ?waits⟩
  case upd =>
    subst hu
    have done := updDone_alike s g (UpdCmd.of x.e.cmd) (UpdRow.ofWords x.prog.words)
    rw [settle_mem, settle_bufs, settle_queues, updRun_eq hx hruns hfree hsound, opDone_mem, opDone_bufs, done.mem, done.bufs]
    exact ⟨rfl, updGroups_bufs .., opDone_queues_congr (done.queues.trans (updGroups_queues ..)) ..,
      fun a ha => updGroups_frame g _ _ s (freshBit_fits hcheck) ha⟩
  case valid =>
    subst hs1
    obtain ⟨go, pending, status, pend, mem⟩ := commitGo_valid_shown (badRow_none hvalid) hrows
    simp (disch := decide) only [settle_rd, settle_updPend, settle_mem]
    exact ⟨go, pending, status, pend, rfl, mem.trans (commitFields_leaves ..).2⟩
  case bad =>
    subst hs1
    obtain ⟨go, row, status, pend⟩ := commitGo_bad_shown hbad
    simp (disch := decide) only [settle_rd, settle_updPend]
    exact ⟨go, row, status, pend.trans (commitFields_leaves ..).1⟩
  case empty =>
    subst hs1
    obtain ⟨go, status, pend⟩ := commitGo_empty_shown hrows
    simp (disch := decide) only [settle_rd, settle_updPend]
    exact ⟨go, status, pend.trans (commitFields_leaves ..).1⟩
  case instant =>
    rw [commitFt_due hc hdue, settle_updPend, settle_upd, settle_mem]
    exact ⟨cast_updPend .., cast_upd .., rfl, castOf_waiting .., (cast_mem ..).trans (withWords_mem ..),
      fun r i hr => (settle_reg _ i hr).trans (cast_reg ..)⟩
  case adopt => rw [exec_rowAdopt, rowAdopt_idle hb hidle]
  case ended =>
    obtain ⟨pending, go, upd, adds⟩ := commitEnd_shown hb hwait
    simp (disch := decide) only [settle_rd, settle_upd, settle_adds]
    exact ⟨pending, go, upd, adds⟩
  case waits => rw [exec_updCommitComplete, commitEnd_waits hb hg halive]

end Sys2Proof.Machine
end

section
/-! What errors of memory leave: corrected ones are counted, uncorrectable ones recorded, and nothing else of the state moves (R195, R197,
R199, R470). -/

namespace Sys2Proof.Machine

variable {s t u : State} {rs qs : List RegName}

/-! ## States that differ in their records -/

/-- The state without registers and without what goes to the host or is listed for repair. -/
def State.untold (s : State) : State := { s with regs := [], msixPend := [], sent := [], softRepair := [] }

/-- From `s` to `t` something is recorded: of the registers, those of `rs` alone change. -/
structure State.Records (rs : List RegName) (s t : State) : Prop where
  rest : t.untold = s.untold
  reg : ∀ r ∉ rs, ∀ i, t.reg r i = s.reg r i

/-- The start of a chain of records `s.records.wr.wr`. -/
theorem State.records (s : State) : s.Records rs s := ⟨rfl, fun _ _ _ => rfl⟩

namespace State.Records

theorem trans (h : s.Records rs t) (k : t.Records rs u) : s.Records rs u :=
  ⟨k.rest.trans h.rest, fun r hr i => (k.reg r hr i).trans (h.reg r hr i)⟩

/-- More registers may have changed. -/
theorem mono (h : s.Records rs t) (hq : rs ⊆ qs := by decide) : s.Records qs t := ⟨h.rest, fun r hr => h.reg r fun hm => hr (hq hm)⟩

/-- Whatever is read of the rest of the state. -/
theorem part {α : Type} (h : s.Records rs t) (f : State → α) : f t.untold = f s.untold := congrArg f h.rest

theorem mem (h : s.Records rs t) : t.mem = s.mem := h.part (·.mem)
theorem bufs (h : s.Records rs t) : t.bufs = s.bufs := h.part (·.bufs)

theorem rd (h : s.Records rs t) {f : Fld} (i : Nat) (hf : f.reg ∉ rs := by decide) : t.rd f i = s.rd f i := by
  unfold State.rd; rw [h.reg _ hf]

theorem ite {p : Prop} [Decidable p] (ht : s.Records rs t) (hu : s.Records rs u) : s.Records rs (if p then t else u) := by
  split
  · exact ht
  · exact hu

theorem wr (h : s.Records rs t) {f : Fld} {i v : Nat} (hf : f.reg ∈ rs := by decide) : s.Records rs (t.wr f i v) :=
  h.trans ⟨rfl, fun _ hr _ => reg_wr_ne t f _ v (.inl (ne_of_mem_of_not_mem hf hr).symm)⟩

theorem inc (h : s.Records rs t) {f : Fld} {i d : Nat} (hf : f.reg ∈ rs := by decide) : s.Records rs (t.inc f i d) := h.wr hf

theorem tell (h : s.Records rs t) (mp : NMap Bool) (st : List HostMsg) : s.Records rs { t with msixPend := mp, sent := st } :=
  h.trans ⟨rfl, fun _ _ _ => rfl⟩

theorem list (h : s.Records rs t) (l : List (Nat × Nat)) : s.Records rs { t with softRepair := l } := h.trans ⟨rfl, fun _ _ _ => rfl⟩

theorem raise (h : s.Records rs t) (src : Nat) : s.Records rs (t.raise src) := by
  obtain ⟨mp, st, hr⟩ := raise_eq t src
  rw [hr]
  exact h.tell mp st

theorem stick (h : s.Records rs t) {f : Fld} {i p : Nat} (hf : f.reg ∈ rs) : s.Records rs (t.stick f i p) := .ite h ((h.wr hf).raise _)

end State.Records

/-! ## Corrected errors -/

/-- Registers that count what is corrected in flight (Tables 7-14 and 7-16). -/
def corrRegs : List RegName := [.hbmEcc, .partMemCorr]

theorem corrCount_records (s : State) (d k : Nat) : s.Records corrRegs (s.corrCount d k) :=
  .ite s.records (.ite s.records.inc (.ite s.records.inc s.records.inc))

theorem corr_records (s : State) (d n : Nat) : s.Records corrRegs (s.corr d n) := corrCount_records ..

theorem corrCount_zero (s : State) (d : Nat) : s.corrCount d 0 = s := rfl

/-! ## Uncorrectable errors -/

/-- Registers of the records that an uncorrectable error sets. -/
def memUncRegs : List RegName :=
  [.hbmEcc, .hfErrSticky, .hfErrFirst, .hfErrFirstInfo, .partMemUncorr, .partErrSticky, .partErrFirst, .partErrFirstInfo, .coreErrCount,
   .coreErrSticky, .coreErrFirst, .coreErrFirstInfo, .partMemRepair]

theorem partErr_records (s : State) (p bit core : Nat) : s.Records memUncRegs (s.partErr p bit core) :=
  (State.Records.ite s.records s.records.wr.wr.wr.wr).stick (by simp [memUncRegs])

theorem coreErr_records (s : State) (g bit eng opcode : Nat) : s.Records memUncRegs (s.coreErr g bit eng opcode) :=
  have captured := (State.Records.ite s.records s.records.wr.wr.wr.wr.wr).stick (by simp [memUncRegs])
  captured.trans (.ite (partErr_records ..) (State.records _))

theorem hfErr_records (s : State) (bit stack : Nat) : s.Records memUncRegs (s.hfErr bit stack) :=
  (State.Records.ite s.records s.records.wr.wr.wr.wr).wr (by simp [memUncRegs])

theorem memUnc_records (s : State) (d eng opcode : Nat) : s.Records memUncRegs (s.memUnc d eng opcode) := by
  unfold State.memUnc
  dsimp only
  split
  · exact s.records.inc.trans (hfErr_records ..)
  · split
    · exact s.records.inc.trans (partErr_records ..)
    · exact s.records.inc.inc.trans (coreErr_records ..)

theorem softEntry_records (s : State) (d : Nat) : s.Records [.partMemRepair] (s.softEntry d) :=
  .ite s.records (.ite (s.records.list _) (s.records.list _).wr)

/-- The row is listed for repair, whether it was before or not (R199). -/
theorem softEntry_lists (s : State) (d : Nat) : (s.softEntry d).softRepair.any (fun e => e.1 == d / 512) = true := by
  unfold State.softEntry
  dsimp only
  split
  · assumption
  · split
    · simp
    · simp [State.wr_softRepair]

end Sys2Proof.Machine
end

section
/-! The events of the translation unit, the remote-data cache and the patrol scrub (R190, R191, R196, R199, R202, R206): one equation for
each event in its turn. -/

namespace Sys2Proof.Machine

variable {s : State} {p k d : Nat}

/-! ## Fields -/

theorem bits_one (v i : Nat) : bits v i 1 = (bitAt v i).toNat := by
  rw [bits, bitAt, Nat.toNat_testBit, Nat.shiftRight_eq_div_pow, Nat.pow_one]

/-- A field after a software write of its register. -/
theorem rd_softWr (s : State) {f : Fld} (i v : Nat) (hf : f ∈ f.reg.flds) (hlen : f.lo + f.len ≤ 64) :
    (s.softWr f.reg i v).rd f i = f.acc.written f.len (s.rd f i) (bits v f.lo f.len) := by
  rw [State.rd, State.softWr, reg_setReg_same, bits_mod_word hlen, bits_softWrite hf, State.rd]

/-- A counter advanced, as the statements write it (R61). -/
theorem rd_inc_satAdd (s : State) (f : Fld) (i n : Nat) (hf : f.lo + f.len ≤ 64) : (s.inc f i n).rd f i = satAdd f.len (s.rd f i) n :=
  rd_inc s f i n hf

/-! ## Invalidations -/

theorem xltInvGo_starts {v : Nat} (hgo : bitAt v 7 = true) (hfree : s.flag F.partXltInv_go p = false) :
    s.xltInvGo p v = { s.softWr .partXltInv p v with
      xltInv := (s.softWr .partXltInv p v).xltInv ++ [{ part := p, all := bitAt v 6, ctx := bits v 0 6 }] } := by
  simp only [State.xltInvGo, hgo, hfree, Bool.not_true, Bool.or_self, Bool.false_eq_true, if_false]

/-- Writing go sets it (R202). -/
theorem rd_xltInv_go {v : Nat} (s : State) (p : Nat) (hgo : bitAt v 7 = true) :
    (s.softWr .partXltInv p v).rd F.partXltInv_go p = 1 := by
  have hset := rd_softWr s (f := F.partXltInv_go) p v (by decide) (by decide)
  have hbit : bits v 7 1 = 1 := by rw [bits_one, hgo]; rfl
  have hold := rd_lt s F.partXltInv_go p
  refine hset.trans ?_
  show s.rd F.partXltInv_go p ||| bits v 7 1 = 1
  rw [hbit]
  have hcases : s.rd F.partXltInv_go p = 0 ∨ s.rd F.partXltInv_go p = 1 := by
    change _ < 2 at hold
    omega
  rcases hcases with h | h <;> rw [h] <;> rfl

/-- What a partition's invalidation takes out of the caches of translations (R202). -/
def XltInv.takes (x : XltInv) (p : Nat) (e : TlbEntry) : Bool :=
  e.ctxPart == p && (x.all || e.ctx == x.ctx) && (decide (4608 ≤ e.core) || partOf e.core == p)

theorem XltInv.takes_iff (x : XltInv) (p : Nat) (e : TlbEntry) :
    x.takes p e = true ↔ e.ctxPart = p ∧ (x.all = true ∨ e.ctx = x.ctx) ∧ (4608 ≤ e.core ∨ partOf e.core = p) := by
  simp [XltInv.takes, and_assoc]

theorem xltInvEnd_running {x : XltInv} (h : s.xltInv.find? (fun x => x.part == p) = some x) :
    s.xltInvEnd p = { s.wr F.partXltInv_go p 0 with
      tlb := s.tlb.filter (fun e => !x.takes p e), xltInv := s.xltInv.filter (fun y => y.part != p) } := by
  simp only [State.xltInvEnd, h]
  rfl

/-! ## Sequence lengths -/

theorem seqAdvance_written {q : SeqSlot} {lo hi : Nat} {r : List (Nat × Nat × Bool)} (hk : k < 32) (hq : s.seqSlot p k = some q)
    (hr : q.ranges = (lo, hi, true) :: r) :
    s.seqAdvance p k = ({ s with seqSlots := mput s.seqSlots (p * 32 + k) { q with ranges := r } } : State).wr F.partSeqLen_length
      (p * 32 + k) hi := by
  simp only [State.seqAdvance, if_neg (Nat.not_le.2 hk), hq, hr]

/-! ## Fills of the remote-data cache -/

/-- A fill that nothing has overtaken, for a partition with a cache, goes on to its line. -/
theorem rdcFill_current {f : RdcFill} (hstale : f.stale = false) (hcache : 0 < s.rdcLines f.part) :
    (f.stale || ({ s with rdcFills := dropNth s.rdcFills k } : State).rdcLines f.part == 0) = false := by
  show (f.stale || s.rdcLines f.part == 0) = false
  simp [hstale, Nat.ne_of_gt hcache]

section
variable {f : RdcFill} {keep : List RdcLine} (hf : s.rdcFills[k]? = some f)
include hf

/-- A fill that an invalidation has overtaken, or that finds no cache, leaves the lines (R191). -/
theorem rdcFill_dropped (h : f.stale = true ∨ s.rdcLines f.part = 0) : s.rdcFill k = { s with rdcFills := dropNth s.rdcFills k } := by
  have hn : (f.stale || ({ s with rdcFills := dropNth s.rdcFills k } : State).rdcLines f.part == 0) = true := by
    show (f.stale || s.rdcLines f.part == 0) = true
    simpa using h
  simp only [State.rdcFill, hf, hn, if_true]

variable (hstale : f.stale = false) (hcache : 0 < s.rdcLines f.part)
  (hkeep : keep = s.rdc.filter (fun l => !(l.part == f.part && l.row == f.row)))
include hstale hcache hkeep

theorem rdcFill_installs (hroom : (keep.filter (fun l => l.part == f.part)).length < s.rdcLines f.part) :
    s.rdcFill k = { s with rdcFills := dropNth s.rdcFills k, rdc := keep ++ [{ part := f.part, row := f.row, data := f.data }] } := by
  subst hkeep
  simp only [State.rdcFill, hf, rdcFill_current hstale hcache, Bool.false_eq_true, if_false]
  exact congrArg (fun l => ({ s with rdcFills := dropNth s.rdcFills k, rdc := l ++ [_] } : State)) (if_neg (Nat.not_le.2 hroom))

/-- A full cache loses its oldest line (R190). -/
theorem rdcFill_evicts {o : RdcLine} (hfull : s.rdcLines f.part ≤ (keep.filter (fun l => l.part == f.part)).length)
    (ho : keep.find? (fun l => l.part == f.part) = some o) :
    s.rdcFill k = { s with
      rdcFills := dropNth s.rdcFills k
      rdc := keep.filter (fun l => l != o) ++ [{ part := f.part, row := f.row, data := f.data }] } := by
  subst hkeep
  simp only [State.rdcFill, hf, rdcFill_current hstale hcache, ho, Bool.false_eq_true, if_false]
  exact congrArg (fun l => ({ s with rdcFills := dropNth s.rdcFills k, rdc := l ++ [_] } : State)) (if_pos hfull)

end

/-! ## The patrol scrub -/

/-- The passes of a row that met corrected errors within 24 hours, this one included (R199). -/
def State.scrubTimes (s : State) (d : Nat) : List Nat :=
  (mgetD s.scrubHits (d / 512) []).filter (fun t => decide (s.onNs < t + day)) ++ [s.onNs]

/-- The corrected errors of a pass counted, at least one. -/
def State.scrubCount (s : State) (d m : Nat) : State :=
  if d < hbmEnd then s.inc F.hbmEcc_corr (s.stackOf d) m
  else if d < cmBase then s.inc F.partMemCorr_smCorr (s.ownerOf d) m
  else s.inc F.partMemCorr_cmCorr (s.ownerOf d) m

/-- The pass remembered, and the row written back. -/
def State.scrubHealed (s : State) (d : Nat) : State :=
  { s with scrubHits := mput s.scrubHits (d / 512) (s.scrubTimes d), mem := s.mem.heal d 512 }

/-- A third pass with an error within 24 hours lists the row for repair (R199). -/
def State.scrubListed (s : State) (d : Nat) : State :=
  if 3 ≤ (s.scrubTimes d).length then (s.scrubHealed d).softEntry d else s.scrubHealed d

/-- A pass of the row at `d` with `m` corrected errors. -/
def State.scrubCorrect (s : State) (d m : Nat) : State := if m == 0 then s else (s.scrubCount d m).scrubListed d

/-- A pass without a corrected error. -/
theorem scrubCorrect_none (s : State) (d : Nat) : s.scrubCorrect d 0 = s := rfl

/-- A pass: what is correctable, then the records of an uncorrectable error. -/
theorem scrub_row {row : Nat} (hrow : scrubRow row = some d) (s : State) (n : Nat) :
    ∃ r, s.scrub row n =
      if (s.scrubCorrect d (n + s.mem.corrections d 512)).mem.hurt d 512 then
        (((s.scrubCorrect d (n + s.mem.corrections d 512)).memUnc d).softEntry d).report 0x04 r
      else s.scrubCorrect d (n + s.mem.corrections d 512) := by
  unfold State.scrub
  rw [hrow]
  exact ⟨_, rfl⟩

theorem scrubCount_records (s : State) (d m : Nat) : s.Records corrRegs (s.scrubCount d m) :=
  .ite s.records.inc (.ite s.records.inc s.records.inc)

theorem scrubCount_softRepair (s : State) (d m : Nat) : (s.scrubCount d m).softRepair = s.softRepair := by
  unfold State.scrubCount
  split
  · exact State.inc_softRepair ..
  · split <;> exact State.inc_softRepair ..

theorem scrubCount_hbm (s : State) (m : Nat) (hd : d < hbmEnd) :
    (s.scrubCount d m).rd F.hbmEcc_corr (s.stackOf d) = satAdd F.hbmEcc_corr.len (s.rd F.hbmEcc_corr (s.stackOf d)) m := by
  rw [State.scrubCount, if_pos hd]
  exact rd_inc_satAdd _ _ _ _ (by decide)

theorem scrubCount_sm (s : State) (m : Nat) (hd : hbmEnd ≤ d) (hc : d < cmBase) :
    (s.scrubCount d m).rd F.partMemCorr_smCorr (s.ownerOf d)
      = satAdd F.partMemCorr_smCorr.len (s.rd F.partMemCorr_smCorr (s.ownerOf d)) m := by
  rw [State.scrubCount, if_neg (Nat.not_lt.2 hd), if_pos hc]
  exact rd_inc_satAdd _ _ _ _ (by decide)

theorem scrubCount_cm (s : State) (m : Nat) (hd : cmBase ≤ d) :
    (s.scrubCount d m).rd F.partMemCorr_cmCorr (s.ownerOf d)
      = satAdd F.partMemCorr_cmCorr.len (s.rd F.partMemCorr_cmCorr (s.ownerOf d)) m := by
  have hh : hbmEnd ≤ cmBase := by decide
  rw [State.scrubCount, if_neg (Nat.not_lt.2 (Nat.le_trans hh hd)), if_neg (Nat.not_lt.2 hd)]
  exact rd_inc_satAdd _ _ _ _ (by decide)

/-- What a pass leaves: the count, its time, the row healed, and the list, longer at the third time only. -/
theorem scrubListed_leaves (s : State) (d : Nat) :
    (∀ f : Fld, f.reg ≠ .partMemRepair → ∀ i, (s.scrubListed d).rd f i = s.rd f i)
    ∧ (s.scrubListed d).mem = s.mem.heal d 512 ∧ (s.scrubListed d).scrubHits = mput s.scrubHits (d / 512) (s.scrubTimes d)
    ∧ ((s.scrubTimes d).length < 3 → (s.scrubListed d).softRepair = s.softRepair)
    ∧ (3 ≤ (s.scrubTimes d).length → (s.scrubListed d).softRepair.any (fun e => e.1 == d / 512) = true) := by
  have listed := softEntry_records (s.scrubHealed d) d
  unfold State.scrubListed
  split
  case isTrue h =>
    exact ⟨fun f hf i => listed.rd i (by simpa using hf), listed.mem, listed.part (·.scrubHits), fun hlt => absurd h (Nat.not_le.2 hlt),
      fun _ => softEntry_lists ..⟩
  case isFalse h => exact ⟨fun _ _ _ => rfl, rfl, rfl, fun _ => rfl, fun hle => absurd hle h⟩

end Sys2Proof.Machine
end

section
/-! The statement on the events of translation, remote data and the scrub (O32). -/

namespace Sys2Proof.Machine

theorem exec_xltInv {s : State} {f : Func} {p : PartId} {v : Word64} (h : s.gate f .partXltInv p true = .ok) :
    exec (.xltInv f p v) s = .next (settle (s.xltInvGo p v.toNat)) := congrArg finish (host_ok h _)

theorem exec_xltInvComplete (s : State) (p : PartId) : exec (.xltInvComplete p) s = .next (settle (s.xltInvEnd p)) := rfl
theorem exec_seqLengthAdvance (s : State) (p : PartId) (k : Nat) :
    exec (.seqLengthAdvance p k) s = .next (settle (s.seqAdvance p k)) := rfl
theorem exec_rdcFillReturn (s : State) (k : Nat) : exec (.rdcFillReturn k) s = .next (settle (s.rdcFill k)) := rfl
theorem exec_patrolScrub (s : State) (row n : Nat) : exec (.patrolScrub row n) s = .next (settle (s.scrub row n)) := rfl

/-- Settles O32: each event by the equation of its turn. -/
theorem translationEventsComplete : Obligations.TranslationEventsComplete := by
  refine ⟨fun f p v s hgate hgo hfree => ⟨_, exec_xltInv hgate, ?inv⟩, fun p s x hx => ⟨_, exec_xltInvComplete s p, ?ended⟩,
    fun p k lo hi s q r hk hq hr => ⟨_, exec_seqLengthAdvance s p k, ?length⟩,
    fun k s f keep hf hstale hcache hkeep hroom => ⟨_, exec_rdcFillReturn s k, ?fill⟩,
    fun k s f keep o hf hstale hcache hkeep hfull ho => ⟨_, exec_rdcFillReturn s k, ?evict⟩,
    fun k s f hf h => ⟨_, exec_rdcFillReturn s k, ?dropped⟩,
    fun row n d m hits s hrow hm hpos hsound hhits => ⟨_, exec_patrolScrub s row n, ?correct⟩,
    fun row d s hrow hcorr hsound => ?sound, fun row d s hrow hcorr hhurt => ⟨_, exec_patrolScrub s row 0, ?hurt⟩⟩
  case inv =>
    rw [xltInvGo_starts hgo hfree]
    simp (disch := decide) only [settle_rd, settle_xltInv, settle_tlb]
    exact ⟨rd_xltInv_go s p hgo, congrArg (· ++ _) (State.setReg_xltInv ..), State.setReg_tlb ..⟩
  case ended =>
    rw [xltInvEnd_running hx]
    simp (disch := decide) only [settle_rd, settle_xltInv, settle_tlb, settle_mem]
    refine ⟨rd_wr_same s F.partXltInv_go p 0 (by decide), fun e he => ?_, fun y hy => by simpa using (List.mem_filter.1 hy).2,
      State.wr_mem ..⟩
    obtain ⟨hmem, hleft⟩ := List.mem_filter.1 he
    exact ⟨hmem, fun htakes => by simp [(x.takes_iff p e).2 htakes] at hleft⟩
  case length =>
    rw [seqAdvance_written hk hq hr]
    simp (disch := decide) only [settle_rd, settle_seqSlots]
    exact ⟨State.wr_seqSlots .., rd_wr_same _ _ _ _ (by decide)⟩
  case fill => rw [rdcFill_installs hf hstale hcache hkeep hroom]; simp
  case evict => rw [rdcFill_evicts hf hstale hcache hkeep hfull ho]; simp
  case dropped => rw [rdcFill_dropped hf h]; simp
  case correct =>
    obtain ⟨r, hscrub⟩ := scrub_row hrow s n
    have counted := scrubCount_records s d m
    obtain ⟨rd, mem, times, short, long⟩ := scrubListed_leaves (s.scrubCount d m) d
    have hcorrect : s.scrubCorrect d m = (s.scrubCount d m).scrubListed d := if_neg (by simpa using Nat.ne_of_gt hpos)
    have hfinal : s.scrub row n = (s.scrubCount d m).scrubListed d := by
      rw [hscrub, ← hm, hcorrect, if_neg]
      rw [mem, counted.mem]
      exact Bool.eq_false_iff.1 hsound
    have hhits : (s.scrubCount d m).scrubTimes d = hits := (counted.part (State.scrubTimes · d)).trans hhits.symm
    rw [hhits] at times short long
    rw [hfinal, settle_scrubHits, settle_mem, settle_softRepair, mem, times, counted.mem]
    simp (disch := decide) only [settle_rd, rd]
    exact ⟨fun hd => scrubCount_hbm s m hd, fun hd hc => scrubCount_sm s m hd hc, fun hd => scrubCount_cm s m hd, mget_mput_same ..,
      trivial, fun h => (short h).trans (scrubCount_softRepair s d m), long⟩
  case sound =>
    obtain ⟨r, hscrub⟩ := scrub_row hrow s 0
    rw [hcorr, Nat.add_zero, scrubCorrect_none, if_neg (Bool.eq_false_iff.1 hsound)] at hscrub
    rw [exec_patrolScrub, hscrub]
  case hurt =>
    obtain ⟨r, hscrub⟩ := scrub_row hrow s 0
    rw [hcorr, Nat.add_zero, scrubCorrect_none, if_pos hhurt] at hscrub
    rw [hscrub, settle_mem, settle_softRepair]
    exact ⟨(softEntry_records ..).mem.trans (memUnc_records ..).mem, softEntry_lists ..⟩

end Sys2Proof.Machine
end

section
/-! What a host access is answered from: registers of the boot, the link, power and the network, the layout, the resets and the board
(R398, R400, R405, R412, R483). Two states that agree in these serve the same rows and lines. -/

namespace Sys2Proof.Machine

/-- Registers that decide whether, and where, a host access is served. -/
def viewRegs : List RegName :=
  [.hfBootStatus, .hfHostIde, .hfHostLink, .hfLayoutStatus, .hfPwrPart, .hfPwrTherm, .partNetRouter, .partPwrClu]

/-- Two states answer the host from the same registers, layout, resets and pins. -/
structure State.SameView (s t : State) : Prop where
  reg : ∀ r ∈ viewRegs, ∀ i, t.reg r i = s.reg r i
  active : t.active = s.active
  resets : t.resets = s.resets
  powered : t.board.powered = s.board.powered
  perstN : t.board.perstN = s.board.perstN
  hdmBase : t.hdmBase = s.hdmBase

/-- Records do not touch what the host is answered from. -/
theorem State.Records.sameView {s t : State} {rs : List RegName} (h : s.Records rs t) (hrs : ∀ r ∈ viewRegs, r ∉ rs := by decide) :
    s.SameView t :=
  ⟨fun r hr => h.reg r (hrs r hr), h.part (·.active), h.part (·.resets), h.part (·.board.powered), h.part (·.board.perstN),
    h.part (·.hdmBase)⟩

namespace State.SameView

variable {s t u : State}

theorem refl (s : State) : s.SameView s := ⟨fun _ _ _ => rfl, rfl, rfl, rfl, rfl, rfl⟩

theorem trans (h : s.SameView t) (k : t.SameView u) : s.SameView u :=
  ⟨fun r hr i => (k.reg r hr i).trans (h.reg r hr i), k.active.trans h.active, k.resets.trans h.resets, k.powered.trans h.powered,
    k.perstN.trans h.perstN, k.hdmBase.trans h.hdmBase⟩

/-- The board outputs do not touch it. -/
theorem settle (s : State) : s.SameView (Machine.settle s) where
  reg r hr i := settle_reg s i (ne_of_mem_of_not_mem hr (by decide))
  active := by simp
  resets := by simp
  powered := by simp only [Machine.settle, State.setReg_board]
  perstN := by simp only [Machine.settle, State.setReg_board]
  hdmBase := by simp

theorem withMem (h : s.SameView t) (m : Store) : s.SameView { t with mem := m } :=
  ⟨h.reg, h.active, h.resets, h.powered, h.perstN, h.hdmBase⟩

/-! ## What reads the same -/

theorem rd (h : s.SameView t) (f : Fld) (i : Nat) (hf : f.reg ∈ viewRegs) : t.rd f i = s.rd f i := by
  unfold State.rd; rw [h.reg _ hf]

theorem flag (h : s.SameView t) (f : Fld) (i : Nat) (hf : f.reg ∈ viewRegs) : t.flag f i = s.flag f i := congrArg (· == 1) (h.rd f i hf)

theorem stage (h : s.SameView t) : t.stage = s.stage := h.rd F.hfBootStatus_stage 0 (by decide)

theorem serves (h : s.SameView t) : t.serves = s.serves := by
  simp only [State.serves, h.stage, h.powered, h.perstN]

theorem stackOf (h : s.SameView t) (d : Nat) : t.stackOf d = s.stackOf d := by
  have same : t.hbmLocal = s.hbmLocal := by simp (disch := decide) only [State.hbmLocal, h.flag]
  simp only [State.stackOf, same]

theorem ownerOf (h : s.SameView t) (d : Nat) : t.ownerOf d = s.ownerOf d := by
  simp only [State.ownerOf, h.stackOf]

theorem partDark (h : s.SameView t) (p : Nat) : t.partDark p = s.partDark p := by
  simp (disch := decide) only [State.partDark, h.rd]

theorem homeDark (h : s.SameView t) (d : Nat) : t.homeDark d = s.homeDark d := by
  simp only [State.homeDark, h.ownerOf, h.partDark]

theorem resolve (h : s.SameView t) : t.resolve = s.resolve := by
  have same : t.sliceRows = s.sliceRows := by
    funext p
    simp only [State.sliceRows, State.carve, h.active]
  funext d
  simp only [State.resolve, same]

theorem rowDown (h : s.SameView t) (d : Nat) : t.rowDown d = s.rowDown d := by
  simp (disch := decide) only [State.rowDown, State.partInReset, State.sliceLost, State.cluOn, State.cluState, h.ownerOf, h.partDark,
    h.resets, h.rd]

theorem rowView (h : s.SameView t) (f : Func) (p : Nat) : t.rowView f p = s.rowView f p := by
  cases f <;> simp (disch := decide) only [State.rowView, State.vfHasPart, State.vfTenancy, h.active, h.rd]

/-- A part of a BAR2 access goes the same way. -/
theorem bar2Row (h : s.SameView t) (f : Func) (sec : Bool) (o : Nat) : t.bar2Row f sec o = s.bar2Row f sec o := by
  simp (disch := decide) only [State.bar2Row, State.ioSecure, h.flag, h.rd, h.stage, h.resolve, h.ownerOf, h.rowView, h.rowDown]
  rfl

theorem hdmLine (h : s.SameView t) (hpa : Nat) : t.hdmLine hpa = s.hdmLine hpa := by
  simp (disch := decide) only [State.hdmLine, h.flag, h.stage, h.hdmBase]

theorem cmRefused (h : s.SameView t) (sec : Bool) : t.cmRefused sec = s.cmRefused sec := by
  simp (disch := decide) only [State.cmRefused, h.flag]

end State.SameView

/-! ## Counts and records of host accesses -/

/-- Registers of the host's error counters and log (Table 15-5). -/
def hostErrRegs : List RegName := [.hfHostErr, .hfHostErrlog]

theorem errlog_records (s : State) (addr func kind space : Nat) : s.Records [.hfHostErrlog] (s.errlog addr func kind space) :=
  .ite s.records (s.records.wr.wr.wr.wr.wr.raise _)

theorem deny_records (s : State) (f : Func) (addr space : Nat) : s.Records hostErrRegs (s.deny f addr space) :=
  s.records.inc.trans (errlog_records ..).mono

theorem abortAccess_records (s : State) (f : Func) (addr space : Nat) : s.Records hostErrRegs (s.abortAccess f addr space) :=
  s.records.inc.trans (errlog_records ..).mono

theorem bar2Fail_records (s : State) (f : Func) (o : Nat) (denied : Bool) : s.Records hostErrRegs (s.bar2Fail f o denied) :=
  (State.Records.ite (deny_records ..) (abortAccess_records ..)).tell _ _

theorem hostUnc_records (s : State) (d : Nat) : s.Records memUncRegs (s.hostUnc d) :=
  (memUnc_records ..).trans (softEntry_records ..).mono

/-- After a capture the log holds one, the earlier where it held one. -/
theorem errlog_valid (s : State) (addr func kind space : Nat) : (s.errlog addr func kind space).rd F.hfHostErrlog_valid 0 = 1 := by
  unfold State.errlog
  split
  case isTrue h => exact beq_iff_eq.1 h
  case isFalse => rw [raise_rd, rd_wr_same _ _ _ _ (by decide)]; rfl

/-! ## Merges -/

@[simp] theorem hostMerge_mem (s : State) (d : Nat) (data : List (Option Byte)) : (s.hostMerge d data).mem = s.mem.merge d data := rfl

theorem hostMerge_bufs (s : State) (d : Nat) (data : List (Option Byte)) : (s.hostMerge d data).bufs = s.bufs := (corrCount_records ..).bufs

/-- A merge changes no register but those that count what it corrects. -/
theorem hostMerge_reg (s : State) (d : Nat) (data : List (Option Byte)) (r : RegName) (i : Nat) (hr : r ∉ corrRegs) :
    (s.hostMerge d data).reg r i = s.reg r i := (corrCount_records ..).reg r hr i

theorem hostMerge_sameView (s : State) (d : Nat) (data : List (Option Byte)) : s.SameView (s.hostMerge d data) :=
  (corrCount_records ..).sameView.withMem _

end Sys2Proof.Machine
end

section
/-! Host accesses (R399, R401 to R408, R412): one equation for each way an access through BAR0, BAR2 or CXL.mem goes. -/

namespace Sys2Proof.Machine

variable {s t : State} {f : Func} {off w o n d hpa l : Nat} {sec : Bool} {wr : Bool} {data : List (Option Byte)}

/-! ## Answers -/

theorem answer_reply (s : State) (r : Reply) : (s.answer r).reply = some r := rfl
theorem answer_mem (s : State) (r : Reply) : (s.answer r).mem = s.mem := rfl
theorem answer_tracked (s : State) (r : Reply) : (s.answer r).tracked = s.tracked := rfl
theorem answer_snoops (s : State) (r : Reply) : (s.answer r).snoops = s.snoops := rfl
theorem answer_rd (s : State) (r : Reply) (f : Fld) (i : Nat) : (s.answer r).rd f i = s.rd f i := rd_of_regs (by rw [State.answer]) f i

/-! ## BAR0 -/

theorem badAccess_counts (hs : s.serves = true) (h : breaksR7 off w = true) :
    s.badAccess f off w wr =
      if wr then (s.inc F.hfHostErr_badAccess 0).errlog off (funcNum f) 1 0
      else ((s.inc F.hfHostErr_badAccess 0).errlog off (funcNum f) 1 0).answer (.data (List.replicate w 0xFF)) := by
  simp only [State.badAccess, hs, h, Bool.not_true, Bool.or_self, Bool.false_eq_true, if_false]

theorem badAccess_idle (h : (s.serves && breaksR7 off w) = false) : s.badAccess f off w wr = s := by
  have h' : (!s.serves || !breaksR7 off w) = true := by rw [← Bool.not_and, h]; rfl
  rw [State.badAccess, if_pos h']

theorem deniedAccess_counts (hs : s.serves = true) (h : s.outside f off wr = true) :
    s.deniedAccess f off w wr = if wr then s.deny f off 0 else (s.deny f off 0).answer (.data (List.replicate w 0)) := by
  simp only [State.deniedAccess, hs, h, Bool.not_true, Bool.or_self, Bool.false_eq_true, if_false]

theorem deniedAccess_idle (h : (s.serves && s.outside f off wr) = false) : s.deniedAccess f off w wr = s := by
  have h' : (!s.serves || !s.outside f off wr) = true := by rw [← Bool.not_and, h]; rfl
  rw [State.deniedAccess, if_pos h']

/-! ## BAR2 reads -/

theorem bar2Get_denied (h : s.bar2Row f sec o = .denied) : s.bar2Get f sec o n = (.unsupported, s.bar2Fail f o true) := by
  simp only [State.bar2Get, h]

theorem bar2Get_abort (h : s.bar2Row f sec o = .abort) : s.bar2Get f sec o n = (.aborted, s.bar2Fail f o false) := by
  simp only [State.bar2Get, h]

theorem bar2Get_hurt (h : s.bar2Row f sec o = .ok d) (hhurt : s.mem.hurt (d / 512 * 512) 512 = true) :
    s.bar2Get f sec o n = (.aborted, (s.hostUnc d).bar2Fail f o false) := by
  simp only [State.bar2Get, h, hhurt, if_true]

theorem bar2Get_ok (h : s.bar2Row f sec o = .ok d) (hsound : s.mem.hurt (d / 512 * 512) 512 = false) :
    s.bar2Get f sec o n = (.data (s.mem.rdN d n), s.corr d n) := by
  simp only [State.bar2Get, h, hsound, Bool.false_eq_true, if_false]

/-- A completion and the state after one more part of a read. -/
def bar2Part (f : Func) (sec : Bool) (acc : Reply × State) (p : Nat × Nat) : Reply × State :=
  (acc.1.join (acc.2.bar2Get f sec p.1 p.2).1, (acc.2.bar2Get f sec p.1 p.2).2)

theorem bar2Read_serves (hs : s.serves = true) (len : Nat) :
    s.bar2Read f o len sec =
      ((rowParts o len).foldl (bar2Part f sec) (.data [], s)).2.answer ((rowParts o len).foldl (bar2Part f sec) (.data [], s)).1 := by
  unfold State.bar2Read
  rw [if_neg (by simp [hs])]
  rfl

theorem join_nil (r : Reply) : (Reply.data []).join r = r := by cases r <;> rfl

theorem bar2Read_single {len : Nat} (hs : s.serves = true) (hp : rowParts o len = [(o, len)]) :
    s.bar2Read f o len sec = (s.bar2Get f sec o len).2.answer (s.bar2Get f sec o len).1 := by
  rw [bar2Read_serves hs, hp, List.foldl_cons, List.foldl_nil, bar2Part, join_nil]

/-- Parts that are all served give their bytes one after the other, and change no memory. -/
theorem bar2Parts_ok (at_ : Nat → Nat) (l : List (Nat × Nat))
    (h : ∀ p ∈ l, s.bar2Row f sec p.1 = .ok (at_ p.1) ∧ s.mem.hurt (at_ p.1 / 512 * 512) 512 = false) (a : List Byte)
    (hv : s.SameView t) (hm : t.mem = s.mem) :
    (l.foldl (bar2Part f sec) (.data a, t)).1 = .data (a ++ l.flatMap (fun p => s.mem.rdN (at_ p.1) p.2))
    ∧ (l.foldl (bar2Part f sec) (.data a, t)).2.mem = s.mem := by
  induction l generalizing a t with
  | nil => exact ⟨by simp, hm⟩
  | cons p l ih =>
    obtain ⟨hrow, hsound⟩ := h p (List.mem_cons_self ..)
    have hget : t.bar2Get f sec p.1 p.2 = (.data (s.mem.rdN (at_ p.1) p.2), t.corr (at_ p.1) p.2) := by
      rw [bar2Get_ok ((hv.bar2Row f sec p.1).trans hrow) (hm ▸ hsound), hm]
    have hpart : bar2Part f sec (.data a, t) p = (.data (a ++ s.mem.rdN (at_ p.1) p.2), t.corr (at_ p.1) p.2) := by
      rw [bar2Part, hget]
      rfl
    rw [List.foldl_cons, hpart, List.flatMap_cons, ← List.append_assoc]
    exact ih (fun q hq => h q (List.mem_cons_of_mem _ hq)) _ (hv.trans (corr_records ..).sameView) ((corr_records ..).mem.trans hm)

/-! ## BAR2 writes -/

theorem bar2Put_denied (h : s.bar2Row f sec o = .denied) : s.bar2Put f sec o data = s.bar2Fail f o true := by
  simp only [State.bar2Put, h]

theorem bar2Put_abort (h : s.bar2Row f sec o = .abort) : s.bar2Put f sec o data = s.bar2Fail f o false := by
  simp only [State.bar2Put, h]

theorem bar2Put_ok (h : s.bar2Row f sec o = .ok d) :
    s.bar2Put f sec o data = (if s.mem.mergeHurt d data then (s.hostUnc d).bar2Fail f o false else s).hostMerge d data := by
  simp only [State.bar2Put, h]

/-- What a part reports before it merges leaves memory and the host's view. -/
theorem bar2Put_reports (s : State) (f : Func) (o d : Nat) (c : Bool) :
    (if c then (s.hostUnc d).bar2Fail f o false else s).mem = s.mem
    ∧ s.SameView (if c then (s.hostUnc d).bar2Fail f o false else s) := by
  have failed := bar2Fail_records (s.hostUnc d) f o false
  have recorded := hostUnc_records s d
  cases c
  · exact ⟨rfl, .refl s⟩
  · exact ⟨failed.mem.trans recorded.mem, recorded.sameView.trans failed.sameView⟩

theorem bar2Write_locked (h : s.bar2Locked f sec o data.length = true) : s.bar2Write f o data sec = s := by
  rw [State.bar2Write, if_pos (by simp [h])]

section
variable (hs : s.serves = true) (hfree : s.bar2Locked f sec o data.length = false)
include hs hfree

theorem bar2Write_serves :
    s.bar2Write f o data sec
      = (rowParts o data.length).foldl (fun s p => s.bar2Put f sec p.1 ((data.drop (p.1 - o)).take p.2)) s := by
  rw [State.bar2Write, if_neg (by simp [hs, hfree])]

theorem bar2Write_single (hp : rowParts o data.length = [(o, data.length)]) : s.bar2Write f o data sec = s.bar2Put f sec o data := by
  rw [bar2Write_serves hs hfree, hp, List.foldl_cons, List.foldl_nil, Nat.sub_self, List.drop_zero, List.take_length]

end

/-- Parts that are all served merge their bytes one after the other. -/
theorem bar2Puts_mem (at_ : Nat → Nat) (part : Nat × Nat → List (Option Byte)) (l : List (Nat × Nat))
    (h : ∀ p ∈ l, s.bar2Row f sec p.1 = .ok (at_ p.1)) (hv : s.SameView t) :
    (l.foldl (fun s p => s.bar2Put f sec p.1 (part p)) t).mem = l.foldl (fun m p => m.merge (at_ p.1) (part p)) t.mem := by
  induction l generalizing t with
  | nil => rfl
  | cons p l ih =>
    have hput := bar2Put_ok (data := part p) ((hv.bar2Row f sec p.1).trans (h p (List.mem_cons_self ..)))
    obtain ⟨hmem, hview⟩ := bar2Put_reports t f p.1 (at_ p.1) (t.mem.mergeHurt (at_ p.1) (part p))
    rw [List.foldl_cons, List.foldl_cons, hput,
      ih (fun q hq => h q (List.mem_cons_of_mem _ hq)) ((hv.trans hview).trans (hostMerge_sameView ..)), hostMerge_mem, hmem]

/-! ## CXL.mem -/

theorem cxlRead_unmapped {want : Coherence} (hs : s.serves = true) (h : s.hdmLine hpa = none) :
    s.cxlRead hpa want sec = s.answer .unmapped := by
  simp only [State.cxlRead, hs, h, Bool.not_true, Bool.false_eq_true, if_false]

theorem cxlWrite_unmapped (hs : s.serves = true) (h : s.hdmLine hpa = none) : s.cxlWrite hpa data sec = s.answer .unmapped := by
  simp only [State.cxlWrite, hs, h, Bool.not_true, Bool.false_eq_true, if_false]

section
variable {want : Coherence} (hs : s.serves = true) (hl : s.hdmLine hpa = some l)
include hs hl

theorem cxlWrite_line :
    s.cxlWrite hpa data sec = if s.cmRefused sec then s.deny .pf0 (64 * l) 1
      else if s.homeDark (64 * l) then s else s.hostMerge (64 * l) (data.take 64) := by
  simp only [State.cxlWrite, hs, hl, Bool.not_true, Bool.false_eq_true, if_false]

theorem cxlRead_refused (h : s.cmRefused sec = true) : s.cxlRead hpa want sec = (s.deny .pf0 (64 * l) 1).answer .poisoned := by
  simp only [State.cxlRead, hs, hl, h, Bool.not_true, Bool.false_eq_true, if_false, if_true]

variable (hc : s.cmRefused sec = false)
include hc

/-- A line with an uncorrectable error, or in a dark partition, is poison (R405). -/
theorem cxlRead_poisoned (h : s.mem.hurt (64 * l) 64 = true ∨ s.homeDark (64 * l) = true) :
    s.cxlRead hpa want sec =
      (((if s.mem.hurt (64 * l) 64 then s.hostUnc (64 * l) else s).inc F.hfHostErr_poison 0).errlog (64 * l) 0 4 1).answer .poisoned := by
  have hbad : (s.mem.hurt (64 * l) 64 || s.homeDark (64 * l)) = true := by simpa using h
  simp only [State.cxlRead, hs, hl, hc, hbad, Bool.not_true, Bool.false_eq_true, if_false, if_true]

variable (hsound : s.mem.hurt (64 * l) 64 = false) (hlit : s.homeDark (64 * l) = false)
include hsound hlit

theorem cxlRead_plain : s.cxlRead hpa .none sec = (s.corr (64 * l) 64).answer (.data (s.mem.rdN (64 * l) 64)) := by
  simp only [State.cxlRead, hs, hl, hc, hsound, hlit, Bool.not_true, Bool.or_self, Bool.false_eq_true, if_false, beq_self_eq_true,
    if_true]

variable (hwant : want ≠ .none)
include hwant

/-- A read for a coherent state that the tracker has room for (R407). -/
theorem cxlRead_tracks (h : s.tracked.any (fun t => t.line == l) = true ∨ s.tracked.length < trackMax) :
    s.cxlRead hpa want sec = ((s.corr (64 * l) 64).track l (want == .exclusive)).answer (.data (s.mem.rdN (64 * l) 64)) := by
  have hroom : (!s.tracked.any (fun t => t.line == l) && decide (trackMax ≤ s.tracked.length)) = false := by
    rcases h with h | h
    · rw [h]; rfl
    · rw [decide_eq_false (Nat.not_le.2 h), Bool.and_false]
  simp only [State.cxlRead, hs, hl, hc, hsound, hlit, beq_false_of_ne hwant, hroom, Bool.not_true, Bool.or_self, Bool.false_eq_true,
    if_false]

/-- With the tracker full the read waits for the line tracked longest, asked back once (R407). -/
theorem cxlRead_waits {y : Tracked} (hnew : s.tracked.any (fun t => t.line == l) = false) (hfull : trackMax ≤ s.tracked.length)
    (hy : s.tracked.head? = some y) :
    s.cxlRead hpa want sec =
      (if s.snoops.any (fun x => x.line == y.line) then s else s.snoopLine y.line true false).answer .waits := by
  simp only [State.cxlRead, hs, hl, hc, hsound, hlit, beq_false_of_ne hwant, hnew, decide_eq_true hfull, hy, Bool.not_true,
    Bool.not_false, Bool.and_self, Bool.or_self, Bool.false_eq_true, if_false, if_true]

end

/-- A back-invalidate sent is on its way, and the tracker stands. -/
theorem snoopLine_sends (s : State) (l : Nat) (inv eng : Bool) :
    (s.snoopLine l inv eng).snoops.any (fun x => x.line == l) = true ∧ (s.snoopLine l inv eng).tracked = s.tracked := by
  unfold State.snoopLine
  simp [State.incUnit, State.inc_tracked]

/-! ## A module that does not serve its host -/

theorem bar2Read_idle (h : s.serves = false) (len : Nat) : s.bar2Read f o len sec = s := by
  simp only [State.bar2Read, h, Bool.not_false, if_true]

theorem bar2Write_idle (h : s.serves = false) : s.bar2Write f o data sec = s := by
  simp only [State.bar2Write, h, Bool.not_false, Bool.true_or, if_true]

theorem cxlRead_idle {want : Coherence} (h : s.serves = false) : s.cxlRead hpa want sec = s := by
  simp only [State.cxlRead, h, Bool.not_false, if_true]

theorem cxlWrite_idle (h : s.serves = false) : s.cxlWrite hpa data sec = s := by simp only [State.cxlWrite, h, Bool.not_false, if_true]

end Sys2Proof.Machine
end

section
/-! The statement on host accesses (O48). -/

namespace Sys2Proof.Machine

/-! ## The events -/

theorem exec_vfDenied (s : State) (f : Func) (off w : Nat) (wr : Bool) :
    exec (.vfDenied f off w wr) s = .next (settle (s.deniedAccess f off w wr)) := rfl
theorem exec_bar2Read (s : State) (f : Func) (off len : Nat) (sec : Bool) :
    exec (.bar2Read f off len sec) s = .next (settle (s.bar2Read f off len sec)) := rfl
theorem exec_bar2Write (s : State) (f : Func) (off : Nat) (data : List (Option Byte)) (sec : Bool) :
    exec (.bar2Write f off data sec) s = .next (settle (s.bar2Write f off data sec)) := rfl
theorem exec_cxlMemRead (s : State) (hpa : Nat) (want : Coherence) (sec : Bool) :
    exec (.cxlMemRead hpa want sec) s = .next (settle (s.cxlRead hpa want sec)) := rfl
theorem exec_cxlMemWrite (s : State) (hpa : Nat) (data : List (Option Byte)) (sec : Bool) :
    exec (.cxlMemWrite hpa data sec) s = .next (settle (s.cxlWrite hpa data sec)) := rfl
theorem exec_atomicopRequest (s : State) (f : Func) (off : Nat) :
    exec (.atomicopRequest f off) s = .next (settle (if s.serves then s.answer .unsupported else s)) := rfl
theorem exec_cdatRequest (s : State) :
    exec .cdatRequest s
      = .next (settle (if s.serves then { s with mgmt := s.mgmt ++ [⟨0, .cdat 0 0xFFFFFFFFFF 350 256⟩] } else s)) := rfl
theorem exec_doeDiscovery (s : State) :
    exec .doeDiscovery s = .next (settle (if s.serves then
      { s with mgmt := s.mgmt ++ [⟨0, .discovery [.discovery, .spdm, .securedSpdm, .cdat]⟩] } else s)) := rfl
theorem exec_i3cDynamicAddress (s : State) (a : Nat) :
    exec (.i3cDynamicAddress a) s = .next (settle (if s.board.powered then
      { s with board := { s.board with dynAddr := some (a % 128) } } else s)) := rfl

/-! ## What an access leaves -/

section
variable {s : State} {f : Func} {off l hpa : Nat} {sec : Bool} {data : List (Option Byte)} {want : Coherence}

/-- A BAR2 read whose parts are all served answers with their bytes. -/
theorem bar2Read_leaves {len : Nat} (hs : s.serves = true) (at_ : Nat → Nat)
    (h : ∀ p ∈ rowParts off len, s.bar2Row f sec p.1 = .ok (at_ p.1) ∧ s.mem.hurt (at_ p.1 / 512 * 512) 512 = false) :
    (s.bar2Read f off len sec).reply = some (.data ((rowParts off len).flatMap (fun p => s.mem.rdN (at_ p.1) p.2)))
    ∧ (s.bar2Read f off len sec).mem = s.mem := by
  obtain ⟨hreply, hmem⟩ := bar2Parts_ok at_ (rowParts off len) h [] (.refl s) rfl
  rw [bar2Read_serves hs, answer_reply, answer_mem]
  exact ⟨congrArg some hreply, hmem⟩

/-- Poison is answered, counted and logged. -/
theorem cxlRead_poisoned_leaves (hs : s.serves = true) (hl : s.hdmLine hpa = some l) (hc : s.cmRefused sec = false)
    (h : s.mem.hurt (64 * l) 64 = true ∨ s.homeDark (64 * l) = true) :
    (s.cxlRead hpa want sec).reply = some .poisoned ∧ (s.cxlRead hpa want sec).mem = s.mem
    ∧ (s.cxlRead hpa want sec).rd F.hfHostErr_poison 0 = satAdd F.hfHostErr_poison.len (s.rd F.hfHostErr_poison 0) 1
    ∧ (s.cxlRead hpa want sec).rd F.hfHostErrlog_valid 0 = 1 := by
  have met : s.Records memUncRegs (if s.mem.hurt (64 * l) 64 then s.hostUnc (64 * l) else s) := .ite (hostUnc_records ..) s.records
  rw [cxlRead_poisoned hs hl hc h]
  generalize (if s.mem.hurt (64 * l) 64 then s.hostUnc (64 * l) else s) = t at met
  have logged := errlog_records (t.inc F.hfHostErr_poison 0) (64 * l) 0 4 1
  have counted : (t.inc F.hfHostErr_poison 0).rd F.hfHostErr_poison 0 = satAdd F.hfHostErr_poison.len (t.rd F.hfHostErr_poison 0) 1 :=
    rd_inc_satAdd t F.hfHostErr_poison 0 1 (by decide)
  rw [met.rd 0] at counted
  rw [answer_reply, answer_mem, answer_rd, answer_rd]
  exact ⟨rfl, logged.mem.trans ((State.inc_mem ..).trans met.mem), (logged.rd 0).trans counted, errlog_valid ..⟩

/-- A read that waits for a full tracker leaves it, and asks for the line tracked longest. -/
theorem cxlRead_waits_leaves (hs : s.serves = true) (hl : s.hdmLine hpa = some l) (hc : s.cmRefused sec = false)
    (hsound : s.mem.hurt (64 * l) 64 = false) (hlit : s.homeDark (64 * l) = false) (hwant : want ≠ .none)
    (hnew : s.tracked.any (fun t => t.line == l) = false) (hfull : trackMax ≤ s.tracked.length) :
    (s.cxlRead hpa want sec).reply = some .waits ∧ (s.cxlRead hpa want sec).tracked = s.tracked
    ∧ ∀ y, s.tracked.head? = some y → (s.cxlRead hpa want sec).snoops.any (fun x => x.line == y.line) = true := by
  obtain ⟨y, hy⟩ : ∃ y, s.tracked.head? = some y := by
    cases htracked : s.tracked with
    | nil => rw [htracked] at hfull; exact absurd hfull (by decide)
    | cons y r => exact ⟨y, rfl⟩
  obtain ⟨asked, stands⟩ := snoopLine_sends s y.line true false
  rw [cxlRead_waits hs hl hc hsound hlit hwant hnew hfull hy, answer_reply, answer_tracked, answer_snoops]
  split
  case isTrue h => exact ⟨rfl, rfl, fun z hz => Option.some.inj (hy.symm.trans hz) ▸ h⟩
  case isFalse => exact ⟨rfl, stands, fun z hz => Option.some.inj (hy.symm.trans hz) ▸ asked⟩

end

/-- Settles O48: each access by the equation of the way it goes. -/
theorem hostAccessesComplete : Obligations.HostAccessesComplete := by
  refine ⟨fun f off w s s' hs h hs' => ?bad, fun f off w wr s hs h => ?denied, fun f off w wr s => ?view,
    fun f off len sec s at_ hs => ?read, fun f off data sec s at_ hs hfree => ?write, fun f off data sec s h => ?locked,
    fun hpa l want sec s hs hl => ?cxlRead, fun hpa l data sec s hs hl => ?cxlWrite, fun hpa data want sec s hs hl => ?unmapped,
    fun f off s hs => ?answered, fun f off n b data want i s hs hi => ?idle, fun a s => exec_i3cDynamicAddress s a⟩
  case bad =>
    subst hs'
    rw [exec_bar0BadAccess, exec_bar0BadAccess, badAccess_counts hs h, badAccess_counts hs h, State.answer]
    simp only [Bool.false_eq_true, if_false, if_true, and_self]
  case denied =>
    rw [exec_vfDenied, deniedAccess_counts hs h, State.answer]
  case view =>
    exact ⟨fun h => by rw [exec_bar0BadAccess, badAccess_idle (by rw [h, Bool.and_false])],
      fun h => by rw [exec_vfDenied, deniedAccess_idle (by rw [h, Bool.and_false])]⟩
  case read =>
    refine ⟨fun h => ⟨_, exec_bar2Read .., ?_⟩, fun hp => ?_⟩
    · rw [settle_reply, settle_mem]
      exact bar2Read_leaves hs at_ h
    · rw [exec_bar2Read, bar2Read_single hs hp]
      exact ⟨fun h => by rw [bar2Get_denied h, State.answer], fun h => by rw [bar2Get_abort h, State.answer],
        fun d h hhurt => by rw [bar2Get_hurt h hhurt, State.answer]⟩
  case write =>
    refine ⟨fun h => ⟨_, exec_bar2Write .., ?_⟩, fun hp => ?_⟩
    · rw [settle_mem, bar2Write_serves hs hfree]
      exact bar2Puts_mem at_ (fun p => (data.drop (p.1 - off)).take p.2) _ h (.refl s)
    · rw [exec_bar2Write, bar2Write_single hs hfree hp]
      exact ⟨fun h => by rw [bar2Put_denied h], fun h => by rw [bar2Put_abort h],
        fun d h hlost => by rw [bar2Put_ok h, if_pos hlost],
        fun d h hkept => by rw [bar2Put_ok h, if_neg (Bool.eq_false_iff.1 hkept)]⟩
  case locked => rw [exec_bar2Write, bar2Write_locked h]
  case cxlRead =>
    refine ⟨fun hc => ?_, fun hc h => ⟨_, exec_cxlMemRead .., ?_⟩,
      fun hc hsound hlit => ⟨fun hw => ?_, fun hw h => ?_, fun hw hnew hfull => ⟨_, exec_cxlMemRead .., ?_⟩⟩⟩
    · rw [exec_cxlMemRead, cxlRead_refused hs hl hc, State.answer]
    · simp (disch := decide) only [settle_reply, settle_mem, settle_rd]
      exact cxlRead_poisoned_leaves hs hl hc h
    · subst hw
      rw [exec_cxlMemRead, cxlRead_plain hs hl hc hsound hlit, State.answer]
    · rw [exec_cxlMemRead, cxlRead_tracks hs hl hc hsound hlit hw h, State.answer]
    · simp only [settle_reply, settle_tracked, settle_snoops]
      exact cxlRead_waits_leaves hs hl hc hsound hlit hw hnew hfull
  case cxlWrite => rw [exec_cxlMemWrite, cxlWrite_line hs hl]
  case unmapped =>
    rw [exec_cxlMemRead, exec_cxlMemWrite, cxlRead_unmapped hs hl, cxlWrite_unmapped hs hl, State.answer]
    exact ⟨rfl, rfl⟩
  case answered =>
    rw [exec_atomicopRequest, exec_cdatRequest, exec_doeDiscovery, if_pos hs, if_pos hs, if_pos hs, State.answer]
    exact ⟨rfl, rfl, rfl⟩
  case idle =>
    simp only [List.mem_cons, List.not_mem_nil, or_false] at hi
    rcases hi with rfl | rfl | rfl | rfl | rfl | rfl | rfl | rfl | rfl
    · rw [exec_bar0BadAccess, badAccess_idle (by rw [hs, Bool.false_and])]
    · rw [exec_vfDenied, deniedAccess_idle (by rw [hs, Bool.false_and])]
    · rw [exec_bar2Read, bar2Read_idle hs]
    · rw [exec_bar2Write, bar2Write_idle hs]
    · rw [exec_cxlMemRead, cxlRead_idle hs]
    · rw [exec_cxlMemWrite, cxlWrite_idle hs]
    · rw [exec_atomicopRequest, if_neg (Bool.eq_false_iff.1 hs)]
    · rw [exec_cdatRequest, if_neg (Bool.eq_false_iff.1 hs)]
    · rw [exec_doeDiscovery, if_neg (Bool.eq_false_iff.1 hs)]

end Sys2Proof.Machine
end

section
/-! A host write whose bytes are all written (R171, R195): what it puts, what a read then finds, and which sectors or lines it covers
whole. -/

namespace Sys2Proof.Machine

variable {st : Store} {a b d k m n : Nat} {l : List Byte} {data : List (Option Byte)}

/-! ## Sectors and lines -/

theorem touches_iff : st.touches a n k = true ↔ a < (st.unit k).1 + (st.unit k).2 ∧ (st.unit k).1 < a + n := by simp [Store.touches]

theorem covers_iff : st.covers a n k = true ↔ a ≤ (st.unit k).1 ∧ (st.unit k).1 + (st.unit k).2 ≤ a + n := by simp [Store.covers]

/-- What touches a part of a range touches the range. -/
theorem touches_of_part (h : st.touches b m k = true) (hlo : a ≤ b) (hhi : b + m ≤ a + n) : st.touches a n k = true := by
  rw [touches_iff] at h ⊢
  omega

/-- A range without an uncorrectable error has none in any part. -/
theorem hurt_part (h : st.hurt a n = false) (hlo : a ≤ b) (hhi : b + m ≤ a + n) : st.hurt b m = false :=
  List.any_eq_false.2 fun k hk ht => List.any_eq_false.1 h k hk (touches_of_part ht hlo hhi)

theorem unit_cases (st : Store) (k : Nat) : st.unit k = (64 * (k / 2), 64) ∨ st.unit k = (32 * k, 32) := by
  unfold Store.unit
  split
  · exact .inl rfl
  · exact .inr rfl

theorem touches_congr {st' : Store} (h : st'.lines = st.lines) : st'.touches a n k = st.touches a n k := by
  unfold Store.touches Store.unit
  rw [h]

/-- A sector or line that touches a 64-byte line lies in it. -/
theorem covers_line (h : st.touches (64 * n) 64 k = true) : st.covers (64 * n) 64 k = true := by
  rw [touches_iff] at h
  rw [covers_iff]
  rcases unit_cases st k with hu | hu <;> rw [hu] at h ⊢ <;> simp only at h ⊢ <;> omega

/-- The sector or line that holds a byte touches it. -/
theorem touches_self (st : Store) (a : Nat) : st.touches a 1 (a / 32) = true := by
  rw [touches_iff]
  rcases unit_cases st (a / 32) with hu | hu <;> rw [hu] <;> simp only <;> omega

/-- A write of all its bytes covers what its range covers. -/
theorem mergeWhole_of_covers (h : st.covers d l.length k = true) : st.mergeWhole d (l.map some) k = true := by
  obtain ⟨hlo, hhi⟩ := covers_iff.1 h
  unfold Store.mergeWhole
  generalize st.unit k = u at hlo hhi
  refine List.all_eq_true.2 fun i hi => ?_
  have hi : i < u.2 := List.mem_range.1 hi
  have hin : u.1 + i - d < l.length := by omega
  simp only [List.getElem?_map, List.getElem?_eq_getElem hin, Option.map_some, Option.getD_some, Option.isSome_some, Bool.and_true,
    decide_eq_true_eq]
  omega

/-! ## The bytes of a write -/

theorem writtenBytes_cons (d : Nat) (x : Byte) (data : List (Option Byte)) :
    writtenBytes d (some x :: data) = (d, x) :: writtenBytes (d + 1) data := by
  unfold writtenBytes
  rw [List.length_cons, List.range_succ_eq_map, List.zip_cons_cons, List.filterMap_cons_some (by rfl), List.zip_map_left,
    List.filterMap_map]
  congr 2
  funext e
  simp only [Function.comp_apply, Prod.map_fst, Prod.map_snd, id_eq, Nat.succ_eq_add_one, Nat.add_comm e.1, Nat.add_assoc]

/-- Bytes written one by one are bytes written from an address on. -/
theorem foldl_writtenBytes (st : Store) (d : Nat) (l : List Byte) :
    (writtenBytes d (l.map some)).foldl (fun (x : Store) e => x.wr e.1 e.2) st = st.wrRaw d l := by
  induction l generalizing st d with
  | nil => rfl
  | cons x l ih => rw [List.map_cons, writtenBytes_cons, List.foldl_cons, ih, Store.wrRaw]

/-- What was written from an address on reads back. -/
theorem rdN_wrRaw (st : Store) (d : Nat) (l : List Byte) : (st.wrRaw d l).rdN d l.length = l := by
  refine List.ext_getElem (by simp [Store.rdN]) fun i hi hl => ?_
  have hin : d ≤ d + i ∧ d + i < d + l.length := by omega
  simp only [Store.rdN, List.getElem_map, List.getElem_range, Store.rd_wrRaw, if_pos hin, Nat.add_sub_cancel_left]
  exact (List.getElem_eq_getD 0).symm

/-! ## Merges -/

theorem foldl_wr_codes (ws : List (Nat × Byte)) (st : Store) :
    (ws.foldl (fun (x : Store) e => x.wr e.1 e.2) st).bad = st.bad ∧ (ws.foldl (fun (x : Store) e => x.wr e.1 e.2) st).lines = st.lines := by
  induction ws generalizing st with
  | nil => exact ⟨rfl, rfl⟩
  | cons e ws ih => exact ih (st.wr e.1 e.2)

/-- After a merge an error is met only where one was, and where the write covered it in part. -/
theorem hurt_merge : (st.merge d data).hurt a n = (st.bad.filter (fun k => !st.mergeWhole d data k)).any (fun k => st.touches a n k) := by
  obtain ⟨hbad, hlines⟩ := foldl_wr_codes (st.mergeBytes d data) st
  simp only [Store.merge, Store.hurt, hbad]
  exact congrArg (List.any _) (funext fun k => touches_congr hlines)

/-- A merge brings no error. -/
theorem hurt_merge_of_sound (h : st.hurt a n = false) : (st.merge d data).hurt a n = false := by
  rw [hurt_merge]
  exact List.any_eq_false.2 fun k hk => List.any_eq_false.1 h k (List.mem_filter.1 hk).1

/-- What is covered whole wherever it touches a range leaves the range without an error. -/
theorem hurt_merge_whole (h : ∀ k, st.touches a n k = true → st.mergeWhole d data k = true) : (st.merge d data).hurt a n = false := by
  rw [hurt_merge]
  refine List.any_eq_false.2 fun k hk ht => ?_
  have hpart := (List.mem_filter.1 hk).2
  rw [h k ht] at hpart
  cases hpart

/-- A write that loses no byte reads back. -/
theorem rdN_merge (h : st.mergeHurt d (l.map some) = false) : (st.merge d (l.map some)).rdN d l.length = l := by
  have hall : st.mergeBytes d (l.map some) = writtenBytes d (l.map some) :=
    List.filter_eq_self.2 fun e he => by simpa using List.any_eq_false.1 h e he
  have hraw : (st.mergeBytes d (l.map some)).foldl (fun (x : Store) e => x.wr e.1 e.2) st = st.wrRaw d l := by
    rw [hall, foldl_writtenBytes]
  exact (congrArg (fun x : Store => x.rdN d l.length) hraw).trans (rdN_wrRaw st d l)

/-- A write into sound bytes loses none. -/
theorem mergeHurt_of_sound (h : st.hurt d data.length = false) : st.mergeHurt d data = false := by
  refine List.any_eq_false.2 fun e he => ?_
  have hin := mem_writtenBytes d data e he
  simp [Store.mergeLoses, hurt_part h hin.1 (m := 1) (by omega)]

/-! ## A whole line -/

section
variable (hlen : l.length = 64)
include hlen

theorem mergeWhole_line (h : st.touches (64 * n) 64 k = true) : st.mergeWhole (64 * n) (l.map some) k = true :=
  mergeWhole_of_covers (hlen ▸ covers_line h)

/-- A byte of the line lies in a sector or line that the write covers whole. -/
theorem mergeWhole_line_byte {e : Nat × Byte} (he : e ∈ writtenBytes (64 * n) (l.map some)) (h : st.touches e.1 1 k = true) :
    st.mergeWhole (64 * n) (l.map some) k = true := by
  have hin := mem_writtenBytes _ _ e he
  rw [List.length_map, hlen] at hin
  exact mergeWhole_line hlen (touches_of_part h hin.1 (by omega))

theorem mergeHurt_line : st.mergeHurt (64 * n) (l.map some) = false := by
  refine List.any_eq_false.2 fun e he => ?_
  simp [Store.mergeLoses, mergeWhole_line_byte hlen he (touches_self st e.1)]

/-- A whole line corrects nothing: it reads nothing. -/
theorem mergeFixes_line : st.mergeFixes (64 * n) (l.map some) = 0 := by
  have hnone : st.weak.filter (fun k => !st.mergeWhole (64 * n) (l.map some) k
      && (st.mergeBytes (64 * n) (l.map some)).any (fun e => st.touches e.1 1 k)) = [] := by
    refine List.filter_eq_nil_iff.2 fun k _ hk => ?_
    obtain ⟨hpart, hany⟩ := Bool.and_eq_true_iff.1 hk
    obtain ⟨e, he, ht⟩ := List.any_eq_true.1 hany
    rw [mergeWhole_line_byte hlen (List.mem_filter.1 he).1 ht] at hpart
    cases hpart
  rw [Store.mergeFixes, hnone]
  rfl

end

end Sys2Proof.Machine
end

section
/-! The statement on host writes (O8): a write through BAR2 into one row, or a whole line through CXL.mem, and the read of the same bytes. -/

namespace Sys2Proof.Machine

/-! ## The row a BAR2 offset reaches -/

theorem rowParts_single {o n : Nat} (hn : n ≠ 0) (h : (o + n - 1) / 512 = o / 512) : rowParts o n = [(o, n)] := by
  have hlo : max o (512 * (o / 512 + 0)) = o := by omega
  have hhi : min (o + n) (512 * (o / 512 + 0 + 1)) - o = n := by omega
  have hz : (n == 0) = false := beq_false_of_ne hn
  simp only [rowParts, hz, h, Nat.sub_self, Nat.zero_add, List.range_one, List.map_cons, List.map_nil, hlo, hhi, Bool.false_eq_true, if_false]

/-- BAR2's windows keep a byte's place in its row (R401). -/
theorem bar2Dpa_row {s : State} {o d : Nat} (h : (bar2Dpa o).bind s.resolve = some d) : d % 512 = o % 512 := by
  obtain ⟨e, he, hd⟩ := Option.bind_eq_some_iff.1 h
  unfold bar2Dpa at he
  unfold State.resolve at hd
  unfold hbmEnd smBase smPart ilBase cmBase cmCore at *
  split at he
  · have he := Option.some.inj he
    rw [if_neg (by omega), if_neg (by omega), if_pos (by omega)] at hd
    dsimp only at hd
    split at hd
    · have hd := Option.some.inj hd
      omega
    · cases hd
  · split at he
    · have he := Option.some.inj he
      rw [if_neg (by omega), if_neg (by omega), if_neg (by omega), if_neg (by omega), if_neg (by omega), if_neg (by omega),
        if_pos (by omega)] at hd
      have hd := Option.some.inj hd
      omega
    · cases he

theorem bar2Row_row {s : State} {f : Func} {sec : Bool} {o d : Nat} (h : s.bar2Row f sec o = .ok d) : d % 512 = o % 512 := by
  unfold State.bar2Row at h
  split at h
  · cases h
  · split at h
    · cases h
    · split at h
      · cases h
      · next e he =>
        split at h
        · cases h
        · split at h
          · cases h
          · cases h
            exact bar2Dpa_row he

/-! ## The statement -/

/-- Settles O8: a merge that loses no byte, and the same way to the bytes for the read. -/
theorem hostWriteReadsBack : Obligations.HostWriteReadsBack := by
  refine ⟨fun f off d l sec s hs hfree hl hone hrow hsound => ⟨_, exec_bar2Write .., ?bar2⟩,
    fun hpa n l sec s hs hline hc hlit hlen => ⟨_, exec_cxlMemWrite .., ?cxl⟩⟩
  case bar2 =>
    have hpos : 0 < l.length := List.length_pos_iff.2 hl
    have hplace := bar2Row_row hrow
    have hbytes : s.mem.hurt d l.length = false := hurt_part hsound (by omega) (by omega)
    have hkept : s.mem.mergeHurt d (l.map some) = false := mergeHurt_of_sound (by rwa [List.length_map])
    have hparts : rowParts off l.length = [(off, l.length)] := rowParts_single (Nat.ne_of_gt hpos) hone
    have hwrite : s.bar2Write f off (l.map some) sec = s.hostMerge d (l.map some) := by
      rw [bar2Write_single hs (by rwa [List.length_map]) (by rwa [List.length_map]), bar2Put_ok hrow, if_neg (Bool.eq_false_iff.1 hkept)]
    have view := (hostMerge_sameView s d (l.map some)).trans (.settle _)
    have hmem : (settle (s.hostMerge d (l.map some))).mem = s.mem.merge d (l.map some) := by rw [settle_mem, hostMerge_mem]
    have hread := bar2Read_single (f := f) (sec := sec) (view.serves.trans hs) hparts
    rw [bar2Get_ok ((view.bar2Row f sec off).trans hrow) (hmem ▸ hurt_merge_of_sound hsound), hmem, rdN_merge hkept] at hread
    rw [hwrite]
    refine ⟨fun a ha => ?_, fun hwf => ?_, ?_, fun r i hb hp he => ?_, _, exec_bar2Read .., ?_⟩
    · rw [hmem]
      exact Store.rd_merge_outside _ _ _ _ (by rwa [List.length_map])
    · rw [hmem]
      exact Store.wf_merge _ _ _ hwf
    · rw [settle_bufs, hostMerge_bufs]
    · rw [settle_reg _ i hb, hostMerge_reg _ _ _ _ _ (by simp [corrRegs, hp, he])]
    · rw [hread, settle_reply, settle_mem, answer_reply, answer_mem]
      exact ⟨rfl, (corr_records ..).mem⟩
  case cxl =>
    have hwrite : s.cxlWrite hpa (l.map some) sec = s.hostMerge (64 * n) (l.map some) := by
      rw [cxlWrite_line hs hline, if_neg (Bool.eq_false_iff.1 hc), if_neg (Bool.eq_false_iff.1 hlit),
        List.take_of_length_le (Nat.le_of_eq ((List.length_map ..).trans hlen))]
    have view := (hostMerge_sameView s (64 * n) (l.map some)).trans (.settle _)
    have hmem : (settle (s.hostMerge (64 * n) (l.map some))).mem = s.mem.merge (64 * n) (l.map some) := by rw [settle_mem, hostMerge_mem]
    have hread := cxlRead_plain (view.serves.trans hs) ((view.hdmLine hpa).trans hline) ((view.cmRefused sec).trans hc)
      (hmem ▸ hurt_merge_whole fun k => mergeWhole_line hlen) ((view.homeDark (64 * n)).trans hlit)
    have hbytes := rdN_merge (mergeHurt_line hlen : s.mem.mergeHurt (64 * n) (l.map some) = false)
    rw [hlen] at hbytes
    rw [hmem, hbytes] at hread
    rw [hwrite]
    refine ⟨fun a ha => ?_, fun hwf => ?_, ?_, fun r i hb => ?_, _, exec_cxlMemRead .., ?_⟩
    · rw [hmem]
      exact Store.rd_merge_outside _ _ _ _ (by rwa [List.length_map, hlen])
    · rw [hmem]
      exact Store.wf_merge _ _ _ hwf
    · rw [settle_bufs, hostMerge_bufs]
    · rw [settle_reg _ i hb, State.hostMerge, mergeFixes_line hlen, corrCount_zero]
      rfl
    · rw [hread, settle_reply, settle_mem, answer_reply, answer_mem]
      exact ⟨rfl, (corr_records ..).mem⟩

end Sys2Proof.Machine
end

section
/-! Rows that a core's engines read and write (R195, R313, R314, R459): what lets a row answer, and that a read in core memory leaves a
write its way. -/

namespace Sys2Proof.Machine

variable {s t : State} {g d : Nat} {l : List Byte}

/-! ## Reads -/

/-- A row of core memory that answers is read at its home, and the read counts what it corrects: each of the eight checks before it would
have ended it without data. -/
theorem rowRead_core (hd : cmBase ≤ d) (h : (s.rowRead g d).1 = .data l) : s.rowRead g d = (.data l, s.corr d 512) := by
  have home : (s.corr d 512).rdcRead (partOf g) d = ((s.corr d 512).mem.rdN d 512, s.corr d 512) := by
    rw [State.rdcRead, if_pos (by simp [hd])]
  revert h
  unfold State.rowRead
  rw [home]
  iterate 8
    split
    · nofun
  exact fun h => Prod.ext h rfl

/-! ## Writes -/

/-- Neither fence, reset, network, host nor a locked result keeps core `g` from writing the row at `d`. -/
structure State.RowOpen (s : State) (g d : Nat) : Prop where
  fence : (s.fenced g && cmHolder d != some g) = false
  home : s.homeDark d = false
  nack : s.nack g d = none
  slice : s.sliceLost d = false
  path : s.rowHeld g d false = false
  lost : s.snoopLost d = false
  host : (s.heldByHost d true).isEmpty = true
  free : s.lockedMem d 512 = false

/-- A write that is done found the row open. -/
theorem rowWrite_open (h : (s.rowWrite g d l).1 = .done) : s.RowOpen g d := by
  unfold State.rowWrite State.rowPut at h
  split at h
  · cases h
  next fence =>
  split at h
  · cases h
  next home =>
  split at h
  · cases h
  next nack =>
  split at h
  · cases h
  next slice =>
  split at h
  · cases h
  next path =>
  split at h
  · cases h
  next lost =>
  split at h
  · cases h
  next host =>
  split at h
  · cases h
  next free =>
  simp only [Bool.not_eq_true, Bool.not_eq_false'] at fence home slice path lost host free
  exact ⟨fence, home, nack, slice, path, lost, host, free⟩

/-- The state after a row was written: its copies on their way and in caches follow (R190). -/
def State.rowWritten (s : State) (g d : Nat) (l : List Byte) : State := { s.rdcWrite (partOf g) d l with mem := s.mem.wrN d l }

theorem State.RowOpen.write (h : s.RowOpen g d) (l : List Byte) : s.rowWrite g d l = (.done, s.rowWritten g d l) := by
  obtain ⟨fence, home, nack, slice, path, lost, host, free⟩ := h
  unfold State.rowWrite State.rowPut
  rw [fence, home, nack, slice, path, lost, host, free]
  rfl

/-! ## States that differ in records only -/

theorem corr_aside (s : State) (d n : Nat) : s.Aside (s.corr d n) := by
  unfold State.corr State.corrCount
  split
  · exact .refl s
  · split
    · exact .wr s _ _ _ (by decide)
    · split
      · exact .wr s _ _ _ (by decide)
      · exact .wr s _ _ _ (by decide)

/-- Above shared memory neither a dark partition, a router nor the host stands between a core and a row. -/
theorem core_row_reached (s : State) (hd : cmBase ≤ d) : s.homeDark d = false ∧ s.sliceLost d = false ∧ s.heldByHost d true = [] := by
  have hsm : smBase + 8 * smPart ≤ cmBase := by decide
  have hhbm : hbmEnd ≤ cmBase := by decide
  refine ⟨?_, ?_, if_pos (Nat.le_trans hhbm hd)⟩
  · rw [State.homeDark, decide_eq_false (Nat.not_lt.2 hd), Bool.false_and]
  · rw [State.sliceLost, decide_eq_false (Nat.not_lt.2 (Nat.le_trans hsm hd)), Bool.and_false, Bool.false_and]

/-- A row of core memory open in one state is open in every state that differs in records only. -/
theorem State.Aside.rowOpen (h : s.Aside t) (hd : cmBase ≤ d) (hopen : s.RowOpen g d) : t.RowOpen g d := by
  obtain ⟨home, slice, host⟩ := core_row_reached t hd
  exact ⟨by rw [h.fenced]; exact hopen.fence, home, (h.nack g d).trans hopen.nack, slice, (h.rowHeld g d _).trans hopen.path,
    (h.part (State.snoopLost · d)).trans hopen.lost, by rw [host]; rfl, h.lockedMem hopen.free⟩

theorem State.Aside.classS (h : s.Aside t) (g d : Nat) : t.classS g d = s.classS g d := by
  have same : t.routeFor g d false = s.routeFor g d false := by
    simp only [State.routeFor, State.rowIsEnd, State.isEnd, h.active, h.roles]
  rw [State.classS, State.moverClass, same]
  rfl

end Sys2Proof.Machine
end

section
/-! MOVE (R183, R186): a command that goes on until it is over, waits or faults, and the steps of a plain move of one row within core
memory. -/

namespace Sys2Proof.Machine

/-! ## The command -/

section
variable {s t : State} {g : Nat} {x : Started} {m : MoveCmd} {pr : Prog}

/-- The steps of a MOVE, from the progress its started command has. -/
def State.moveSteps (s : State) (g : Nat) (x : Started) (m : MoveCmd) : MoveStep × Prog × State :=
  State.moveLoop (unitEng g 3) g (s.cmdCtx (unitEng g 3) x.e).1 (s.cmdCtx (unitEng g 3) x.e).2 x.id m
    (m.rows + 2 * m.dstRows + m.sclRows + 8) x.prog s

variable (hx : s.oldest (unitEng g 3) 0x70 = some x) (hm : m = MoveCmd.of x.e) (hruns : s.runs g = true)
include hx hm hruns

theorem moveRun_over (h : s.moveSteps g x m = (.over, pr, t)) :
    s.moveRun g =
      if t.unacked (unitEng g 3) x.id then t.modStarted (unitEng g 3) x.id (fun y => { y with prog := pr })
      else ((t.appendDone (partOf g) m pr).modStarted (unitEng g 3) x.id (fun y => { y with prog := pr })).opDone (unitEng g 3) x.id := by
  subst hm
  unfold State.moveSteps at h
  simp only [State.moveRun, hx, hruns, h, Bool.not_true, Bool.false_eq_true, if_false]

theorem moveRun_fault {st sub a : Nat} (h : s.moveSteps g x m = (.fault st sub a, pr, t)) :
    s.moveRun g = ((t.wr F.coreMovFaultAddr_addr g a).opFail (unitEng g 3) x st sub).repeated g := by
  subst hm
  unfold State.moveSteps at h
  simp only [State.moveRun, hx, hruns, h, Bool.not_true, Bool.false_eq_true, if_false]

theorem moveRun_wait (h : s.moveSteps g x m = (.wait, pr, t)) :
    s.moveRun g = t.modStarted (unitEng g 3) x.id (fun y => { y with prog := pr }) := by
  subst hm
  unfold State.moveSteps at h
  simp only [State.moveRun, hx, hruns, h, Bool.not_true, Bool.false_eq_true, if_false]

theorem moveRun_go {q : Prog} (h : s.moveSteps g x m = (.go q, pr, t)) :
    s.moveRun g = t.modStarted (unitEng g 3) x.id (fun y => { y with prog := pr }) := by
  subst hm
  unfold State.moveSteps at h
  simp only [State.moveRun, hx, hruns, h, Bool.not_true, Bool.false_eq_true, if_false]

end

/-! ## Steps one after the other -/

section
variable {s t : State} {u g cp ctx id n : Nat} {m : MoveCmd} {pr q : Prog}

theorem moveLoop_go (h : s.moveStep u g cp ctx id m pr = (.go q, t)) (hq : q.ready = true) :
    s.moveLoop u g cp ctx id m (n + 1) pr = t.moveLoop u g cp ctx id m n q := by
  simp only [State.moveLoop, h, hq, if_true]

theorem moveLoop_over (h : s.moveStep u g cp ctx id m pr = (.over, t)) :
    s.moveLoop u g cp ctx id m (n + 1) pr = (.over, pr, t) := by
  simp only [State.moveLoop, h]

end

/-! ## One row within core memory -/

/-- A MOVE of one row of core memory, without conversion. -/
structure MoveCmd.OneRow (m : MoveCmd) : Prop where
  src : m.srcKind = 0
  dst : m.dstKind = 0
  cvt : m.cvt = false
  mx : m.mx = 0
  rows : m.rows = 1
  append : m.append = false

theorem MoveCmd.OneRow.dstRows {m : MoveCmd} (h : m.OneRow) : m.dstRows = 1 := by
  simp [MoveCmd.dstRows, h.mx, h.cvt, h.rows]

/-- An operation that counted nothing changes nothing. -/
theorem counts_none (s : State) (g : Nat) : s.counts g {} = s := rfl

section
variable {s t : State} {u g cp ctx id : Nat} {m : MoveCmd} {l : List Byte} (h : m.OneRow)
include h

theorem moveStep_begins : s.moveStep u g cp ctx id m { ready := true } = (.go { ready := true, begun := true }, s) := by
  simp [State.moveStep, State.moveBegin, h.src, h.dst]

theorem moveStep_reads (hsent : s.unsent (unitEng g 3) (cmRow g m.src) = false) (hread : s.rowRead g (cmRow g m.src) = (.data l, t)) :
    s.moveStep u g cp ctx id m { ready := true, begun := true } = (.go { ready := true, begun := true, src := 1, bytes := l }, t) := by
  simp [State.moveStep, State.place, State.moveRead, MoveCmd.transform, h.src, h.mx, h.cvt, h.rows, hsent, hread, counts_none]

theorem moveStep_writes (hlen : l.length = 512) (hclass : s.classS g (cmRow g m.dst) = false)
    (hsent : s.unsent (unitEng g 3) (cmRow g m.dst) = false) (hwrite : s.rowWrite g (cmRow g m.dst) l = (.done, t)) :
    s.moveStep u g cp ctx id m { ready := true, begun := true, src := 1, bytes := l }
      = (.go { ready := true, begun := true, src := 1, dst := 1 }, t) := by
  have hrow : l.take 512 = l := List.take_of_length_le (Nat.le_of_eq hlen)
  have hrest : l.drop 512 = [] := List.drop_of_length_le (Nat.le_of_eq hlen)
  simp [State.moveStep, State.place, State.moveWrite, h.dst, h.mx, h.rows, h.dstRows, h.append, hsent, hclass, hlen, hrow, hrest, hwrite]

theorem moveStep_over : s.moveStep u g cp ctx id m { ready := true, begun := true, src := 1, dst := 1 } = (.over, s) := by
  simp [State.moveStep, h.mx, h.rows, h.dstRows]

end

/-- A MOVE that appends nothing ends no range. -/
theorem appendDone_none {m : MoveCmd} (h : m.append = false) (s : State) (p : Nat) (pr : Prog) : s.appendDone p m pr = s := by
  rw [State.appendDone, if_pos (by rw [h]; rfl)]

theorem cmBase_le_cmRow (g r : Nat) : cmBase ≤ cmRow g r := by
  unfold cmRow
  omega

section
variable {s : State} {g : Nat} {x : Started} {m : MoveCmd} {l : List Byte} (h : m.OneRow) (hprog : x.prog = { ready := true })
  (hlen : l.length = 512) (hread : (s.rowRead g (cmRow g m.src)).1 = .data l) (hwrite : (s.rowWrite g (cmRow g m.dst) l).1 = .done)
  (hclass : s.classS g (cmRow g m.dst) = false) (hsrc : s.unsent (unitEng g 3) (cmRow g m.src) = false)
  (hdst : s.unsent (unitEng g 3) (cmRow g m.dst) = false)
include h hprog hlen hread hwrite hclass hsrc hdst

/-- The read counts what it corrects, and the write goes its way all the same. -/
theorem moveSteps_oneRow :
    s.moveSteps g x m
      = (.over, { ready := true, begun := true, src := 1, dst := 1 }, (s.corr (cmRow g m.src) 512).rowWritten g (cmRow g m.dst) l) := by
  have aside := corr_aside s (cmRow g m.src) 512
  have hput := (aside.rowOpen (cmBase_le_cmRow ..) (rowWrite_open hwrite)).write l
  have hsent : (s.corr (cmRow g m.src) 512).unsent (unitEng g 3) (cmRow g m.dst) = false :=
    (aside.part (State.unsent · (unitEng g 3) (cmRow g m.dst))).trans hdst
  have hscl : m.sclRows = 0 := by simp [MoveCmd.sclRows, h.mx]
  rw [State.moveSteps, hprog, h.rows, h.dstRows, hscl, moveLoop_go (moveStep_begins h) rfl,
    moveLoop_go (moveStep_reads h hsrc (rowRead_core (cmBase_le_cmRow ..) hread)) rfl,
    moveLoop_go (moveStep_writes h hlen ((aside.classS ..).trans hclass) hsent hput) rfl, moveLoop_over (moveStep_over h)]

end

/-! ## Started commands -/

/-- A change of a started command that keeps its number is what its queue then shows of it. -/
theorem startedOf_modStarted (s : State) (u id : Nat) (f : Started → Started) (hf : ∀ y, (f y).id = y.id) :
    (s.modStarted u id f).startedOf u id = (s.startedOf u id).map f := by
  have hid : (fun y : Started => y.id == id) ∘ (fun y => if y.id == id then f y else y) = fun y => y.id == id := by
    funext y
    by_cases h : y.id = id
    · simp [h, hf]
    · simp [h]
  rw [State.startedOf, State.modStarted, q_setQ_same, List.find?_map, hid, State.startedOf]
  cases hy : (s.q u).started.find? (fun y => y.id == id) with
  | none => rfl
  | some y =>
    have hyid := List.find?_some hy
    simp only [Option.map_some, hyid, if_true]

theorem startedOf_opDone (s : State) (u id : Nat) :
    (s.opDone u id).startedOf u id = (s.startedOf u id).map (fun y => { y with done := some (0, 0) }) :=
  startedOf_modStarted s u id _ fun _ => rfl

theorem startedOf_setProg (s : State) (u id : Nat) (pr : Prog) :
    (s.modStarted u id (fun y => { y with prog := pr })).startedOf u id = (s.startedOf u id).map (fun y => { y with prog := pr }) :=
  startedOf_modStarted s u id _ fun _ => rfl

/-- The oldest command of an opcode is one of its queue's. -/
theorem startedOf_oldest {s : State} {u opcode : Nat} {x : Started} (h : s.oldest u opcode = some x) : ∃ y, s.startedOf u x.id = some y := by
  have hmem := List.mem_of_find?_eq_some h
  exact Option.isSome_iff_exists.1 (List.find?_isSome.2 ⟨x, hmem, by simp⟩)

end Sys2Proof.Machine
end

section
/-! Waits on rings (R178 to R181): the claim of a slot in its turn, the fault at its timeout, and the reset of a ring. -/

namespace Sys2Proof.Machine

variable {s : State} {k : Nat} {w : RingWait} {r : Ring}

/-! ## Deadlines -/

theorem deadline_ahead {now : Nat} (h : r.timeout = 0 ∨ now < w.since + r.timeout) :
    (w.deadline r).any (fun d => decide (d ≤ now)) = false := by
  rw [RingWait.deadline]
  rcases h with h | h
  · rw [h]; rfl
  · split
    · rfl
    · exact decide_eq_false (Nat.not_le.2 h)

theorem deadline_past {now : Nat} (hlimit : r.timeout ≠ 0) (h : w.since + r.timeout ≤ now) :
    (w.deadline r).any (fun d => decide (d ≤ now)) = true := by
  rw [RingWait.deadline, if_neg (by simpa using hlimit)]
  exact decide_eq_true h

/-! ## Claims -/

theorem ringClaim_claims (hw : s.ringWaits[k]? = some w) (hr : s.ringDef w.part w.ring = some r) (hslot : w.slot = none)
    (hfirst : ∀ x ∈ s.ringWaits.take k, ¬ (x.part = w.part ∧ x.ring = w.ring ∧ x.write = w.write ∧ x.slot = none))
    (hearly : r.timeout = 0 ∨ s.whoFt w.who < w.since + r.timeout) (hreset : ∀ x ∈ s.ringResets, x ≠ (w.part, w.ring))
    (hok : (s.ringSt w.part w.ring).ok w.write = true) :
    s.ringClaim k = { s.setRing w.part w.ring ((s.ringSt w.part w.ring).claim r.slots w.write).2 with
      ringWaits := setNth s.ringWaits k { w with slot := some ((s.ringSt w.part w.ring).claim r.slots w.write).1 } } := by
  have first : (s.ringWaits.take k).any (fun x => x.part == w.part && x.ring == w.ring && x.write == w.write && x.slot.isNone) = false :=
    List.any_eq_false.2 fun x hx hsame => hfirst x hx (by simpa [and_assoc] using hsame)
  have unreset : s.ringResets.any (fun x => x == (w.part, w.ring)) = false :=
    List.any_eq_false.2 fun x hx => by simpa using hreset x hx
  unfold State.ringClaim
  rw [hw]
  dsimp only
  rw [hr]
  dsimp only
  rw [hslot, deadline_ahead hearly, first, unreset, hok]
  rfl

/-! ## Timeouts -/

section
variable (hw : s.ringWaits[k]? = some w) (hr : s.ringDef w.part w.ring = some r) (hslot : w.slot = none) (hlimit : r.timeout ≠ 0)
include hw hr hslot hlimit

theorem ringTimeout_cmd {u id : Nat} {x : Started} (hwho : w.who = .cmd u id) (hlate : w.since + r.timeout ≤ s.ftUnit u)
    (hclock : s.clockStopped (cluIdx (u / 4)) = false) (hx : s.startedOf u id = some x) :
    s.ringTimeout k =
      let s1 : State := { s with ringWaits := dropNth s.ringWaits k }
      if u % 4 = 0 then s1.opFail u x 0x38 (if w.write then 2 else 1) 0 (s.expired (u / 4) (w.since + r.timeout))
      else (s1.ringAddr.2.wr F.coreMovFaultAddr_addr (u / 4) s1.ringAddr.1).opFail u x 0x7A (if w.write then 2 else 1) 0
        (s.expired (u / 4) (w.since + r.timeout)) := by
  have hpast : (w.deadline r).any (fun d => decide (d ≤ s.whoFt w.who)) = true := deadline_past hlimit (by rw [hwho]; exact hlate)
  have hcore : w.who.core = u / 4 := by rw [hwho]; rfl
  have hstarted : ({ s with ringWaits := dropNth s.ringWaits k } : State).startedOf u id = some x := hx
  unfold State.ringTimeout
  rw [hw]
  dsimp only
  rw [hr]
  dsimp only
  rw [hcore, hslot, hpast, hclock, hwho]
  dsimp only
  rw [hstarted, if_neg (by simp)]
  dsimp only
  by_cases hu : u % 4 = 0
  · rw [if_pos (beq_iff_eq.2 hu), if_pos hu]
  · rw [if_neg (by simpa using hu), if_neg hu]

theorem ringTimeout_gang {g n : Nat} {q : Gang} {la : Launch} {l : ILine} (hwho : w.who = .gang g n)
    (hlate : w.since + r.timeout ≤ s.ftCore g) (hclock : s.clockStopped (cluIdx g) = false) (hq : s.gang g n = some q)
    (hla : s.launch g q.launch = some la) (hl : s.iline g la.ctxPart la.ctx ((la.code + 8 * q.pc) / 512 * 512) = some l) :
    s.ringTimeout k = State.vecFault { s with ringWaits := dropNth s.ringWaits k } g n 0x4E (if w.write then 2 else 1)
      (q.active (l.words.getD ((la.code + 8 * q.pc) % 512 / 8) 0)) (q.stageRow (l.words.getD ((la.code + 8 * q.pc) % 512 / 8) 0))
      (s.expired g (w.since + r.timeout)) := by
  have hpast : (w.deadline r).any (fun d => decide (d ≤ s.whoFt w.who)) = true := deadline_past hlimit (by rw [hwho]; exact hlate)
  have hcore : w.who.core = g := by rw [hwho]; rfl
  have hgang : ({ s with ringWaits := dropNth s.ringWaits k } : State).gang g n = some q := hq
  have hlaunch : ({ s with ringWaits := dropNth s.ringWaits k } : State).launch g q.launch = some la := hla
  have hline : ({ s with ringWaits := dropNth s.ringWaits k } : State).iline g la.ctxPart la.ctx ((la.code + 8 * q.pc) / 512 * 512)
    = some l := hl
  unfold State.ringTimeout
  rw [hw]
  dsimp only
  rw [hr]
  dsimp only
  rw [hcore, hslot, hpast, hclock, hwho]
  dsimp only
  rw [hgang]
  dsimp only
  rw [hlaunch]
  dsimp only
  rw [hline]
  rfl

end

/-! ## Resets -/

theorem ringReset_go {v : Nat} (s : State) (p : Nat) (hgo : bitAt v 31 = true) :
    s.ringReset p v = ((s.softWr .partRingReset p v).ringClear p ((s.softWr .partRingReset p v).rd F.partRingReset_ring p)).wr
      F.partRingReset_go p 0 := by
  rw [State.ringReset, if_pos hgo]

end Sys2Proof.Machine
end

section
/-! The statement on the mover and the rings (O30). -/

namespace Sys2Proof.Machine

theorem exec_move (s : State) (g : CoreId) : exec (.move g) s = .next (settle (s.moveRun g)) := rfl
theorem exec_ringSlotClaim (s : State) (k : Nat) : exec (.ringSlotClaim k) s = .next (settle (s.ringClaim k)) := rfl
theorem exec_ringTimeout (s : State) (k : Nat) : exec (.ringTimeout k) s = .next (settle (s.ringTimeout k)) := rfl

theorem exec_ringReset {s : State} {f : Func} {p : PartId} {v : Word64} (h : s.gate f .partRingReset p true = .ok) :
    exec (.ringReset f p v) s = .next (settle (s.ringReset p v.toNat)) := congrArg finish (host_ok h _)

theorem settle_startedOf (s : State) (u id : Nat) : (settle s).startedOf u id = s.startedOf u id := by
  rw [State.startedOf, settle_q, State.startedOf]

/-- A MOVE of one row within core memory copies it and is done with OK. -/
theorem moveRun_oneRow {s : State} {g : Nat} {x : Started} {m : MoveCmd} {l : List Byte}
    (hx : s.oldest (unitEng g 3) 0x70 = some x) (hm : m = MoveCmd.of x.e) (hruns : s.runs g = true) (h : m.OneRow)
    (hprog : x.prog = { ready := true }) (hlen : l.length = 512) (hread : (s.rowRead g (cmRow g m.src)).1 = .data l)
    (hwrite : (s.rowWrite g (cmRow g m.dst) l).1 = .done) (hclass : s.classS g (cmRow g m.dst) = false)
    (hsrc : s.unsent (unitEng g 3) (cmRow g m.src) = false) (hdst : s.unsent (unitEng g 3) (cmRow g m.dst) = false)
    (hacked : s.unacked (unitEng g 3) x.id = false) :
    (s.moveRun g).mem = s.mem.wrN (cmRow g m.dst) l ∧ (s.moveRun g).bufs = s.bufs
    ∧ ∃ y, (s.moveRun g).startedOf (unitEng g 3) x.id = some y ∧ y.done = some (0, 0) := by
  have counted := corr_records s (cmRow g m.src) 512
  have hrun := moveRun_over hx hm hruns (moveSteps_oneRow h hprog hlen hread hwrite hclass hsrc hdst)
  obtain ⟨y, hy⟩ := startedOf_oldest hx
  generalize hc : s.corr (cmRow g m.src) 512 = c at counted hrun
  have hacked : (c.rowWritten g (cmRow g m.dst) l).unacked (unitEng g 3) x.id = false :=
    (counted.part (State.unacked · (unitEng g 3) x.id)).trans hacked
  have hy : (c.rowWritten g (cmRow g m.dst) l).startedOf (unitEng g 3) x.id = some y :=
    (counted.part (State.startedOf · (unitEng g 3) x.id)).trans hy
  rw [if_neg (Bool.eq_false_iff.1 hacked), appendDone_none h.append] at hrun
  rw [hrun]
  refine ⟨?_, ?_, ?_⟩
  · rw [opDone_mem, modStarted_mem]
    exact congrArg (·.wrN (cmRow g m.dst) l) counted.mem
  · rw [opDone_bufs, modStarted_bufs]
    exact counted.bufs
  · rw [startedOf_opDone, startedOf_setProg, hy]
    exact ⟨_, rfl, rfl⟩

/-- Settles O30: a MOVE by what its steps come to, and each event of a ring by the equation of its turn. -/
theorem moverAndRingsComplete : Obligations.MoverAndRingsComplete := by
  refine ⟨fun g s x m r hx hm hruns hr => ?steps,
    fun g s x m l hx hm hruns hsk hdk hcvt hmx hrows happ hprog hl hread hwrite hclass hsrc hdst hacked => ?row,
    fun k s w r hw hr hslot hfirst hearly hreset hok => ⟨_, exec_ringSlotClaim s k, ?claim⟩,
    fun k u id s w r x hw hr hwho hslot hlimit hlate hclock hx => ?cmd,
    fun k g n s w r q la l hw hr hwho hslot hlimit hlate hclock hq hla hl => ?gang,
    fun f p v s s1 hgate hgo hs1 => ⟨_, exec_ringReset hgate, ?reset⟩⟩
  case steps =>
    rw [exec_move]
    obtain ⟨a, pr, t⟩ := r
    have hr := hr.symm
    rcases a with q | _ | ⟨st, sub, a⟩ | _
    · rw [moveRun_go hx hm hruns hr]
    · rw [moveRun_wait hx hm hruns hr]
    · rw [moveRun_fault hx hm hruns hr]
    · rw [moveRun_over hx hm hruns hr]
  case row =>
    have hlen : l.length = 512 := by rw [hl, Store.rdN, List.length_map, List.length_range]
    obtain ⟨hmem, hbufs, y, hy, hdone⟩ := moveRun_oneRow hx hm hruns ⟨hsk, hdk, hcvt, hmx, hrows, happ⟩ hprog hlen hread hwrite hclass
      hsrc hdst hacked
    exact ⟨_, y, exec_move s g, (settle_mem _).trans hmem, (settle_bufs _).trans hbufs, (settle_startedOf ..).trans hy, hdone⟩
  case claim =>
    rw [ringClaim_claims hw hr hslot hfirst hearly hreset hok]
    rw [settle_ringWaits, settle_mem, settle_bufs, ringSt_congr (settle_rings _)]
    exact ⟨rfl, mgetD_mputD_same .., rfl, rfl⟩
  case cmd => rw [exec_ringTimeout, ringTimeout_cmd hw hr hslot hlimit hwho hlate hclock hx]
  case gang => rw [exec_ringTimeout, ringTimeout_gang hw hr hslot hlimit hwho hlate hclock hq hla hl]
  case reset =>
    subst hs1
    rw [ringReset_go s p hgo, settle_rd _ _ _ (by decide), rd_wr_same _ _ _ _ (by decide)]
    exact ⟨rfl, rfl⟩

end Sys2Proof.Machine
end

section
/-! Queue operations (R210, R211, R213, R214): what a started NOP or SYNC does, the list that a JUMP installs, and the entries that a
fetched row gives. -/

namespace Sys2Proof.Machine

variable {s : State} {u : Nat} {x : Started} {e : Entry}

/-! ## NOP and SYNC -/

theorem nopRun_oldest (h : s.oldest u 0x00 = some x) : s.nopRun u = s.opDone u x.id := by
  simp only [State.nopRun, h]

/-- The add that a SYNC with a remote signal sends (R211). -/
def State.syncAdd (s : State) (u : Nat) (x : Started) : MarkAdd :=
  { part := bits x.e.cmd.w4 1 3, mark := bits x.e.cmd.w4 4 12, add := x.e.cmd.w5, stamp := max (s.queueFt u) x.at_, src := u }

/-- The signal of a SYNC, where its body asks for one. -/
def State.syncSignal (s : State) (u : Nat) (x : Started) : State :=
  if bitAt x.e.cmd.w4 0 then s.signal u x.id (s.syncAdd u x) else s

/-- The user tally of a SYNC stamped `at_`, where its body asks for one. -/
def State.syncTally (s : State) (u : Nat) (x : Started) (at_ : Nat) : State :=
  if bits x.e.cmd.w6 0 16 != 0 then
    s.tallyAt at_ (s.queuePart u) x.e.cmd.tallyRing u (bits x.e.cmd.w6 0 16) 0 x.e.cmd.w7 0
  else s

theorem syncRun_oldest (h : s.oldest u 0x02 = some x) :
    s.syncRun u = ((s.syncSignal u x).syncTally u x (max (s.queueFt u) x.at_)).opDone u x.id := by
  simp only [State.syncRun, h]
  rfl

theorem syncSignal_on (h : bitAt x.e.cmd.w4 0 = true) : s.syncSignal u x = s.signal u x.id (s.syncAdd u x) := if_pos h
theorem syncSignal_off (h : bitAt x.e.cmd.w4 0 = false) : s.syncSignal u x = s := if_neg (Bool.eq_false_iff.1 h)

theorem syncTally_on {at_ : Nat} (h : bits x.e.cmd.w6 0 16 ≠ 0) :
    s.syncTally u x at_ = s.tallyAt at_ (s.queuePart u) x.e.cmd.tallyRing u (bits x.e.cmd.w6 0 16) 0 x.e.cmd.w7 0 :=
  if_pos (bne_iff_ne.2 h)

theorem syncTally_off {at_ : Nat} (h : bits x.e.cmd.w6 0 16 = 0) : s.syncTally u x at_ = s := if_neg (by simp [h])

/-! ## JUMP -/

/-- The list that a taken JUMP leaves, with its end as TAIL showed it. -/
def State.leftList (s : State) (u : Nat) : LeftList :=
  { gen := (s.q u).gen, base := s.rd F.qBase_base u * 512, sizeLog2 := s.rd F.qCtrl_sizeLog2 u, tag := s.rd F.qCtrl_tag u,
    tail := s.rd F.qTail_tail u }

/-- What queue `u` holds once its JUMP is taken: the lists that fetched commands still come from are remembered. -/
def State.jumpedQueue (s : State) (u : Nat) : Queue :=
  { s.q u with jump := none, gen := (s.q u).gen + 1,
               left := (s.q u).left.filter (fun l => (s.q u).waiting.any (fun x => x.gen == l.gen)) ++ [s.leftList u] }

/-- TAIL of the new list: a pending write for its tag, or the command's own (R214, R215). -/
def State.jumpTail (s : State) (u : Nat) (c : Cmd) : Nat :=
  if s.flag F.qState_pendValid u && s.rd F.qTail_pendTag u == bits c.w5 37 16 then s.rd F.qTail_pendTail u else bits c.w5 21 16

/-- Queue `u` on the list of JUMP `c`. -/
def State.onList (s : State) (u : Nat) (c : Cmd) : State :=
  ((((((((s.setQ u (s.jumpedQueue u)).wr F.qBase_base u (bits c.w4 9 48)).wr F.qCtrl_sizeLog2 u (bits c.w5 0 5)).wr
    F.qHead_head u (bits c.w5 5 16)).wr F.qCtrl_tag u (bits c.w5 37 16)).wr F.qTail_tail u (s.jumpTail u c)).wr F.qTail_pendTail u 0).wr
    F.qTail_pendTag u 0).wr F.qState_pendValid u 0

section
variable (hj : (s.q u).jump = some e) (hrun : s.qst u = 1)
include hj hrun

theorem takeJump_good (h : jumpFieldBad e.cmd = false) : s.takeJump u = s.onList u e.cmd := by
  simp only [State.takeJump, hj, hrun, h, bne_self_eq_false, Bool.false_eq_true, if_false]
  rfl

theorem takeJump_bad (h : jumpFieldBad e.cmd = true) :
    s.takeJump u
      = s.setQ u { s.q u with jump := none, waiting := (s.q u).waiting ++ [{ e with err := some (0x04, 0) }] } := by
  simp only [State.takeJump, hj, hrun, h, bne_self_eq_false, Bool.false_eq_true, if_false, if_true]

end

/-- A field written with a value that it holds whole reads that value. -/
theorem rd_wr_fits (s : State) {f : Fld} {v : Nat} (i : Nat) (hf : f.lo + f.len ≤ 64) (hv : v < 2 ^ f.len) : (s.wr f i v).rd f i = v :=
  (rd_wr_same s f i v hf).trans (Nat.mod_eq_of_lt hv)

theorem jumpTail_lt (s : State) (u : Nat) (c : Cmd) : s.jumpTail u c < 2 ^ 16 := by
  unfold State.jumpTail
  split
  · exact rd_lt s F.qTail_pendTail u
  · exact bits_lt _ _ _

/-- The registers of a queue on the list of a JUMP (R214). -/
theorem onList_rd (s : State) (u : Nat) (c : Cmd) :
    (s.onList u c).rd F.qBase_base u = bits c.w4 9 48 ∧ (s.onList u c).rd F.qCtrl_sizeLog2 u = bits c.w5 0 5
    ∧ (s.onList u c).rd F.qHead_head u = bits c.w5 5 16 ∧ (s.onList u c).rd F.qCtrl_tag u = bits c.w5 37 16
    ∧ (s.onList u c).rd F.qTail_tail u = s.jumpTail u c ∧ (s.onList u c).rd F.qState_pendValid u = 0 := by
  unfold State.onList
  simp (disch := decide) only [rd_wr_of_bits, rd_wr_of_reg]
  exact ⟨rd_wr_fits _ _ (by decide) (bits_lt _ _ _), rd_wr_fits _ _ (by decide) (bits_lt _ _ _),
    rd_wr_fits _ _ (by decide) (bits_lt _ _ _), rd_wr_fits _ _ (by decide) (bits_lt _ _ _),
    rd_wr_fits _ _ (by decide) (jumpTail_lt s u c), rd_wr_fits _ _ (by decide) (by decide)⟩

theorem onList_q (s : State) (u : Nat) (c : Cmd) : (s.onList u c).q u = s.jumpedQueue u := by
  simp only [State.onList, q_wr, q_setQ_same]

/-! ## Fetch -/

/-- Queue `u` asks for the row of HEAD: it runs, no JUMP and no failed fetch stands in it, and it has room for an entry (R213, R214). -/
structure State.Fetches (s : State) (u : Nat) : Prop where
  running : s.qst u = 1
  mode : s.benchMode u = false
  bench : isBenchQ u = true → s.benchExists ((u - 18456) / 4) = true
  jump : (s.q u).jump = none
  sound : ∀ e ∈ (s.q u).waiting, e.err = none
  entries : s.rd F.qHead_head u ≠ s.rd F.qTail_tail u
  room : (s.q u).waiting.length < 16

/-- The row at `d` answers a fetch of queue `u`: its home takes it, neither the network nor the host holds it, and no error lies in it. -/
structure State.RowAnswers (s : State) (u d : Nat) : Prop where
  light : s.homeDark d = false
  taken : s.nack (fetchCore u) d = none
  path : isCoreQ u = true → s.rowHeld (u / 4) d true = false
  host : s.heldByHost d false = []
  sound : s.mem.hurt d 512 = false
  snoops : s.snoopLost d = false
  slice : s.sliceLost d = false

/-- HEAD and the queue's content once the entries of a fetched row are taken. -/
def State.rowTaken (s : State) (u : Nat) (row : List Byte) : Nat × Queue :=
  takeEntries row (s.rd F.qTail_tail u) (2 ^ s.rd F.qCtrl_sizeLog2 u) (s.rd F.qCtrl_tag u) (s.q u).gen 8 (s.rd F.qHead_head u) (s.q u)

/-- The row of memory that HEAD of queue `u` stands in. -/
def State.headRow (s : State) (u : Nat) : Nat := (s.rd F.qBase_base u * 512 + 64 * s.rd F.qHead_head u) / 512 * 512

theorem fetchRow_takes {t : State} {d : Nat} (hf : s.Fetches u)
    (hx : s.xlat (tlbCore u) (s.queuePart u) (s.rd F.qCtrl_ctx u) (s.headRow u) false = (.ok d, t)) (hr : t.RowAnswers u d) :
    s.fetchRow u = (((t.corr d 512).setQ u (s.rowTaken u (t.mem.rdN d 512)).2).wr F.qHead_head u (s.rowTaken u (t.mem.rdN d 512)).1).queueNotice u
      ((s.rowTaken u (t.mem.rdN d 512)).2.waiting.drop (s.q u).waiting.length) := by
  have guard : (s.qst u != 1 || s.benchMode u || (isBenchQ u && !s.benchExists ((u - 18456) / 4)) || (s.q u).jump.isSome
      || (s.q u).waiting.any (fun e => e.err.isSome) || s.rd F.qHead_head u == s.rd F.qTail_tail u
      || decide (16 ≤ (s.q u).waiting.length)) = false := by
    have hsound : (s.q u).waiting.any (fun e => e.err.isSome) = false := List.any_eq_false.2 fun e he => by simp [hf.sound e he]
    have hbench : (isBenchQ u && !s.benchExists ((u - 18456) / 4)) = false := by
      cases h : isBenchQ u
      · rfl
      · rw [hf.bench h]; rfl
    simp [hf.running, hf.mode, hbench, hf.jump, hsound, hf.entries, hf.room]
  have path : (isCoreQ u && t.rowHeld (u / 4) d true) = false := by
    cases h : isCoreQ u
    · rfl
    · rw [hr.path h, Bool.and_false]
  unfold State.fetchRow
  dsimp only
  rw [guard, if_neg Bool.false_ne_true]
  unfold State.headRow at hx
  rw [hx]
  simp only [hr.light, hr.taken, path, hr.host, hr.sound, hr.snoops, hr.slice, List.isEmpty_nil, Option.isSome_none, Bool.not_true,
    Bool.not_false, Bool.and_true, Bool.or_self, Bool.false_eq_true, if_false]
  rfl

/-! ## The events -/

theorem exec_nop (q : QId) (s : State) : exec (.nop q) s = .next (settle (s.nopRun (qUnit q))) := rfl
theorem exec_sync (q : QId) (s : State) : exec (.sync q) s = .next (settle (s.syncRun (qUnit q))) := rfl

theorem exec_jump {q : QId} {s : State} (h : s.queueUp (qUnit q) = true) : exec (.jump q) s = .next (settle (s.takeJump (qUnit q))) :=
  congrArg finish (if_pos h)

theorem exec_commandFetch {q : QId} {s : State} (h : s.queueUp (qUnit q) = true) :
    exec (.commandFetch q) s = .next (settle (s.fetchRow (qUnit q))) :=
  congrArg finish (if_pos h)

/-- Settles O12: NOP and SYNC by their two optional acts, JUMP by the registers of the list it installs, a fetch by its row's entries. -/
theorem queueOperationsComplete : Obligations.QueueOperationsComplete := by
  refine ⟨fun q s x hx => ?nop, fun q s x hx hsig hev => ?signal, fun q s x hx hsig hev => ?tally, fun q s x hx hsig hev => ?neither,
    fun q s s1 x hx hsig hev hs1 => ?both, fun q s e hup hj hrun hgood => ?jump, fun q s e hup hj hrun hbad => ?badJump,
    fun q s s' d hup hrun hmode hbench hj herr hne hroom hx hlight htaken hpath hhost hsound hsnoop hslice => ?fetch⟩
  case nop => rw [exec_nop, nopRun_oldest hx]
  case signal => rw [exec_sync, syncRun_oldest hx, syncSignal_on hsig, syncTally_off hev, State.syncAdd]
  case tally => rw [exec_sync, syncRun_oldest hx, syncSignal_off hsig, syncTally_on hev]
  case neither => rw [exec_sync, syncRun_oldest hx, syncSignal_off hsig, syncTally_off hev]
  case both =>
    subst hs1
    rw [exec_sync, syncRun_oldest hx, syncSignal_on hsig, syncTally_on hev, State.syncAdd]
  case jump =>
    obtain ⟨hbase, hsize, hhead, htag, htail, hpend⟩ := onList_rd s (qUnit q) e.cmd
    refine ⟨_, exec_jump hup, ?_⟩
    rw [takeJump_good hj hrun hgood]
    simp (disch := decide) only [settle_rd, settle_q, onList_q, hbase, hsize, hhead, htag, htail, hpend, true_and]
    exact ⟨rfl, rfl, trivial⟩
  case badJump => rw [exec_jump hup, takeJump_bad hj hrun hbad]
  case fetch =>
    rw [exec_commandFetch hup,
      fetchRow_takes ⟨hrun, hmode, hbench, hj, herr, hne, hroom⟩ hx ⟨hlight, htaken, hpath, hhost, hsound, hsnoop, hslice⟩]
    rfl

end Sys2Proof.Machine
end

section
/-! How a command leaves the head of its queue (R219, R221, R223, R229): by its checks, at its deadline, once its waits hold, to every
member of a bench, and when its operation is over. -/

namespace Sys2Proof.Machine

variable {s : State} {u : Nat} {x : Started} {e : Entry} {rest : List Entry}

/-! ## Checks and starts -/

section
variable (hb : isBenchQ u = false) (hmay : s.mayStart u = true) (hw : (s.q u).waiting = e :: rest)
include hb hmay hw

/-- A command that failed its fetch ends with that status (R222). -/
theorem startCommand_failed {st sub : Nat} (herr : e.err = some (st, sub)) : s.startCommand u = s.endHead u e st sub := by
  simp only [State.startCommand, hw, hb, hmay, herr, Bool.not_true, Bool.or_self, Bool.false_eq_true, if_false]

section
variable (herr : e.err = none) (hlate : s.pastDeadline u e.cmd = false)
include herr hlate

/-- A command that fails a check ends with its status (R219). -/
theorem startCommand_bad (hbad : s.headCheck u e ≠ 0) : s.startCommand u = s.endHead u e (s.headCheck u e) 0 := by
  simp only [State.startCommand, hw, hb, hmay, herr, hlate, bne_iff_ne.2 hbad, Bool.not_true, Bool.or_self, Bool.false_eq_true, if_false,
    if_true]

/-- A command that passes its checks starts once what it waits for holds (R219, R220). -/
theorem startCommand_starts (hgood : s.headCheck u e = 0) (hupd : e.own.cmd.opcode ≠ 0x60)
    (hmark : (s.showWaits u e.own.cmd).markOk u e.own.cmd = true) (hgate : (s.showWaits u e.own.cmd).gateOk u e.own.cmd = true)
    (hfence : (s.showWaits u e.own.cmd).fenceOk u e.own.cmd = true) (hfree : (s.showWaits u e.own.cmd).engineFree u e.own = true) :
    s.startCommand u = (s.showWaits u e.own.cmd).startHead u e.own := by
  simp only [State.startCommand, hw, hb, hmay, herr, hlate, hgood, hmark, hgate, hfence, hfree, beq_eq_false_iff_ne.2 hupd,
    bne_self_eq_false, Bool.not_true, Bool.or_self, Bool.false_eq_true, if_false]

end
end

/-- LATE ends a command that has not started by its deadline (R221). -/
theorem lateHead_due (hb : isBenchQ u = false) (hrun : s.qst u = 1) (hup : s.queueUp u = true) (hact : s.act.any (fun a => a.begun) = false)
    (hw : (s.q u).waiting = e :: rest) (herr : e.err = none) (hlate : s.pastDeadline u e.cmd = true) :
    s.lateHead u = s.endHead u e.own 0x01 0 0 (if isCoreQ u then s.expired (u / 4) e.cmd.w2 else none) := by
  simp only [State.lateHead, hw, hb, hrun, hup, hact, herr, hlate, bne_self_eq_false, Option.isSome_none, Bool.not_true, Bool.or_self,
    Bool.false_eq_true, if_false]

/-! ## Completion -/

/-- The started command of queue `u` that completes next: the oldest, once its operation is over, and of a vector queue any whose
operation is over (R111, R229). -/
def State.nextDone (s : State) (u : Nat) : Option Started :=
  if isCoreQ u && u % 4 == 1 then (s.q u).started.find? (fun x => x.done.isSome) else (s.q u).started.head?.filter (fun x => x.done.isSome)

theorem nextDone_eq (hdone : x.done.isSome = true)
    (hx : if isCoreQ u = true ∧ u % 4 = 1 then (s.q u).started.find? (fun y => y.done.isSome) = some x
      else (s.q u).started.head? = some x) : s.nextDone u = some x := by
  unfold State.nextDone
  by_cases hv : isCoreQ u = true ∧ u % 4 = 1
  · rw [if_pos hv] at hx
    rw [if_pos (by simp [hv.1, hv.2]), hx]
  · rw [if_neg hv] at hx
    rw [if_neg (by simpa using hv), hx, Option.filter_some, if_pos hdone]

theorem completeNext_done {c sub : Nat} (hx : s.nextDone u = some x) (hdone : x.done = some (c, sub))
    (hruns : isCoreQ u = true → s.runs (u / 4) = true) :
    s.completeNext u = (((s.dropStarted u x.id).complete u x.id x.e.forEnd x.at_ c sub).compareFor u x.id).flushHeld u := by
  have hruns : (isCoreQ u && !s.runs (u / 4)) = false := by
    cases h : isCoreQ u
    · rfl
    · rw [hruns h]; rfl
  unfold State.nextDone at hx
  unfold State.completeNext
  dsimp only
  rw [hx]
  simp only [hruns, hdone, Option.getD_some, Bool.false_eq_true, if_false]

/-! ## Bench queues -/

/-- Member `g` of a bench takes command `x`, broadcast at tick `at_` from a queue of kind `e` in an address context (R223, R224). -/
def State.memberTakes (s : State) (e : Nat) (x : Entry) (ctxPart ctx at_ g : Nat) : State :=
  (s.setQ (unitEng g e) { s.q (unitEng g e) with
    waiting := (s.q (unitEng g e)).waiting
      ++ [{ x with bench := some { index := s.rd F.qBench_index (unitEng g e), ctxPart := ctxPart, ctx := ctx }, stamp := at_,
                   gen := (s.q (unitEng g e)).gen }] }).queueNotice (unitEng g e) [x]

/-- A bench queue whose oldest command goes out. -/
def State.broadcastOut (s : State) (u : Nat) (rest : List Entry) : State :=
  (s.setQ u { s.q u with waiting := rest }).wr F.qState_creditWait u 0

/-- A command at the head of a bench queue goes to every member of its bench (R223). -/
theorem broadcast_all {b e : Nat} {x : Entry} (hrun : s.qst (unitBench b e) = 1) (hbench : s.benchExists b = true)
    (hready : s.ready = true) (hw : (s.q (unitBench b e)).waiting = x :: rest) (herr : x.err = none)
    (hreset : ∀ g ∈ s.members b, s.coreInReset g = false)
    (hroom : ∀ g ∈ s.members b, s.benchMode (unitEng g e) = true ∧ (s.q (unitEng g e)).waiting.length < 16) :
    s.broadcast b e = (s.members b).foldl (fun t g => t.memberTakes e x ((s.broadcastOut (unitBench b e) rest).rd F.qCtrl_ctxPart (unitBench b e))
      ((s.broadcastOut (unitBench b e) rest).rd F.qCtrl_ctx (unitBench b e)) s.ft g) (s.broadcastOut (unitBench b e) rest) := by
  have hreset : (s.members b).find? (fun g => s.coreInReset g) = none := List.find?_eq_none.2 fun g hg => by simp [hreset g hg]
  have hroom : (s.members b).all (fun g => s.benchMode (unitEng g e) && decide ((s.q (unitEng g e)).waiting.length < 16)) = true :=
    List.all_eq_true.2 fun g hg => by simp [hroom g hg]
  obtain ⟨cmd, index, tag, gen, bench, stamp, err⟩ := x
  obtain rfl : err = none := herr
  simp only [State.broadcast, hw, hrun, hbench, hready, hreset, hroom, bne_self_eq_false, Bool.not_true, Bool.or_self,
    Bool.false_eq_true, if_false, State.wr_ft, State.setQ_ft]
  rfl

/-! ## The events -/

theorem exec_commandStart (q : QId) (s : State) : exec (.commandStart q) s = .next (settle (s.startCommand (qUnit q))) := rfl
theorem exec_late (q : QId) (s : State) : exec (.late q) s = .next (settle (s.lateHead (qUnit q))) := rfl
theorem exec_commandComplete (q : QId) (s : State) : exec (.commandComplete q) s = .next (settle (s.completeNext (qUnit q))) := rfl
theorem exec_benchBroadcast (b : BenchId) (e : Fin 4) (s : State) : exec (.benchBroadcast b e) s = .next (settle (s.broadcast b e)) := rfl

/-- Settles O13: each way out of the head of a queue is one branch of its event. -/
theorem commandFlowCompletes : Obligations.CommandFlowCompletes := by
  refine ⟨fun q s e rest hb hmay hw herr hgood hupd hlate hmark hgate hfence hfree => ?start,
    fun q s e rest hb hmay hw herr hbad hlate => ?check, fun q s e rest st sub hb hmay hw herr => ?fetch,
    fun q s e rest hb hrun hup hact hw herr hlate => ?late, fun q s x c sub hdone hruns hx => ?complete,
    fun b e s x rest hrun hbench hready hw herr hreset hroom => ?broadcast⟩
  case start => rw [exec_commandStart, startCommand_starts hb hmay hw herr hlate hgood hupd hmark hgate hfence hfree]
  case check => rw [exec_commandStart, startCommand_bad hb hmay hw herr hlate hbad]
  case fetch => rw [exec_commandStart, startCommand_failed hb hmay hw herr]
  case late => rw [exec_late, lateHead_due hb hrun hup hact hw herr hlate]
  case complete =>
    rw [exec_commandComplete, completeNext_done (nextDone_eq (by rw [hdone]; rfl) hx) hdone hruns]
  case broadcast =>
    rw [exec_benchBroadcast, broadcast_all hrun hbench hready hw herr hreset hroom]
    rfl

end Sys2Proof.Machine
end

section
/-! The queue registers that the host writes (R215, R216, R224, R226): what a write to CTRL, accepted or refused, and a write to TAIL leave. -/

namespace Sys2Proof.Machine

variable {s t w : State} {u v : Nat}

/-! ## A write to CTRL stays at its queue -/

/-- The registers that a write to CTRL changes. -/
def ctrlRegs : List RegName := [.qCtrl, .qState, .qMember]

/-- From `s` to `t` a write to CTRL of queue `u` had its effect: other registers, memory and the layout in force stand. -/
structure State.AtQueue (u : Nat) (s t : State) : Prop where
  reg : ∀ r i, (r ∉ ctrlRegs ∨ i ≠ u) → t.reg r i = s.reg r i
  mem : t.mem = s.mem
  roles : t.roles = s.roles
  active : t.active = s.active

theorem State.atQueue (s : State) (u : Nat) : s.AtQueue u s := ⟨fun _ _ _ => rfl, rfl, rfl, rfl⟩

namespace State.AtQueue

theorem trans (h : s.AtQueue u t) (k : t.AtQueue u w) : s.AtQueue u w :=
  ⟨fun r i hr => (k.reg r i hr).trans (h.reg r i hr), k.mem.trans h.mem, k.roles.trans h.roles, k.active.trans h.active⟩

theorem ite {p : Prop} [Decidable p] (ht : s.AtQueue u t) (hw : s.AtQueue u w) : s.AtQueue u (if p then t else w) := by
  split
  · exact ht
  · exact hw

theorem wr (h : s.AtQueue u t) {f : Fld} {v : Nat} (hf : f.reg ∈ ctrlRegs := by decide) : s.AtQueue u (t.wr f u v) :=
  h.trans ⟨fun _ _ hr => reg_wr_ne t f _ v (hr.imp (fun hr => (ne_of_mem_of_not_mem hf hr).symm) id), State.wr_mem .., State.wr_roles ..,
    State.wr_active ..⟩

theorem setQst (h : s.AtQueue u t) (v : Nat) : s.AtQueue u (t.setQst u v) := h.wr.wr

theorem setQ (h : s.AtQueue u t) (q : Queue) : s.AtQueue u (t.setQ u q) :=
  h.trans ⟨fun _ _ hr => reg_setQ_ne t u q (hr.imp (fun hr => (ne_of_mem_of_not_mem (by decide) hr).symm) id), State.setQ_mem ..,
    State.setQ_roles .., State.setQ_active ..⟩

theorem tallyAt (h : s.AtQueue u t) (at_ p ring unit event status lo hi : Nat) :
    s.AtQueue u (t.tallyAt at_ p ring unit event status lo hi) :=
  h.trans ⟨fun _ _ _ => tallyAt_reg .., State.tallyAt_mem .., State.tallyAt_roles .., State.tallyAt_active ..⟩

theorem rd (h : s.AtQueue u t) {f : Fld} {i : Nat} (hf : f.reg ∉ ctrlRegs ∨ i ≠ u) : t.rd f i = s.rd f i := by
  unfold State.rd; rw [h.reg _ _ hf]

theorem ready (h : s.AtQueue u t) : t.ready = s.ready := by
  simp only [State.ready, State.stage, h.rd (f := F.hfBootStatus_stage) (.inl (by decide)), h.rd (f := F.hfPwrTherm_state) (.inl (by decide))]

theorem member (h : s.AtQueue u t) : t.flag F.qBench_member u = s.flag F.qBench_member u := congrArg (· == 1) (h.rd (.inl (by decide)))

theorem benchExists (h : s.AtQueue u t) (b : Nat) : t.benchExists b = s.benchExists b := by
  simp only [State.benchExists, h.active]

theorem members (h : s.AtQueue u t) (b : Nat) : t.members b = s.members b := by
  simp only [State.members, h.roles]

theorem qst (h : s.AtQueue u t) {i : Nat} (hi : i ≠ u) : t.qst i = s.qst i := h.rd (.inr hi)

end State.AtQueue

/-! ## The fields of CTRL -/

/-- The mode of a core queue and the partition of a bench queue, as a write to CTRL gives them (R224). -/
def State.ctrlOwn (s : State) (u v : Nat) : State :=
  let s := if isCoreQ u then s.setMode u (bits v 11 1) else s
  if isBenchQ u then s.wr F.qCtrl_ctxPart u (bits v 13 3) else s

/-- The fields of CTRL, before its run bit has an effect. -/
def State.ctrlFields (s : State) (u v : Nat) : State :=
  (((s.wr F.qCtrl_ctx u (bits v 0 6)).wr F.qCtrl_sizeLog2 u (bits v 6 5)).wr F.qCtrl_tag u (bits v 32 16)).ctrlOwn u v

theorem setMode_atQueue (s : State) (u m : Nat) : s.AtQueue u (s.setMode u m) := .ite (s.atQueue u) ((s.atQueue u).setQ _).wr

theorem ctrlFields_atQueue (s : State) (u v : Nat) : s.AtQueue u (s.ctrlFields u v) :=
  have moded (t : State) : t.AtQueue u (if isCoreQ u then t.setMode u (bits v 11 1) else t) := .ite (setMode_atQueue ..) (t.atQueue u)
  (s.atQueue u).wr.wr.wr.trans ((moded _).trans (.ite (State.atQueue ..).wr (State.atQueue ..)))

/-- A field of another register, or of other bits, reads as before. -/
theorem rd_wr_apart (s : State) (k f : Fld) (i v : Nat) (hk : k.lo + k.len ≤ 64) (h : f.reg ≠ k.reg ∨ f.apart k) :
    (s.wr k i v).rd f i = s.rd f i :=
  h.elim (rd_wr_of_reg s k f i i v) (rd_wr_of_bits s k f i i v hk)

/-- A change of mode leaves every field but the mode and the idle bit. -/
theorem setMode_rd (s : State) (u m : Nat) (f : Fld) (hidle : f.reg ≠ .qState ∨ f.apart F.qState_idle)
    (hmode : f.reg ≠ .qCtrl ∨ f.apart F.qCtrl_mode) : (s.setMode u m).rd f u = s.rd f u := by
  unfold State.setMode
  split
  · rfl
  · rw [rd_wr_apart _ _ _ _ _ (by decide) hmode, State.setQ, rd_wr_apart _ _ _ _ _ (by decide) hidle]
    rfl

theorem setMode_mode (s : State) (u : Nat) {m : Nat} (hm : m < 2) : (s.setMode u m).rd F.qCtrl_mode u = m := by
  unfold State.setMode
  split
  · next h => exact beq_iff_eq.1 h
  · exact rd_wr_fits _ u (by decide) hm

/-- The mode and the partition lie apart from the other fields. -/
theorem ctrlOwn_rd (s : State) (u v : Nat) (f : Fld) (hidle : f.reg ≠ .qState ∨ f.apart F.qState_idle)
    (hmode : f.reg ≠ .qCtrl ∨ f.apart F.qCtrl_mode) (hpart : f.reg ≠ .qCtrl ∨ f.apart F.qCtrl_ctxPart) :
    (s.ctrlOwn u v).rd f u = s.rd f u := by
  have moded : (if isCoreQ u then s.setMode u (bits v 11 1) else s).rd f u = s.rd f u := by
    split
    · exact setMode_rd s u _ f hidle hmode
    · rfl
  unfold State.ctrlOwn
  dsimp only
  split
  · rw [rd_wr_apart _ _ _ _ _ (by decide) hpart, moded]
  · exact moded

/-- What CTRL and STATE show of a queue whose fields are written. -/
theorem ctrlFields_rd (s : State) (u v : Nat) :
    (s.ctrlFields u v).rd F.qCtrl_ctx u = bits v 0 6 ∧ (s.ctrlFields u v).rd F.qCtrl_sizeLog2 u = bits v 6 5
    ∧ (s.ctrlFields u v).rd F.qCtrl_tag u = bits v 32 16 ∧ (s.ctrlFields u v).qst u = s.qst u := by
  unfold State.ctrlFields State.qst
  simp (disch := decide) only [ctrlOwn_rd, rd_wr_of_bits, rd_wr_of_reg, and_true]
  exact ⟨rd_wr_fits _ _ (by decide) (bits_lt _ _ _), rd_wr_fits _ _ (by decide) (bits_lt _ _ _), rd_wr_fits _ _ (by decide) (bits_lt _ _ _)⟩

theorem ctrlFields_benchMode (s : State) (u v : Nat) : (s.ctrlFields u v).benchMode u = (isCoreQ u && bitAt v 11) := by
  unfold State.benchMode
  cases hc : isCoreQ u
  · rfl
  · have hb : isBenchQ u = false := by simp only [isCoreQ, isBenchQ, decide_eq_true_eq, decide_eq_false_iff_not] at hc ⊢; omega
    simp only [State.ctrlFields, State.ctrlOwn, hc, hb, if_true, Bool.false_eq_true, if_false, Bool.true_and, State.flag]
    rw [setMode_mode _ u (bits_lt v 11 1), bits_one]
    cases bitAt v 11 <;> rfl

/-! ## The state of a queue -/

theorem setQst_rd (s : State) (u : Nat) {v : Nat} (hv : v < 4) :
    (s.setQst u v).qst u = v ∧ (s.setQst u v).rd F.qCtrl_run u = ofBool (v == 1) := by
  unfold State.setQst State.qst
  rw [rd_wr_of_reg _ _ _ _ _ _ (by decide)]
  exact ⟨rd_wr_fits _ u (by decide) hv, rd_wr_fits _ u (by decide) (ofBool_lt _)⟩

/-- A new state leaves every field but the state and the run bit. -/
theorem setQst_rd_ne (s : State) (u v : Nat) (f : Fld) (hstate : f.reg ≠ .qState ∨ f.apart F.qState_state)
    (hrun : f.reg ≠ .qCtrl ∨ f.apart F.qCtrl_run) : (s.setQst u v).rd f u = s.rd f u := by
  rw [State.setQst, rd_wr_apart _ _ _ _ _ (by decide) hrun, rd_wr_apart _ _ _ _ _ (by decide) hstate]

theorem clearWaits_rd (s : State) (u : Nat) : (s.clearWaits u).qst u = s.qst u ∧ (s.clearWaits u).rd F.qCtrl_run u = s.rd F.qCtrl_run u := by
  unfold State.clearWaits State.qst
  simp (disch := decide) only [rd_wr_of_bits, and_self]

/-! ## run = 1 -/

/-- A queue with its configuration taken: cfg_err clears, and the end of a halt is noted (R216, R217). -/
def State.cfgTaken (s : State) (u : Nat) : State :=
  if (s.wr F.qState_cfgErr u 0).qst u == 2 then (s.wr F.qState_cfgErr u 0).resumeNote u else s.wr F.qState_cfgErr u 0

theorem cfgTaken_rd (s : State) (u : Nat) (f : Fld) (i : Nat) : (s.cfgTaken u).rd f i = (s.wr F.qState_cfgErr u 0).rd f i := by
  unfold State.cfgTaken
  split
  · exact tallyAt_rd ..
  · rfl

/-- A queue that a write of run = 1 has started. -/
def State.started (s : State) (u : Nat) : State := (s.cfgTaken u).setQst u 1

theorem started_atQueue (s : State) (u : Nat) : s.AtQueue u (s.started u) :=
  (State.AtQueue.ite ((s.atQueue u).wr.tallyAt ..) (s.atQueue u).wr).setQst 1

theorem started_rd (s : State) (u : Nat) :
    (s.started u).qst u = 1 ∧ (s.started u).rd F.qCtrl_run u = 1 ∧ (s.started u).rd F.qState_cfgErr u = 0
    ∧ (s.started u).rd F.qCtrl_sizeLog2 u = s.rd F.qCtrl_sizeLog2 u ∧ (s.started u).rd F.qCtrl_tag u = s.rd F.qCtrl_tag u
    ∧ (s.started u).rd F.qCtrl_ctx u = s.rd F.qCtrl_ctx u := by
  obtain ⟨hst, hrun⟩ := setQst_rd (s.cfgTaken u) u (v := 1) (by decide)
  refine ⟨hst, hrun, ?_⟩
  unfold State.started
  simp (disch := decide) only [setQst_rd_ne, cfgTaken_rd, rd_wr_of_reg, and_true]
  exact rd_wr_fits _ u (by decide) (by decide)

theorem runQueue_refused (h : s.rd F.qCtrl_sizeLog2 u < 3 ∨ 16 < s.rd F.qCtrl_sizeLog2 u ∨ s.ready = false) :
    s.runQueue u = s.wr F.qState_cfgErr u 1 := by
  unfold State.runQueue
  rw [if_pos (by rcases h with h | h | h <;> simp [h])]

section
variable (hlo : 3 ≤ s.rd F.qCtrl_sizeLog2 u) (hhi : s.rd F.qCtrl_sizeLog2 u ≤ 16) (hready : s.ready = true)
include hlo hhi hready

theorem runQueue_starts (hb : isBenchQ u = false) (hmember : s.benchMode u = true → s.flag F.qBench_member u = true) :
    s.runQueue u = s.started u := by
  have hmember : (s.benchMode u && !s.flag F.qBench_member u) = false := by
    cases h : s.benchMode u
    · rfl
    · rw [hmember h]; rfl
  unfold State.runQueue
  simp only [hb, hmember, hready, Nat.not_lt.2 hlo, Nat.not_lt.2 hhi, decide_false, Bool.false_and, Bool.not_true, Bool.not_false,
    Bool.or_self, Bool.false_eq_true, if_false, if_true]
  rfl

/-- A bench queue starts where no member of it is HALTED (R226). -/
theorem runQueue_starts_bench (hc : isCoreQ u = false) (hb : isBenchQ u = true) (hexists : s.benchExists ((u - 18456) / 4) = true)
    (hmembers : ((s.started u).wr F.qMember_hvalid u 0).haltedMember ((u - 18456) / 4) ((u - 18456) % 4) = none) :
    s.runQueue u = (s.started u).wr F.qMember_hvalid u 0 := by
  unfold State.started State.cfgTaken at *
  unfold State.runQueue
  simp only [hc, hb, hexists, hready, State.benchMode, Nat.not_lt.2 hlo, Nat.not_lt.2 hhi, hmembers, decide_false, Bool.false_and,
    Bool.and_false, Bool.not_true, Bool.or_self, Bool.false_eq_true, if_false]

end

theorem haltedMember_none {b e : Nat} (h : ∀ g ∈ s.members b, s.qst (unitEng g e) ≠ 2) : s.haltedMember b e = none :=
  List.find?_eq_none.2 fun g hg => by simpa using h g hg

/-! ## The write, by the state of the queue -/

theorem ctrlWrite_running_run (h : s.qst u = 1) (hv : bitAt v 12 = true) : s.ctrlWrite u v = s.wr F.qState_cfgErr u 0 := by
  simp only [State.ctrlWrite, h, hv, beq_self_eq_true, if_true]

theorem ctrlWrite_running_stop (h : s.qst u = 1) (hv : bitAt v 12 = false) : s.ctrlWrite u v = s.stopQueue u := by
  simp only [State.ctrlWrite, h, hv, beq_self_eq_true, Bool.false_eq_true, if_true, if_false]

theorem ctrlWrite_idle_run (h : s.qst u ≠ 1) (hv : bitAt v 12 = true) : s.ctrlWrite u v = (s.ctrlFields u v).runQueue u := by
  simp only [State.ctrlWrite, beq_eq_false_iff_ne.2 h, hv, Bool.false_eq_true, if_true, if_false]
  rfl

theorem ctrlWrite_idle_stop (h : s.qst u ≠ 1) (hv : bitAt v 12 = false) : s.ctrlWrite u v = (s.ctrlFields u v).setQst u 0 := by
  simp only [State.ctrlWrite, beq_eq_false_iff_ne.2 h, hv, Bool.false_eq_true, if_false]
  rfl

/-! ## TAIL -/

theorem tailWrite_current (h : bits v 16 16 = s.rd F.qCtrl_tag u) :
    s.tailWrite u v = (s.wr F.qTail_tailTag u (bits v 16 16)).wr F.qTail_tail u (bits v 0 16) := by
  have hsame : (s.wr F.qTail_tailTag u (bits v 16 16)).rd F.qCtrl_tag u = s.rd F.qCtrl_tag u := rd_wr_of_reg _ _ _ _ _ _ (by decide)
  simp only [State.tailWrite, hsame, beq_iff_eq.2 h, if_true]

theorem tailWrite_pending (h : bits v 16 16 ≠ s.rd F.qCtrl_tag u) :
    s.tailWrite u v = (((s.wr F.qTail_tailTag u (bits v 16 16)).wr F.qTail_pendTail u (bits v 0 16)).wr F.qTail_pendTag u (bits v 16 16)).wr
      F.qState_pendValid u 1 := by
  have hsame : (s.wr F.qTail_tailTag u (bits v 16 16)).rd F.qCtrl_tag u = s.rd F.qCtrl_tag u := rd_wr_of_reg _ _ _ _ _ _ (by decide)
  simp only [State.tailWrite, hsame, beq_eq_false_iff_ne.2 h, Bool.false_eq_true, if_false]

/-- A TAIL for another list waits, and the one in force stands (R215). -/
theorem tailWrite_pending_rd (h : bits v 16 16 ≠ s.rd F.qCtrl_tag u) :
    (s.tailWrite u v).rd F.qTail_pendTail u = bits v 0 16 ∧ (s.tailWrite u v).rd F.qTail_pendTag u = bits v 16 16
    ∧ (s.tailWrite u v).rd F.qState_pendValid u = 1 ∧ (s.tailWrite u v).rd F.qTail_tail u = s.rd F.qTail_tail u := by
  rw [tailWrite_pending h]
  simp (disch := decide) only [rd_wr_of_bits, rd_wr_of_reg, and_true]
  exact ⟨rd_wr_fits _ _ (by decide) (bits_lt _ _ _), rd_wr_fits _ _ (by decide) (bits_lt _ _ _), rd_wr_fits _ _ (by decide) (by decide)⟩

end Sys2Proof.Machine
end

section
/-! The statement on the queue registers (O14). -/

namespace Sys2Proof.Machine

variable {s : State} {f : Func} {q : QId} {v : Word64}

theorem exec_queueRun (h : s.gate f .qCtrl (qUnit q) true = .ok) (hv : bitAt v.toNat 12 = true) :
    exec (.queueRun f q v) s = .next (settle (s.ctrlWrite (qUnit q) v.toNat)) :=
  congrArg finish ((if_pos hv).trans (host_ok h _))

theorem exec_queueStop (h : s.gate f .qCtrl (qUnit q) true = .ok) (hv : bitAt v.toNat 12 = false) :
    exec (.queueStop f q v) s = .next (settle (s.ctrlWrite (qUnit q) v.toNat)) :=
  congrArg finish ((if_neg (Bool.eq_false_iff.1 hv)).trans (host_ok h _))

theorem exec_tailWrite (h : s.gate f .qTail (qUnit q) true = .ok) :
    exec (.tailWrite f q v) s = .next (settle (s.tailWrite (qUnit q) v.toNat)) :=
  congrArg finish (host_ok h _)

theorem settle_qst (s : State) (u : Nat) : (settle s).qst u = s.qst u := settle_rd s F.qState_state u (by decide)

/-- run = 1 starts a queue of a core or a collective engine (R216). -/
theorem ctrlWrite_starts {u w : Nat} (hv : bitAt w 12 = true) (hst : s.qst u ≠ 1) (hb : isBenchQ u = false) (hlo : 3 ≤ bits w 6 5)
    (hhi : bits w 6 5 ≤ 16) (hready : s.ready = true)
    (hmember : isCoreQ u = true → bitAt w 11 = true → s.flag F.qBench_member u = true) :
    s.ctrlWrite u w = (s.ctrlFields u w).started u := by
  have at_ := ctrlFields_atQueue s u w
  obtain ⟨-, hsize, -, -⟩ := ctrlFields_rd s u w
  rw [ctrlWrite_idle_run hst hv]
  refine runQueue_starts (by rw [hsize]; exact hlo) (by rw [hsize]; exact hhi) (at_.ready.trans hready) hb fun h => ?_
  rw [ctrlFields_benchMode, Bool.and_eq_true] at h
  rw [at_.member, hmember h.1 h.2]

theorem isCoreQ_unitBench (b e : Nat) : isCoreQ (unitBench b e) = false := decide_eq_false (by unfold unitBench; omega)
theorem isBenchQ_unitBench (b e : Nat) : isBenchQ (unitBench b e) = true := decide_eq_true (by unfold unitBench; omega)

/-- run = 1 starts a bench queue without a HALTED member (R216, R226). -/
theorem ctrlWrite_starts_bench {b e w : Nat} (he : e < 4) (hv : bitAt w 12 = true) (hst : s.qst (unitBench b e) ≠ 1) (hlo : 3 ≤ bits w 6 5)
    (hhi : bits w 6 5 ≤ 16) (hready : s.ready = true) (hexists : s.benchExists b = true)
    (hhalt : ∀ g ∈ s.members b, s.qst (unitEng g e) ≠ 2) (hcore : ∀ g ∈ s.members b, g < 4608) :
    s.ctrlWrite (unitBench b e) w = ((s.ctrlFields (unitBench b e) w).started (unitBench b e)).wr F.qMember_hvalid (unitBench b e) 0 := by
  have hbench : (unitBench b e - 18456) / 4 = b ∧ (unitBench b e - 18456) % 4 = e := by unfold unitBench; omega
  have at_ := ctrlFields_atQueue s (unitBench b e) w
  have at' := (at_.trans (started_atQueue _ _)).wr (f := F.qMember_hvalid) (v := 0)
  obtain ⟨-, hsize, -, -⟩ := ctrlFields_rd s (unitBench b e) w
  rw [ctrlWrite_idle_run hst hv]
  refine runQueue_starts_bench (by rw [hsize]; exact hlo) (by rw [hsize]; exact hhi) (at_.ready.trans hready) (isCoreQ_unitBench b e)
    (isBenchQ_unitBench b e) (by rw [hbench.1, at_.benchExists, hexists]) ?_
  rw [hbench.1, hbench.2]
  refine haltedMember_none fun g hg => ?_
  rw [at'.members] at hg
  have hne : unitEng g e ≠ unitBench b e := by have := hcore g hg; unfold unitEng unitBench; omega
  rw [at'.qst hne]
  exact hhalt g hg

/-- run = 1 with a size out of range or before READY sets cfg_err (R216). -/
theorem ctrlWrite_refused {u w : Nat} (hv : bitAt w 12 = true) (hst : s.qst u ≠ 1) (h : bits w 6 5 < 3 ∨ 16 < bits w 6 5 ∨ s.ready = false) :
    s.ctrlWrite u w = (s.ctrlFields u w).wr F.qState_cfgErr u 1 := by
  obtain ⟨-, hsize, -, -⟩ := ctrlFields_rd s u w
  rw [ctrlWrite_idle_run hst hv]
  exact runQueue_refused (by rw [hsize, (ctrlFields_atQueue s u w).ready]; exact h)

/-- Settles O14: a write to CTRL by the state of its queue, a write to TAIL by its tag. -/
theorem queueWritesComplete : Obligations.QueueWritesComplete := by
  refine ⟨fun f q v s hg hv hst hb hlo hhi hready hmember => ⟨_, exec_queueRun hg hv, ?start⟩,
    fun f b e v s hg hv hst hlo hhi hready hexists hhalt hcore => ⟨_, exec_queueRun hg hv, ?bench⟩,
    fun f q v s hg hv hst => ?runs, fun f q v s hg hv hst h => ⟨_, exec_queueRun hg hv, ?refused⟩,
    fun f q v s hg hv hst => ⟨_, exec_queueStop hg hv, ?stop⟩, fun f q v s hg hv hst => ⟨_, exec_queueStop hg hv, ?stopped⟩,
    fun f q v s hg htag => ?tail, fun f q v s hg htag => ⟨_, exec_tailWrite hg, ?pending⟩⟩
  case start =>
    obtain ⟨hctx, hsize, htag, -⟩ := ctrlFields_rd s (qUnit q) v.toNat
    obtain ⟨hrun, hbit, hcfg, hsize', htag', hctx'⟩ := started_rd (s.ctrlFields (qUnit q) v.toNat) (qUnit q)
    rw [ctrlWrite_starts hv hst hb hlo hhi hready hmember]
    simp (disch := decide) only [settle_qst, settle_rd, settle_mem, hrun, hbit, hcfg, hsize', htag', hctx', hsize, htag, hctx, true_and]
    exact ((ctrlFields_atQueue ..).trans (started_atQueue ..)).mem
  case bench =>
    obtain ⟨-, hsize, -, -⟩ := ctrlFields_rd s (unitBench b e) v.toNat
    obtain ⟨hrun, hbit, -, hsize', -, -⟩ := started_rd (s.ctrlFields (unitBench b e) v.toNat) (unitBench b e)
    rw [qUnit, ctrlWrite_starts_bench e.isLt hv hst hlo hhi hready hexists hhalt hcore]
    simp (disch := decide) only [settle_rd, settle_mem, State.qst, rd_wr_of_reg]
    exact ⟨hrun, hbit, hsize'.trans hsize, rd_wr_fits _ _ (by decide) (by decide),
      ((ctrlFields_atQueue ..).trans (started_atQueue ..)).wr.mem⟩
  case runs => rw [exec_queueRun hg hv, ctrlWrite_running_run hst hv]
  case refused =>
    obtain ⟨-, -, -, hqst⟩ := ctrlFields_rd s (qUnit q) v.toNat
    rw [ctrlWrite_refused hv hst h, settle_qst, settle_rd _ _ _ (by decide)]
    exact ⟨(rd_wr_of_bits _ _ _ _ _ _ (by decide) (.inl (by decide))).trans hqst, rd_wr_fits _ _ (by decide) (by decide)⟩
  case stop =>
    obtain ⟨hst', hbit'⟩ := clearWaits_rd ((s.discard (qUnit q)).setQst (qUnit q) 0) (qUnit q)
    obtain ⟨hst0, hbit0⟩ := setQst_rd (s.discard (qUnit q)) (qUnit q) (v := 0) (by decide)
    rw [ctrlWrite_running_stop hst hv, State.stopQueue, settle_qst, settle_rd _ _ _ (by decide)]
    exact ⟨rfl, hst'.trans hst0, hbit'.trans hbit0⟩
  case stopped =>
    obtain ⟨-, hsize, htag, -⟩ := ctrlFields_rd s (qUnit q) v.toNat
    obtain ⟨hst0, hbit0⟩ := setQst_rd (s.ctrlFields (qUnit q) v.toNat) (qUnit q) (v := 0) (by decide)
    rw [ctrlWrite_idle_stop hst hv]
    simp (disch := decide) only [settle_qst, settle_rd, setQst_rd_ne, hsize, htag, hst0, true_and, and_true]
    exact hbit0
  case tail => rw [exec_tailWrite hg, tailWrite_current htag]
  case pending =>
    obtain ⟨htail, htag', hvalid, hsame⟩ := tailWrite_pending_rd htag
    simp (disch := decide) only [settle_rd, htail, htag', hvalid, hsame, and_self]

end Sys2Proof.Machine
end

section
/-! Registers that an event leaves alone: a relation between two states that the work of a reset and the loss of a module reset keep for the
marks (R227, R488, R489, R492). -/

namespace Sys2Proof.Machine

variable {s t u : State} {r : RegName}

/-- From `s` to `t` the registers named `r` stand. -/
def State.Stands (r : RegName) (s t : State) : Prop := ∀ i, t.reg r i = s.reg r i

/-- Every state leaves itself: the start of a chain of updates `s.stands.wr.wr`. -/
theorem State.stands (s : State) : s.Stands r s := fun _ => rfl

namespace State.Stands

theorem trans (h : s.Stands r t) (k : t.Stands r u) : s.Stands r u := fun i => (k i).trans (h i)

/-- A field of another register is written. -/
theorem wr (h : s.Stands r t) {f : Fld} {i v : Nat} (hf : r ≠ f.reg := by decide) : s.Stands r (t.wr f i v) :=
  h.trans fun _ => reg_wr_ne t f i v (.inl hf)

theorem inc (h : s.Stands r t) {f : Fld} {i d : Nat} (hf : r ≠ f.reg := by decide) : s.Stands r (t.inc f i d) := h.wr hf

theorem setReg (h : s.Stands r t) {r' : RegName} {i v : Nat} (hr : r ≠ r' := by decide) : s.Stands r (t.setReg r' i v) :=
  h.trans fun _ => reg_setReg_ne t v (.inl hr)

theorem resetReg (h : s.Stands r t) {r' : RegName} {i : Nat} (hr : r ≠ r' := by decide) : s.Stands r (t.resetReg r' i) :=
  h.trans fun _ => reg_resetReg_ne t (.inl hr)

/-- No register changes. -/
theorem regs (h : s.Stands r t) (hu : u.regs = t.regs) : s.Stands r u := h.trans fun i => reg_of_regs hu r i

theorem foldl {α : Type} {f : State → α → State} {l : List α} (h : s.Stands r t)
    (hf : ∀ x ∈ l, ∀ v : State, v.Stands r (f v x)) :
    s.Stands r (l.foldl f t) := by
  induction l generalizing t with
  | nil => exact h
  | cons x l ih => exact ih (h.trans (hf x (List.mem_cons_self ..) t)) fun y hy => hf y (List.mem_cons_of_mem _ hy)

theorem loop {f : Nat → State → State} {n : Nat} (h : s.Stands r t) (hf : ∀ i (v : State), v.Stands r (f i v)) :
    s.Stands r (Machine.loop n f t) := h.foldl fun i _ v => hf i v

theorem ite {p : Prop} [Decidable p] (ht : s.Stands r t) (hu : s.Stands r u) : s.Stands r (if p then t else u) := by
  split
  · exact ht
  · exact hu

/-- Registers of the names that pass a test go back to their reset values. -/
theorem resetRegs {l : List RegName} {p : RegName → Bool} (h : s.Stands r t) (i : Nat) (hp : p r = false := by decide) :
    s.Stands r ((l.filter p).foldl (fun s x => s.resetReg x i) t) :=
  h.foldl fun _ hx v => v.stands.resetReg fun e => Bool.false_ne_true (hp.symm.trans (e ▸ (List.mem_filter.1 hx).2))

end State.Stands

/-! ## The work of a reset -/

/-- A state reached from `s` in which the marks stand. -/
abbrev State.MarksStand (s t : State) : Prop := s.Stands .partMark t

/-- The registers of queue `u` at their reset values; its place in a bench stays (R489). -/
def State.queueRegs (s : State) (u : Nat) : State :=
  (allRegs.filter (fun r => r.info.dom == .queue && r != .qBench && r != .qMember)).foldl (fun s r => s.resetReg r u) s

/-- Queue `u` holds no command. -/
def State.queueEmptied (s : State) (u : Nat) : State := { s with queues := mputD s.queues u { since := s.up } {} }

/-- The registers of core `g` itself at their reset values. -/
def State.coreOwn (s : State) (g : Nat) : State :=
  (allRegs.filter (fun r => r.info.blk == .core && r.info.dom == .core && r != .coreId && r != .coreMcode)).foldl (fun s r => s.resetReg r g) s

theorem coreRegs_eq (s : State) (g : Nat) :
    s.coreRegs g = (loop 4 (fun e s => (s.queueRegs (unitEng g e)).queueEmptied (unitEng g e)) (s.coreOwn g)).setReg .coreId g
      (s.reg .coreId g % 2 ^ 28) := rfl

theorem queueRegs_marks (s : State) (u : Nat) : s.MarksStand (s.queueRegs u) := .resetRegs s.stands u
theorem queueEmptied_marks (s : State) (u : Nat) : s.MarksStand (s.queueEmptied u) := s.stands.regs rfl
theorem coreOwn_marks (s : State) (g : Nat) : s.MarksStand (s.coreOwn g) := .resetRegs s.stands g

theorem coreRegs_marks (s : State) (g : Nat) : s.MarksStand (s.coreRegs g) := by
  rw [coreRegs_eq]
  exact ((coreOwn_marks s g).loop fun _ v => (queueRegs_marks v _).trans (queueEmptied_marks _ _)).setReg

theorem setRing_regs (s : State) (p n : Nat) (x : RingState) : (s.setRing p n x).regs = s.regs := rfl

theorem ringsClear_marks (s : State) (l : List Ring) : s.MarksStand (l.foldl (fun s r => s.ringClear r.part r.number) s) :=
  s.stands.foldl fun _ _ v => v.stands.regs (setRing_regs ..)

theorem ringsClearCore_marks (s : State) (g : Nat) : s.MarksStand (s.ringsClearCore g) := by
  unfold State.ringsClearCore
  split
  · exact s.stands
  · exact ringsClear_marks s _

theorem ringsBack_marks (s : State) (ok : Ring → Bool) : s.MarksStand (s.ringsBack ok) := by
  unfold State.ringsBack
  split
  · exact s.stands
  · exact ringsClear_marks s _

theorem zeroBufs_marks (s : State) (g : Nat) : s.MarksStand (s.zeroBufs g) := s.stands.regs rfl

theorem coreWork_marks (s : State) (g : Nat) : s.MarksStand (s.coreWork g) :=
  ((coreRegs_marks s g).trans (zeroBufs_marks _ g)).trans (ringsClearCore_marks _ g)

theorem cluRegs_marks (s : State) (c : Nat) : s.MarksStand (s.cluRegs c) := .wr (.resetRegs s.stands c)

theorem cluWork_marks (s : State) (c : Nat) : s.MarksStand (s.cluWork c) :=
  (s.stands.foldl fun g _ v => coreWork_marks v g).trans (cluRegs_marks _ c)

/-- Partition `p` without its collective queue, contexts and sequence slots. -/
def State.partForgets (s : State) (p : Nat) : State :=
  { s with queues := mdel s.queues (unitColl p), ctxs := mdrop (fun k => k / 64 == p) s.ctxs,
           seqSlots := mdrop (fun k => k / 32 == p) s.seqSlots }

/-- Nothing is cached of the contexts of partition `p`. -/
def State.partUncached (s : State) (p : Nat) : State :=
  { s with tlb := s.tlb.filter (fun e => e.ctxPart != p), xltInv := s.xltInv.filter (fun x => x.part != p),
           icache := s.icache.filter (fun l => l.ctxPart != p), ifills := s.ifills.filter (fun l => l.ctxPart != p) }

theorem partForgets_marks (s : State) (p : Nat) : s.MarksStand (s.partForgets p) := s.stands.regs rfl
theorem partUncached_marks (s : State) (p : Nat) : s.MarksStand (s.partUncached p) := s.stands.regs rfl

/-- The registers of partition `p` that reset with its compute part. -/
def State.partRegs (s : State) (p : Nat) : State :=
  (allRegs.filter (fun r => r.info.blk == .part && r.info.dom == .partC)).foldl
    (fun s r => loop r.info.count (fun i s => s.resetReg r (p * r.info.count + i)) s) s

theorem partRegs_marks (s : State) (p : Nat) : s.MarksStand (s.partRegs p) :=
  s.stands.foldl fun _ hx v => v.stands.loop fun _ v => v.stands.resetReg (by rintro rfl; exact absurd (List.mem_filter.1 hx).2 (by decide))

/-- The compute part of partition `p` before its rings go back to their start. -/
def State.partCleared (s : State) (p : Nat) : State :=
  (((((cluOfPart p).foldl (fun s c => s.cluWork c) s).partRegs p).queueRegs (unitColl p)).partForgets p).partUncached p

theorem partCleared_marks (s : State) (p : Nat) : s.MarksStand (s.partCleared p) :=
  ((((s.stands.foldl fun c _ v => cluWork_marks v c).trans (partRegs_marks _ p)).trans (queueRegs_marks _ _)).trans
    (partForgets_marks _ p)).trans (partUncached_marks _ p)

theorem partWork_eq (s : State) (p : Nat) : s.partWork p = (s.partCleared p).ringsBack (fun r => r.part == p) := rfl

theorem partWork_marks (s : State) (p : Nat) : s.MarksStand (s.partWork p) := by
  rw [partWork_eq]
  exact (partCleared_marks s p).trans (ringsBack_marks _ _)

/-! ## Layout and bench queues -/

theorem mget_filter_key {ν : Type} (m : NMap ν) (p : Nat → Bool) (k : Nat) :
    mget (m.filter (fun e => p e.1)) k = if p k then mget m k else none := by
  induction m with
  | nil => simp [mget]
  | cons e m ih =>
    obtain ⟨a, x⟩ := e
    rw [List.filter_cons]
    by_cases hk : k = a
    · subst hk
      by_cases ha : p k = true
      · simp [ha, mget]
      · simp [ha, ih]
    · by_cases ha : p a = true
      · simp [ha, mget, hk, ih]
      · simp [ha, mget, hk, ih]

theorem newBenchQueues_marks (s : State) : s.MarksStand s.newBenchQueues := by
  intro i
  unfold State.reg State.newBenchQueues mgetD
  dsimp only
  rw [mget_filter_key s.regs (fun k => !([RegName.qBase, .qCtrl, .qHead, .qTail, .qState, .qHalt, .qCerr, .qMember].any
    (fun r => r.ctorIdx == keyName k) && decide (18456 ≤ keyIdx k)))]
  rw [keyName_regKey, if_pos (by rfl)]

theorem setBenchReg_marks (s : State) (g b i m : Nat) : s.MarksStand (s.setBenchReg g b i m) := s.stands.loop fun _ v => v.stands.wr.wr.wr

theorem showRoles_marks (s : State) (old new : NMap Role) : s.MarksStand (s.showRoles old new) :=
  (s.stands.foldl fun _ _ v => setBenchReg_marks v _ _ _ _).foldl fun _ _ v => .ite (setBenchReg_marks v _ _ _ _) v.stands

theorem uncarve_marks (s : State) (p old new : Nat) : s.MarksStand (s.uncarve p old new) :=
  .ite s.stands (s.stands.loop fun _ v => v.stands.regs rfl)

/-- Both slots are EMPTY, and nothing of the layout in force is left under way. -/
def State.layoutGone (s : State) : State :=
  { s with active := none, standby := none, load := none, swap := none, roles := [], repairs := [], sinceLoad := [], rings := [],
           ringWaits := [], ringResets := [], plan := [], deputies := [], phaseOn := false, slackRuns := [] }

/-- The registers of the Headframe show no layout and no schedule. -/
def State.layoutBlank (s : State) : State :=
  let s := loop 256 (fun b s => s.resetReg .hfBenchState b) s
  let s := ((s.wr F.hfLayoutStatus_standby 0 0).wr F.hfLayoutStatus_activeValid 0 0).wr F.hfLayoutStatus_activeDebug 0 0
  let s := ((s.wr F.hfLayoutStatus_activeSweep 0 0).wr F.hfLayoutStatus_exhausted 0 0).wr F.hfLayoutStatus_hbmFixed 0 0
  let s := ((s.wr F.hfLayoutStatus_hbmMode 0 0).wr F.hfLayoutCmd_load 0 0).wr F.hfLayoutStatus_swapPending 0 0
  let s := (s.resetReg .hfLayoutIdActive 0).resetReg .hfLayoutIdStandby 0
  let s := loop 6 (fun j s => (s.resetReg .hfLayoutHashActive j).resetReg .hfLayoutHashStandby j) s
  s.resetReg .hfShift 0

/-- The sampling generator starts from a new seed. -/
def State.reseeded (s : State) : State := { s with genState := [], genSeed := s.freeCtr, freeCtr := s.freeCtr + 1 }

/-- HBM has no defined content. -/
def State.hbmForgotten (s : State) : State := { s with mem := s.mem.forget 0 hbmEnd s.freeCtr, freeCtr := s.freeCtr + 1 }

/-- The carve-outs of the layout in force go back to their partitions. -/
def State.carvesBack (s : State) : State := loop 8 (fun p t => t.uncarve p (s.active.elim 0 (fun (o : Layout) => o.carve.getD p 0)) 0) s

/-- The Headframe without a layout, its memories apart. -/
def State.layoutOut (s : State) : State :=
  loop 8 (fun p s => s.rdcInvalidate p) (s.layoutGone.newBenchQueues.showRoles s.roles []).layoutBlank.reseeded

theorem layoutWork_eq (s : State) :
    s.layoutWork = if s.carvesBack.hbmLocal then s.carvesBack.layoutOut.hbmForgotten else s.carvesBack.layoutOut := rfl

theorem carvesBack_marks (s : State) : s.MarksStand s.carvesBack := s.stands.loop fun _ v => uncarve_marks v _ _ _
theorem layoutGone_marks (s : State) : s.MarksStand s.layoutGone := s.stands.regs rfl
theorem reseeded_marks (s : State) : s.MarksStand s.reseeded := s.stands.regs rfl
theorem hbmForgotten_marks (s : State) : s.MarksStand s.hbmForgotten := s.stands.regs rfl
theorem rdcInvalidate_marks (s : State) (p : Nat) : s.MarksStand (s.rdcInvalidate p) := s.stands.regs rfl

theorem layoutBlank_marks (s : State) : s.MarksStand s.layoutBlank := by
  have benches : s.MarksStand (loop 256 (fun b s => s.resetReg .hfBenchState b) s) := s.stands.loop fun _ v => v.stands.resetReg
  have hashes (t : State) : t.MarksStand (loop 6 (fun j s => (s.resetReg .hfLayoutHashActive j).resetReg .hfLayoutHashStandby j) t) :=
    t.stands.loop fun _ v => v.stands.resetReg.resetReg
  exact (benches.wr.wr.wr.wr.wr.wr.wr.wr.wr.resetReg.resetReg.trans (hashes _)).resetReg

theorem layoutOut_marks (s : State) : s.MarksStand s.layoutOut :=
  (((((layoutGone_marks s).trans (newBenchQueues_marks _)).trans (showRoles_marks _ _ _)).trans (layoutBlank_marks _)).trans
    (reseeded_marks _)).loop fun p v => rdcInvalidate_marks v p

theorem layoutWork_marks (s : State) : s.MarksStand s.layoutWork := by
  have out := (carvesBack_marks s).trans (layoutOut_marks _)
  rw [layoutWork_eq]
  exact .ite (out.trans (hbmForgotten_marks _)) out

/-! ## The end of a reset -/

theorem opCause_marks (s : State) (c : Nat) : s.MarksStand (s.opCause c).2 := by
  unfold State.opCause
  dsimp only
  split
  · exact s.stands
  · split
    · exact s.stands
    · exact s.stands.regs rfl

/-- A cluster without stretched ticks and out of its droop. -/
def State.cluCalm (s : State) (c : Nat) : State := s.setClu c { s.cluSt c with stretched := 0, droop := false }

/-- Cluster `c` at the operating point that it restarts at. -/
def State.cluPoint (s : State) (c cap : Nat) : State :=
  ((s.wr F.cluOp_targetOp c (s.request c).1).wr F.cluOp_capOp c cap).wr F.cluOp_curOp c (min (s.request c).1 cap)

theorem restartClu_eq (s : State) (c : Nat) :
    s.restartClu c = if (s.cluCalm c).cluState c != 2 then s.cluCalm c
      else (((s.cluCalm c).cluPoint c (s.cluSt c).cap).opCause c).2.wr F.cluOp_cause c
        (((s.cluCalm c).cluPoint c (s.cluSt c).cap).opCause c).1 := rfl

theorem cluCalm_marks (s : State) (c : Nat) : s.MarksStand (s.cluCalm c) := s.stands.regs rfl
theorem cluPoint_marks (s : State) (c cap : Nat) : s.MarksStand (s.cluPoint c cap) := s.stands.wr.wr.wr

theorem restartClu_marks (s : State) (c : Nat) : s.MarksStand (s.restartClu c) := by
  rw [restartClu_eq]
  exact .ite (cluCalm_marks s c) (((cluCalm_marks s c).trans (cluPoint_marks _ c _)).trans (opCause_marks _ c)).wr

theorem setFence_marks (s : State) (g : Nat) (on : Bool) : s.MarksStand (s.setFence g on) := s.stands.wr.wr

/-- A running reset is struck from the list. -/
def State.resetStruck (s : State) (r : ResetRun) : State := { s with resets := s.resets.filter (fun x => x != r) }

theorem resetStruck_marks (s : State) (r : ResetRun) : s.MarksStand (s.resetStruck r) := s.stands.regs rfl

theorem endReset_marks (s : State) (r : ResetRun) (refused : Bool) : s.MarksStand (s.endReset r refused) := by
  have opened (l : List Nat) : s.MarksStand (l.foldl (fun s g => s.setFence g false) (s.resetStruck r)) :=
    (resetStruck_marks s r).foldl fun g _ v => setFence_marks v g false
  unfold State.endReset
  dsimp only
  split
  · exact .ite (opened _).wr.wr.wr (opened _).wr.wr
  · exact .ite (opened _).wr.wr.wr (opened _).wr.wr

/-- The unit of reset `r` back at its start, and the reset no longer running (Table 18-6). -/
def State.resetWork (s : State) (r : ResetRun) : State :=
  let s :=
    if r.kind == 0 then s.coreWork (576 * r.part + r.target)
    else if r.kind == 1 then s.cluWork (36 * r.part + r.target)
    else r.parts.foldl (fun s p => s.partWork p) s
  let s := if 3 ≤ r.kind then s.layoutWork else s
  let s := r.clusters.foldl (fun s c => s.restartClu c) s
  s.endReset r false

/-- The registers that report a reset which took `us` microseconds (Table 18-7). -/
def State.resetShow (s : State) (r : ResetRun) (us : Nat) : State :=
  if 3 ≤ r.kind then
    loop 8 (fun p s => (((s.inc F.partRstStat_resets p).wr F.partRst_lastUs p (min us 65535)).wr F.partRst_go p 0).wr F.partRst_busy p 0) s
  else (s.inc F.partRstStat_resets r.part).wr F.partRst_lastUs r.part (min us 65535)

theorem resetComplete_eq {k : Nat} {r : ResetRun} (h : s.resets[k]? = some r) :
    s.resetComplete k
      = if !r.drained || s.thermNow || (if r.kind == 0 then [36 * r.part + r.target / 16] else r.clusters).any (fun c => (s.cluSt c).hold)
        then s else (s.resetWork r).resetShow r (((s.resetWork r).up - r.at_) / 1000) := by
  unfold State.resetComplete
  rw [h]
  rfl

theorem resetWork_marks (s : State) (r : ResetRun) : s.MarksStand (s.resetWork r) := by
  have worked : s.MarksStand (if r.kind == 0 then s.coreWork (576 * r.part + r.target)
      else if r.kind == 1 then s.cluWork (36 * r.part + r.target) else r.parts.foldl (fun s p => s.partWork p) s) :=
    .ite (coreWork_marks s _) (.ite (cluWork_marks s _) (s.stands.foldl fun p _ v => partWork_marks v p))
  have laid (t : State) : t.MarksStand (if 3 ≤ r.kind then t.layoutWork else t) := .ite (layoutWork_marks t) t.stands
  have restarted (t : State) : t.MarksStand (r.clusters.foldl (fun s c => s.restartClu c) t) :=
    t.stands.foldl fun c _ v => restartClu_marks v c
  exact ((worked.trans (laid _)).trans (restarted _)).trans (endReset_marks _ r false)

theorem resetShow_marks (s : State) (r : ResetRun) (us : Nat) : s.MarksStand (s.resetShow r us) := by
  unfold State.resetShow
  split
  · refine s.stands.loop fun _ v => ?_
    exact v.stands.inc.wr.wr.wr
  · exact s.stands.inc.wr

/-- A reset that completes, and one that does not, leaves the marks (R227, R489). -/
theorem resetComplete_marks (s : State) (k : Nat) : s.MarksStand (s.resetComplete k) := by
  cases h : s.resets[k]? with
  | none =>
    have idle : s.resetComplete k = s := by unfold State.resetComplete; rw [h]
    rw [idle]
    exact s.stands
  | some r =>
    rw [resetComplete_eq h]
    exact .ite s.stands ((resetWork_marks s r).trans (resetShow_marks _ r _))

/-! ## Module reset -/

theorem stickyKey_regKey (r : RegName) (i : Nat) : stickyKey (regKey r i) = (r.info.dom == .sticky) := by
  unfold stickyKey
  rw [keyName_regKey]
  cases r <;> rfl

/-- Without power or by a module reset, a register that is not sticky returns to its reset value (R11, R492). -/
theorem reg_cleared (s : State) (sticky : Bool) {r : RegName} (i : Nat) (hr : r.info.dom ≠ .sticky) :
    (s.cleared sticky).reg r i = (regReset r i).toNat := by
  have key : stickyKey (regKey r i) = false := by rw [stickyKey_regKey]; exact beq_eq_false_iff_ne.2 hr
  have gone : mget (s.cleared sticky).regs (regKey r i) = none := by
    cases sticky
    · rfl
    · exact (mget_filter_key s.regs stickyKey _).trans (if_neg (Bool.eq_false_iff.1 key))
  rw [State.reg, mgetD, gone, Option.getD_none]

theorem keepRails_marks (old s : State) : s.MarksStand (old.keepRails s) := by
  have dark : s.MarksStand ((s.wr F.hfPwrPart_dark 0 (old.rd F.hfPwrPart_dark 0)).wr F.hfPwrPart_cause 0 (old.rd F.hfPwrPart_cause 0)) :=
    s.stands.wr.wr
  have banks (t : State) : t.MarksStand (loop 8 (fun p s => s.wr F.partPwrBank_phasesOk p (old.rd F.partPwrBank_phasesOk p)) t) :=
    t.stands.loop fun _ v => v.stands.wr
  have zones (t : State) : t.MarksStand (loop 48 (fun z s => s.wr F.partPwrZone_phases z (old.rd F.partPwrZone_phases z)) t) :=
    t.stands.loop fun _ v => v.stands.wr
  have clusters (t : State) : t.MarksStand (loop 288 (fun c s =>
      if bitAt (old.rd F.hfPwrPart_dark 0) (c / 36) then s.wr F.partPwrClu_state c 3 else s) t) :=
    t.stands.loop fun _ v => .ite v.stands.wr v.stands
  unfold State.keepRails
  exact (((dark.trans (banks _)).trans (zones _)).trans (clusters _)).regs rfl

/-- A module reset leaves every mark 0 (R227). -/
theorem moduleLost_mark (s : State) (i : Nat) : s.moduleLost.reg .partMark i = 0 := by
  have rails := keepRails_marks s (s.cleared true)
  have lost : (s.cleared true).MarksStand s.moduleLost := by
    unfold State.moduleLost
    dsimp only
    split
    · exact rails.wr
    · exact rails
  rw [lost i, reg_cleared s true i (by decide)]
  rfl

end Sys2Proof.Machine
end

section
/-! Marks (R227 to R230): one law for whatever puts a value into a mark, and the statement on marks (O15). -/

namespace Sys2Proof.Machine

variable {s t : State} {f : Func} {p : PartId} {m : MarkId} {v : Word64} {k : Nat} {a : MarkAdd}

/-! ## A value put into a mark -/

/-- Mark `i` with a value, and the stamps of what gave the marks their values. -/
def State.putMark (s : State) (i x : Nat) (stamps : NMap (List (Nat × Nat))) : State :=
  { s.wr F.partMark_value i x with markStamp := stamps }

theorem putMark_reg (s : State) (i x : Nat) (stamps : NMap (List (Nat × Nat))) (r : RegName) (j : Nat) :
    (s.putMark i x stamps).reg r j = (s.wr F.partMark_value i x).reg r j := reg_of_regs rfl r j

theorem putMark_rd (s : State) (i x : Nat) (stamps : NMap (List (Nat × Nat))) (f : Fld) (j : Nat) :
    (s.putMark i x stamps).rd f j = (s.wr F.partMark_value i x).rd f j := rd_of_regs rfl f j

/-- From `s` to `t` mark `i` of the module takes the value `x`, and nothing else of registers, memory and queues changes. -/
structure State.MarkPut (s t : State) (i x : Nat) : Prop where
  value : t.rd F.partMark_value i = x
  mem : t.mem = s.mem
  queues : t.queues = s.queues
  adds : t.adds = s.adds
  tallies : t.tallies = s.tallies
  hold : t.transitHold = s.transitHold
  frame : ∀ r j, (r ≠ .partMark ∨ j ≠ i) → r ≠ .hfBoard → t.reg r j = s.reg r j

theorem settle_putMark (s : State) (i : Nat) {x : Nat} (stamps : NMap (List (Nat × Nat))) (hx : x < 2 ^ 64) :
    s.MarkPut (settle (s.putMark i x stamps)) i x where
  value := by
    rw [settle_rd _ _ _ (by decide), putMark_rd]
    exact rd_wr_fits s i (by decide) hx
  mem := by rw [settle_mem, State.putMark, State.wr_mem]
  queues := by rw [settle_queues, State.putMark, State.wr_queues]
  adds := by rw [settle_adds, State.putMark, State.wr_adds]
  tallies := by rw [settle_tallies, State.putMark, State.wr_tallies]
  hold := by rw [settle_transitHold, State.putMark, State.wr_transitHold]
  frame r j hr hb := by
    rw [settle_reg _ _ hb, putMark_reg]
    exact reg_wr_ne s F.partMark_value i x hr

/-! ## Writes and adds of the host -/

theorem exec_markWrite (h : s.gate f .partMark (markIdx p m) true = .ok) :
    exec (.markWrite f p m v) s = .next (settle (s.putMark (markIdx p m) v.toNat (mput s.markStamp (markIdx p m) [(v.toNat, 0)]))) :=
  congrArg finish (host_ok h _)

/-- The value of a mark after an add (R227). -/
def State.markSum (s : State) (p m x : Nat) : Nat := (s.mark p m + x) % 2 ^ 64

theorem markSum_lt (s : State) (p m x : Nat) : s.markSum p m x < 2 ^ 64 := Nat.mod_lt _ (Nat.two_pow_pos 64)

theorem exec_markAdd (h : s.gate f .partMarkAdd (markIdx p m) true = .ok) :
    exec (.markAdd f p m v) s = .next (settle (s.putMark (markIdx p m) (s.markSum p m v.toNat)
      (mput s.markStamp (markIdx p m) (s.markHist (markIdx p m) ++ [(s.markSum p m v.toNat, 0)])))) :=
  congrArg finish (host_ok h _)

/-! ## Adds of messages -/

theorem exec_markAddArrive (k : Nat) (s : State) : exec (.markAddArrive k) s = .next (settle (s.addArrive k)) := rfl

/-- The adds on their way without the `k`-th. -/
def State.addTaken (s : State) (k : Nat) : State := { s with adds := dropNth s.adds k }

theorem addTaken_mark (s : State) (k p m : Nat) : (s.addTaken k).mark p m = s.mark p m := rd_of_regs rfl F.partMark_value _

theorem addArrive_applied (ha : s.adds[k]? = some a) (hsent : s.sentBefore a.src a.num = false) (hhold : s.transitHold.contains a.part = false) :
    s.addArrive k = (s.addTaken k).putMark (markIdx a.part a.mark) ((s.addTaken k).markSum a.part a.mark a.add)
      (mput s.markStamp (markIdx a.part a.mark) (s.markHist (markIdx a.part a.mark) ++ [((s.addTaken k).markSum a.part a.mark a.add, a.stamp)])) := by
  simp only [State.addArrive, ha, hsent, hhold, Bool.or_self, Bool.false_eq_true, if_false]
  rfl

/-- An add waits for what its source sent before it, and while the transit domain of its partition holds (R229, R299, R321). -/
theorem addArrive_waits (ha : s.adds[k]? = some a) (h : s.sentBefore a.src a.num = true ∨ s.transitHold.contains a.part = true) :
    s.addArrive k = s := by
  have guard : (s.sentBefore a.src a.num || s.transitHold.contains a.part) = true := Bool.or_eq_true_iff.2 h
  simp only [State.addArrive, ha, guard, if_true]

/-- An add that arrives: the sum in its mark, and the add no longer on its way. -/
theorem addArrive_put (ha : s.adds[k]? = some a) (hsent : s.sentBefore a.src a.num = false) (hhold : s.transitHold.contains a.part = false) :
    (s.addTaken k).MarkPut (settle (s.addArrive k)) (markIdx a.part a.mark) (s.markSum a.part a.mark a.add) := by
  have hsum : (s.addTaken k).markSum a.part a.mark a.add = s.markSum a.part a.mark a.add := by
    rw [State.markSum, addTaken_mark, State.markSum]
  rw [addArrive_applied ha hsent hhold, hsum]
  exact settle_putMark _ _ _ (markSum_lt ..)

/-! ## Resets -/

theorem mark_of_reg (h : s.MarksStand t) (p m : Nat) : t.mark p m = s.mark p m :=
  congrArg (bits · 0 64) (h (markIdx p m))

theorem settle_marks (s : State) : s.MarksStand (settle s) := fun i => settle_reg s i (by decide)

theorem exec_resetComplete (k : Nat) (s : State) : exec (.resetComplete k) s = .next (settle (s.resetComplete k)) := rfl

/-- PERST_N is asserted. -/
def State.perstDown (s : State) : State := { s with board := { s.board with perstN := false } }

/-- PERST_N's assertion is a module reset of a module that has booted and is not too hot (R490, R524). -/
theorem perstLow_lost (hg : s.board.pgood = true) (hf : s.firstBoot = false) (hh : s.thermNow = false) : s.perstLow = s.perstDown.moduleLost := by
  rw [perstLow_eq, if_neg (by simp [hg, hf, State.tooHot, hh])]
  rfl

/-- Settles O15: what puts a value into a mark changes nothing else, and the work of a compute reset never does. -/
theorem marksAddModulo : Obligations.MarksAddModulo := by
  refine ⟨fun f p m v s hg => ⟨_, exec_markWrite hg, ?write⟩, fun f p m v s hg => ⟨_, exec_markAdd hg, ?add⟩,
    fun k s a ha hsent hhold => ⟨_, exec_markAddArrive k s, ?arrive⟩, fun k s a ha h => ?wait,
    fun f p m v s t a hg ha hp hm hsent hhold ht => ⟨_, exec_markAddArrive 0 t, ?behind⟩,
    fun s hg hf hh => ⟨_, exec_perstAssert s, fun p m => ?module⟩, fun k s => ⟨_, exec_resetComplete k s, fun p m => ?compute⟩⟩
  case write =>
    have put := settle_putMark s (markIdx p m) (mput s.markStamp (markIdx p m) [(v.toNat, 0)]) v.isLt
    exact ⟨put.value, put.mem, put.queues, put.frame⟩
  case add =>
    have put := settle_putMark s (markIdx p m)
      (mput s.markStamp (markIdx p m) (s.markHist (markIdx p m) ++ [(s.markSum p m v.toNat, 0)])) (markSum_lt s p m v.toNat)
    exact ⟨put.value, put.mem, put.queues, put.frame⟩
  case arrive =>
    have put := addArrive_put ha hsent hhold
    exact ⟨put.value, put.adds, put.mem, put.queues, fun r i hr hb => (put.frame r i hr hb).trans (reg_of_regs rfl r i)⟩
  case wait => rw [exec_markAddArrive, addArrive_waits ha h]
  case behind =>
    rw [exec_markWrite hg] at ht
    obtain rfl := Host.Outcome.next.inj ht
    have put := settle_putMark s (markIdx p m) (mput s.markStamp (markIdx p m) [(v.toNat, 0)]) v.isLt
    generalize settle (s.putMark (markIdx p m) v.toNat _) = t at put
    have sent : t.sentBefore a.src a.num = false := by
      rw [State.sentBefore, put.adds, put.tallies]
      exact hsent
    have arrived := addArrive_put (s := t) (k := 0) (by rw [put.adds, ha]) sent (by rw [put.hold, hhold])
    rw [hp, hm, State.markSum, State.mark, put.value] at arrived
    exact arrived.value
  case module =>
    rw [mark_of_reg (settle_marks _), perstLow_lost hg hf hh, State.mark, State.rd]
    exact (congrArg (bits · 0 64) (moduleLost_mark ..)).trans rfl
  case compute => rw [mark_of_reg (settle_marks _), mark_of_reg (resetComplete_marks s k)]

end Sys2Proof.Machine
end

section
/-! Tallies (R231, R233, R236, R407, R415): a record on its way is written to its ring, is lost and counted, or waits. -/

namespace Sys2Proof.Machine

variable {s w : State} {t : Tally} {k base n d : Nat}

/-- The index of the registers of a record's ring. -/
def Tally.idx (t : Tally) : Nat := t.part * 8 + t.ring

/-- The records on their way without the `k`-th. -/
def State.tallyTaken (s : State) (k : Nat) : State := { s with tallies := dropNth s.tallies k }

/-- The `k`-th record on its way is `t`, its unit has sent nothing before it, and its partition's transit domain runs (R229, R236, R299). -/
structure State.TallyDue (s : State) (k : Nat) (t : Tally) : Prop where
  here : s.tallies[k]? = some t
  first : s.sentBefore t.unit t.num = false
  moves : s.transitHold.contains t.part = false

/-- The ring of record `t` has room for it, at device address `d`, in a row that its home holds whole (R233). -/
structure State.TallyFits (s : State) (t : Tally) (base n d : Nat) : Prop where
  light : s.partDark t.part = false
  ring : s.tallyRing t.part t.ring = some (base, n)
  room : s.tallyHeld t.idx < n
  place : s.resolve (base + 32 * (s.rd F.partTallyWr_wr t.idx % n)) = some d
  home : s.homeDark (d / 512 * 512) = false
  slice : s.sliceLost (d / 512 * 512) = false
  snoops : s.snoopLost (d / 512 * 512) = false

/-- Record `t` finds no ring that takes it: its partition is dark, the ring is not configured, is full, or lies where no row answers (R233). -/
def State.TallyLost (s : State) (t : Tally) : Prop :=
  s.partDark t.part = true ∨ s.tallyRing t.part t.ring = none
  ∨ ∃ base n, s.tallyRing t.part t.ring = some (base, n) ∧ (n ≤ s.tallyHeld t.idx
    ∨ ∃ d, s.resolve (base + 32 * (s.rd F.partTallyWr_wr t.idx % n)) = some d
      ∧ (s.homeDark (d / 512 * 512) = true ∨ s.sliceLost (d / 512 * 512) = true ∨ s.snoopLost (d / 512 * 512) = true))

/-! ## A record that waits -/

theorem tallyWrite_waits (ht : s.tallies[k]? = some t) (h : s.sentBefore t.unit t.num = true ∨ s.transitHold.contains t.part = true) :
    s.tallyWrite k = s := by
  have guard : (s.sentBefore t.unit t.num || s.transitHold.contains t.part) = true := Bool.or_eq_true_iff.2 h
  simp only [State.tallyWrite, ht, guard, if_true]

/-- A line of the row that the host holds comes back first (R407). -/
theorem tallyWrite_held (hdue : s.TallyDue k t) (hfit : s.TallyFits t base n d) (hheld : s.heldByHost (d / 512 * 512) true ≠ []) :
    s.tallyWrite k = s.snoop (d / 512 * 512) true := by
  have hroom : ¬ n ≤ s.tallyHeld (t.part * 8 + t.ring) := Nat.not_le.2 hfit.room
  have hplace : s.resolve (base + 32 * (s.rd F.partTallyWr_wr (t.part * 8 + t.ring) % n)) = some d := hfit.place
  simp only [State.tallyWrite, hdue.here, hdue.first, hdue.moves, hfit.light, hfit.ring, hroom, hplace, hfit.home, hfit.slice, hfit.snoops,
    List.isEmpty_eq_false_iff.2 hheld, Bool.or_self, Bool.not_false, Bool.false_eq_true, if_false, if_true]

/-! ## A record that is written -/

/-- The bytes of record `t` at `d`, and then wr of its ring one further (R231). -/
def State.tallyPut (s : State) (t : Tally) (d : Nat) (bytes : List Byte) : State :=
  (s.putMem d bytes).wr F.partTallyWr_wr t.idx ((s.rd F.partTallyWr_wr t.idx + 1) % 2 ^ 32)

/-- A record that is written may raise its ring's source; nothing else goes with it. -/
theorem tallyWrite_written (hdue : s.TallyDue k t) (hfit : s.TallyFits t base n d) (hfree : s.heldByHost (d / 512 * 512) true = []) :
    ((s.tallyTaken k).tallyPut t d (s.tallyBytes t)).Records [] (s.tallyWrite k) := by
  have hroom : ¬ n ≤ s.tallyHeld (t.part * 8 + t.ring) := Nat.not_le.2 hfit.room
  have hplace : s.resolve (base + 32 * (s.rd F.partTallyWr_wr (t.part * 8 + t.ring) % n)) = some d := hfit.place
  simp only [State.tallyWrite, hdue.here, hdue.first, hdue.moves, hfit.light, hfit.ring, hroom, hplace, hfit.home, hfit.slice, hfit.snoops,
    hfree, List.isEmpty_nil, Bool.or_self, Bool.not_true, Bool.false_eq_true, if_false]
  exact .ite (State.records _ |>.raise _) (State.records _)

theorem length_tallyBytes (s : State) (t : Tally) : (s.tallyBytes t).length = 32 := by
  simp [State.tallyBytes]

/-! ## A record that is lost -/

section
variable (hdue : s.TallyDue k t)
include hdue

theorem tallyWrite_dark (h : s.partDark t.part = true) : s.tallyWrite k = (s.tallyTaken k).inc F.partTallyWr_lost t.idx := by
  simp only [State.tallyWrite, hdue.here, hdue.first, hdue.moves, h, Bool.or_self, Bool.false_eq_true, if_false, if_true]
  rfl

variable (hlight : s.partDark t.part = false)
include hlight

theorem tallyWrite_noRing (h : s.tallyRing t.part t.ring = none) :
    s.tallyWrite k = (s.tallyTaken k).inc F.partTallyWr_lost t.idx := by
  simp only [State.tallyWrite, hdue.here, hdue.first, hdue.moves, hlight, h, Bool.or_self, Bool.false_eq_true, if_false]
  rfl

variable (hring : s.tallyRing t.part t.ring = some (base, n))
include hring

theorem tallyWrite_full (h : n ≤ s.tallyHeld t.idx) : s.tallyWrite k = (s.tallyTaken k).inc F.partTallyWr_lost t.idx := by
  have hfull : n ≤ s.tallyHeld (t.part * 8 + t.ring) := h
  simp only [State.tallyWrite, hdue.here, hdue.first, hdue.moves, hlight, hring, hfull, Bool.or_self, Bool.false_eq_true, if_false, if_true]
  rfl

variable (hroom : ¬ n ≤ s.tallyHeld t.idx) (hplace : s.resolve (base + 32 * (s.rd F.partTallyWr_wr t.idx % n)) = some d)
include hroom hplace

theorem tallyWrite_noHome (h : s.homeDark (d / 512 * 512) = true) :
    s.tallyWrite k = ((s.tallyTaken k).inc F.partNetErr_nacks t.part).inc F.partTallyWr_lost t.idx := by
  unfold Tally.idx at hroom hplace
  simp only [State.tallyWrite, hdue.here, hdue.first, hdue.moves, hlight, hring, hroom, hplace, h, Bool.or_self, Bool.false_eq_true,
    if_false, if_true]
  rfl

theorem tallyWrite_noRow (hhome : s.homeDark (d / 512 * 512) = false)
    (h : s.sliceLost (d / 512 * 512) = true ∨ s.snoopLost (d / 512 * 512) = true) :
    s.tallyWrite k = (s.tallyTaken k).inc F.partTallyWr_lost t.idx := by
  unfold Tally.idx at hroom hplace
  have row : (s.sliceLost (d / 512 * 512) || s.snoopLost (d / 512 * 512)) = true := Bool.or_eq_true_iff.2 h
  simp only [State.tallyWrite, hdue.here, hdue.first, hdue.moves, hlight, hring, hroom, hplace, hhome, row, Bool.or_self,
    Bool.false_eq_true, if_false, if_true]
  rfl

end

/-- A record that is lost is counted in its ring, and in nacks where its home is dark (R233, R314). -/
theorem tallyWrite_lost (hdue : s.TallyDue k t) (h : s.TallyLost t) :
    ∃ w, (s.tallyTaken k).Records [.partNetErr] w ∧ s.tallyWrite k = w.inc F.partTallyWr_lost t.idx := by
  cases hlight : s.partDark t.part with
  | true => exact ⟨_, State.records _, tallyWrite_dark hdue hlight⟩
  | false =>
    rcases h with hdark | hnone | ⟨base, n, hring, h⟩
    · exact absurd (hlight.symm.trans hdark) Bool.false_ne_true
    · exact ⟨_, State.records _, tallyWrite_noRing hdue hlight hnone⟩
    by_cases hfull : n ≤ s.tallyHeld t.idx
    · exact ⟨_, State.records _, tallyWrite_full hdue hlight hring hfull⟩
    obtain ⟨d, hplace, hrow⟩ := h.resolve_left hfull
    cases hhome : s.homeDark (d / 512 * 512) with
    | true => exact ⟨_, (State.records _).inc, tallyWrite_noHome hdue hlight hring hfull hplace hhome⟩
    | false =>
      have hrow := hrow.resolve_left (Bool.eq_false_iff.1 hhome)
      exact ⟨_, State.records _, tallyWrite_noRow hdue hlight hring hfull hplace hhome hrow⟩

/-! ## The events -/

theorem exec_tallyWrite (k : Nat) (s : State) : exec (.tallyWrite k) s = .next (settle (s.tallyWrite k)) := rfl

theorem exec_tallyRdWrite {f : Func} {p : PartId} {r : Fin 8} {v : Word64} (h : s.gate f .partTallyRd (p.val * 8 + r.val) true = .ok) :
    exec (.tallyRdWrite f p r v) s = .next (settle (s.tallyRdWrite p.val r.val v.toNat)) :=
  congrArg finish (host_ok h _)

/-- Settles O16: a record waits, is written or is lost, and each leaves what its way says. -/
theorem talliesComplete : Obligations.TalliesComplete := by
  refine ⟨fun k s t base n d ht hsent hhold hlight hring hroom hplace hhome hslice hsnoop hfree => ⟨_, exec_tallyWrite k s, ?written⟩,
    fun k s t ht hsent hhold h => ⟨_, exec_tallyWrite k s, ?lost⟩, fun k s t ht h => ?waits,
    fun k s t base n d ht hsent hhold hlight hring hroom hplace hhome hslice hsnoop hheld => ?held, fun f p r v s hg => ?read⟩
  case written =>
    have put := tallyWrite_written ⟨ht, hsent, hhold⟩ ⟨hlight, hring, hroom, hplace, hhome, hslice, hsnoop⟩ hfree
    have hmem : (settle (s.tallyWrite k)).mem = s.mem.wrN d (s.tallyBytes t) := by
      rw [settle_mem, put.mem, State.tallyPut, State.wr_mem, putMem_mem]; rfl
    refine ⟨hmem, fun a ha => ?_, ?_, ?_, fun r i hr hb => ?_⟩
    · rw [hmem, Store.rd_wrN_outside _ _ _ _ (by rw [length_tallyBytes]; exact ha)]
    · rw [settle_tallies]
      exact (put.part (·.tallies)).trans (by rw [State.untold, State.tallyPut, State.wr_tallies]; rfl)
    · rw [settle_rd _ _ _ (by decide), put.rd _]
      exact rd_wr_fits _ _ (by decide) (Nat.mod_lt _ (Nat.two_pow_pos 32))
    · rw [settle_reg _ _ hb, put.reg r (by simp)]
      exact reg_wr_ne _ F.partTallyWr_wr _ _ hr
  case lost =>
    obtain ⟨w, taken, hw⟩ := tallyWrite_lost ⟨ht, hsent, hhold⟩ h
    rw [hw, settle_mem, settle_tallies, settle_rd _ _ _ (by decide), settle_rd _ _ _ (by decide), State.inc_mem, State.inc_tallies]
    refine ⟨taken.mem, taken.part (·.tallies), ?_, ?_⟩
    · rw [State.inc, rd_wr_of_bits _ _ _ _ _ _ (by decide) (.inl (by decide)), taken.rd _]
      exact rd_of_regs rfl F.partTallyWr_wr _
    · rw [← Tally.idx, rd_inc_satAdd _ _ _ _ (by decide), taken.rd _]
      exact congrArg (satAdd F.partTallyWr_lost.len · 1) (rd_of_regs rfl F.partTallyWr_lost _)
  case waits => rw [exec_tallyWrite, tallyWrite_waits ht h]
  case held =>
    rw [exec_tallyWrite, tallyWrite_held ⟨ht, hsent, hhold⟩ ⟨hlight, hring, hroom, hplace, hhome, hslice, hsnoop⟩ hheld]
  case read =>
    rw [exec_tallyRdWrite hg]
    rfl

end Sys2Proof.Machine
end
